-- ==== Sys2Proof/Word.lean ====
section
/-! DEFINITION. Bytes, words and bit ranges: the plainest arithmetic of the model. -/

namespace Sys2Proof

/-- One byte of memory or of a structure. -/
abbrev Byte := BitVec 8

/-- A 32-bit lane of a Shoal vector register. -/
abbrev Word := BitVec 32

/-- A bit range [hi:lo] of a structure read as one little-endian number (R2). -/
structure Fld where
  hi : Nat
  lo : Nat
  deriving DecidableEq, Repr

/-- The number of bits of a field. -/
def Fld.width (f : Fld) : Nat := f.hi + 1 - f.lo

/-- The value a structure holds in a field. -/
def Fld.get (f : Fld) (v : Nat) : Nat := (v >>> f.lo) % 2 ^ f.width

/-- A structure with a field replaced by the low bits of `x`. -/
def Fld.set (f : Fld) (v x : Nat) : Nat :=
  ((v >>> (f.hi + 1)) <<< (f.hi + 1)) + ((x % 2 ^ f.width) <<< f.lo) + v % 2 ^ f.lo

/-- Bit `n` of a number. -/
def bit (v n : Nat) : Bool := (v >>> n) % 2 == 1

/-- The number a list of bytes spells, first byte least significant (R2). -/
def leNat : List Byte → Nat
  | [] => 0
  | b :: bs => b.toNat + 256 * leNat bs

/-- The first `n` bytes of a number, least significant first (R2). -/
def leBytes : Nat → Nat → List Byte
  | 0, _ => []
  | n + 1, v => BitVec.ofNat 8 v :: leBytes n (v / 256)

/-- The quotient rounded up. -/
def ceilDiv (a b : Nat) : Nat := (a + b - 1) / b

/-- `a` rounded up to a multiple of `b`. -/
def roundUp (a b : Nat) : Nat := ceilDiv a b * b

/-- The value of a `w`-bit number read as two's complement. -/
def signedOf (w v : Nat) : Int := if v % 2 ^ w < 2 ^ (w - 1) then (v % 2 ^ w : Nat) else (v % 2 ^ w : Nat) - (2 ^ w : Nat)

/-- The element `i` of a list, or `d` beyond its end. -/
def nth {α : Type} (l : List α) (i : Nat) (d : α) : α := l.getD i d

/-- The list cut into pieces of `n` elements (`fuel` bounds the number of pieces). -/
def chunksOf {α : Type} (n : Nat) : Nat → List α → List (List α)
  | 0, _ => []
  | fuel + 1, l => if l.isEmpty then [] else l.take n :: chunksOf n fuel (l.drop n)

end Sys2Proof
end

