-- ==== Sys2Proof/Syntax.lean ====
section
/-! DEFINITION. The commands of the block, one constructor for each row of the spec's table of operations and events, with the operands each takes, and the types of those operands. -/

namespace Sys2Proof

/-- The path a Chart access comes by: one of four mailbox slots, MCTP over I3C, or the cascade (R451, R452). -/
inductive Path where
  | mailbox (slot : Nat)
  | mctp
  | cascade
  deriving DecidableEq, Repr

/-- A Chart request as it reaches Charov: the path, software's SEQ, OFFSET and the data bytes, whose number is LENGTH (R455). -/
structure Req where
  path   : Path
  seq    : Nat
  offset : Nat
  data   : List Byte
  deriving DecidableEq, Repr

/-- The source of a doorbell store (R112, ORIGIN). -/
inductive Origin where
  | serverCores
  | die0
  | die1
  | groupMaster
  deriving DecidableEq, Repr

/-- What the memory system answers to a read or write that Charov makes without a Ferry channel (R139, R484). A failed sector is no answer of the environment: it follows from the stored check words. -/
inductive MemResult where
  | ok
  | pageFault (addr : Nat)
  | busError (addr : Nat)
  deriving DecidableEq, Repr

/-- The answer to a request that a Ferry lane or a Quay issued (R162). -/
inductive RespStatus where
  | ok
  | busError
  | pageFault
  | reefLost
  deriving DecidableEq, Repr

/-- A task of the loaded plan in one step (R71, R83). -/
structure TaskRef where
  step : Nat
  task : Nat
  deriving DecidableEq, Repr

/-- The tag a stage-0 agent attaches to a Quay handle (R171). -/
structure HandleTag where
  number     : Nat
  firstTile  : Nat
  tiles      : Nat
  transposed : Bool
  form       : Bool
  aborted    : Bool
  shard      : Bool
  deriving DecidableEq, Repr

/-- What waits for a request slot (R147): a Ferry lane or a Quay. -/
inductive Requester where
  | lane (l : Nat)
  | quay (d : Nat)
  deriving DecidableEq, Repr

/-- What the memory system answers to the Pilot's read of the command at the head of a queue, and, later, to the write of that command's completion record into its slot (R115, R141). -/
structure DispatchAnswers where
  head : MemResult
  slot : MemResult
  deriving DecidableEq, Repr

/-- A lane takes an item (R145), with what the memory system answers to the accesses of an item that one step carries out. -/
structure LaneStart where
  lane : Nat
  mem  : MemResult
  deriving DecidableEq, Repr

/-- A slot of the pool is granted (R147), with what the memory system answers to the fetch of a descriptor for which the requester asked. -/
structure SlotGrant where
  requester : Requester
  mem       : MemResult
  deriving DecidableEq, Repr

/-- A pulse on wire 2 of a port's sideband, of `us` µs (R338). -/
structure AttentionPulse where
  port : Nat
  us   : Nat
  deriving DecidableEq, Repr

/-- The outcome of a Causeway training (R415): whether a step timed out, and the wires whose widest error-free run is shorter than all 32 sampling positions, by their place in FAILED_WIRES (R421), with that run; 0 for a clock that does not lock. -/
structure TrainResult where
  timedOut : Bool
  eyes     : List (Nat × Nat)
  deriving DecidableEq, Repr

/-- The causes of a fast reset (R433). -/
inductive FastCause where
  | control (r : Req)
  | rail (r : Nat)
  | pllUnlock
  deriving DecidableEq, Repr

/-- The causes of a full reset (R433). -/
inductive FullCause where
  | standbyRising
  | control (r : Req)
  | rail (r : Nat)
  | refclkLost
  deriving DecidableEq, Repr

/-- Why a compute die is lost (R420). -/
inductive LossCause where
  | clocksAbsent
  | linkFailure
  deriving DecidableEq, Repr

/-- A cascade frame as the Ethernet MAC hands it over: source address, 32-byte header, payload (R392). -/
structure Frame where
  srcMac  : Nat
  header  : BitVec 256
  payload : List Byte
  deriving DecidableEq, Repr

/-- A frame of a Reef link (R332): header, payload sector, its check word, and the frame's LINK_CRC. -/
structure LinkFrame where
  header      : BitVec 128
  payload     : List Byte
  sectorCheck : BitVec 32
  linkCrc     : BitVec 32
  deriving DecidableEq, Repr

/-- What a Reef module that has been inserted holds: its metadata space, which is read at admission (R340), and its media. `bands` are the records of its physical bands, `factory` its factory defects, `media` the bytes of its frames, `counts` the write counts of the frames of its bands, `badSectors` the sectors whose check word fails, `poisoned` its unreadable frames. -/
structure ModuleData where
  ownerTag   : Nat
  setRecord  : Nat
  bands      : List (Nat × Nat)
  factory    : List Nat
  media      : List (Nat × Byte)
  counts     : List (Nat × Nat)
  badSectors : List Nat
  poisoned   : List Nat
  deriving DecidableEq, Repr

/-- The reply to LINK_UP, with what the module that has been linked holds where it is not known yet (R339, R340). -/
structure LinkUpReply where
  word  : BitVec 32
  found : Option ModuleData
  deriving DecidableEq, Repr

/-- A span of a Causeway bay: kind byte, 1,024 data bytes, check bits (R407, R408). -/
structure Span where
  kind  : Byte
  data  : List Byte
  check : BitVec 32
  deriving DecidableEq, Repr

/-- The fields of a Shoal instruction in the register form (R254). -/
structure GForm where
  pred : Nat
  pnot : Bool
  bf   : Bool
  d    : Nat
  a    : Nat
  b    : Nat
  c    : Nat
  ta   : Bool
  tb   : Bool
  deriving DecidableEq, Repr

/-- The fields of a Shoal instruction in the immediate form (R254). -/
structure IForm where
  pred : Nat
  pnot : Bool
  bf   : Bool
  d    : Nat
  a    : Nat
  b    : Nat
  imm  : Nat
  deriving DecidableEq, Repr

/-- The commands of the block. `c` in the tide-queue commands is the tag under which COMMAND_DISPATCH handed the command to its executor; the command's own fields are those of its 64 bytes. -/
inductive Instr where
  -- tide-queue commands (R132)
  | stow (c : Nat)
  | fetch (c : Nat)
  | recompute (c : Nat)
  | discard (c : Nat)
  | signal (c : Nat)
  | wait (c : Nat)
  | barrierEntry (c : Nat)
  | fence (c : Nat)
  | inlineWrite (c : Nat) (m : MemResult)
  | tableLoad (c : Nat) (m : MemResult)
  | tableBuild (c : Nat) (m : MemResult)
  | load (c : Nat)
  | replace (c : Nat)
  | unload (c : Nat)
  | restart (c : Nat)
  | planValidation (m : MemResult)
  | snapshot (c : Nat) (m : MemResult)
  | digest (c : Nat) (m : MemResult)
  | restore (c : Nat) (m : MemResult)
  | update (c : Nat) (m : MemResult)
  | exportCmd (c : Nat)
  | importCmd (c : Nat)
  | move (c : Nat)
  | compare (c : Nat) (m : MemResult)
  | nop (c : Nat)
  -- queues (R113 to R126)
  | submissionDoorbell (src : Origin) (word : BitVec 64) (width : Nat) (aligned : Bool)
  | completionDoorbell (src : Origin) (word : BitVec 64) (width : Nat) (aligned : Bool)
  | commandDispatch (m : DispatchAnswers)
  | queueEnable (r : Req)
  | queueDisable (r : Req)
  -- channels and rings (R150, R165, R169)
  | channelEnable (r : Req)
  | channelDisable (r : Req)
  | channelStop (r : Req)
  | channelResume (r : Req)
  | channelReset (r : Req)
  | clearFlags (r : Req)
  | arm (r : Req)
  | ringEnable (r : Req)
  | ringDisable (r : Req)
  -- programs (R247, R248)
  | register (r : Req) (m : MemResult)
  | retire (r : Req)
  -- buoys (R281, R283)
  | buoyBind (r : Req)
  | unbind (r : Req)
  | buoyReset (r : Req)
  -- Reef modules and window (R339 to R353)
  | admitKeep (p : Nat) (r : Req)
  | admitErase (p : Nat) (r : Req)
  | remove (p : Nat) (r : Req)
  | reidentify (p : Nat) (r : Req)
  | windowOffset (r : Req)
  | windowFlush (r : Req)
  | windowLoad (addr : Nat) (n : Nat)
  | windowStore (addr : Nat) (data : List Byte)
  -- sets and pairing (R363, R370, R374)
  | setAdopt (r : Req) (m : MemResult)
  | drop (r : Req)
  | copyPartner (r : Req)
  | feedWrite (sub : Nat) (r : Req)
  | correlatedOverride (r : Req)
  -- registered regions, sessions (R383, R388, R390)
  | regionEnable (r : Req)
  | regionDisable (r : Req)
  | attach (r : Req)
  | takeover (r : Req)
  | detach (r : Req)
  | heartbeatTimeout
  -- Causeway, Lighthouse (R414 to R436)
  | train (d : Nat) (r : Req)
  | trainingComplete (d : Nat) (res : TrainResult)
  | cwResume (d : Nat) (r : Req)
  | cwRelease (d : Nat) (r : Req)
  | fastReset (cause : FastCause)
  | fullReset (cause : FullCause)
  | mcLoad (r : Req)
  | holdAwake (r : Req)
  -- contexts and Harbour regions (R465 to R469)
  | create (r : Req)
  | teardown (r : Req)
  | preempt (r : Req)
  | contextResume (r : Req)
  | contextFreed (ctx : Nat)
  | xtsKey (r : Req)
  | philoxKey (r : Req)
  | assign (r : Req)
  | regionFillComplete (rgn : Nat)
  | regionRelease (r : Req)
  | genSelect (r : Req)
  -- the Chart and MCTP (R453, R457, R483)
  | chartWrite (index sub : Nat) (r : Req)
  | chartInfo (index sub : Nat) (r : Req)
  | setEndpointId (eid : Nat)
  | getEndpointId
  | getMctpVersionSupport
  | getMessageTypeSupport
  | getVendorDefinedMessageSupport
  -- accesses by server cores and devices (R48, R218, R384)
  | serverCoreWrite (addr : Nat) (data : List Byte)
  | deviceMemoryWrite (requester : Nat) (addr : Nat) (data : List Byte)
  | deviceMemoryRead (requester : Nat) (addr : Nat) (n : Nat)
  | deviceAtomicOp (requester : Nat) (addr : Nat)
  -- plan execution (R74, R83 to R92)
  | stepStart
  | stepEnd (step : Nat)
  | computeTask (x : TaskRef)
  | computeComplete (d : Nat)
  | computeSuspend (d : Nat)
  | stowTask (x : TaskRef)
  | reduceTask (x : TaskRef)
  | reefWrite (x : TaskRef)
  | prefetch (x : TaskRef)
  | feed (x : TaskRef)
  | recomputeTask (x : TaskRef)
  | updateTask (x : TaskRef)
  | discardTask (x : TaskRef)
  | snapshotTask (x : TaskRef)
  | digestTask (x : TaskRef)
  | exchange (x : TaskRef)
  | barrierTask (x : TaskRef)
  | taskComplete (x : TaskRef)
  | taskLate (x : TaskRef)
  -- Quays (R170, R179)
  | handlePass (d ring stage : Nat) (tag : HandleTag) (data : List Byte)
  | drainRequest (d tile form param : Nat)
  -- Ferries (R144 to R165)
  | laneTakesItem (l : LaneStart)
  | requestSlotGrant (q : SlotGrant)
  | pacingTick (t : Nat)
  | requestResponse (tag : Nat) (status : RespStatus)
  | shadowTakeover (ch : Nat)
  | channelStopped (ch : Nat)
  -- Skerries, form derivation, optimiser (R198 to R318)
  | ingest (skerry : Nat)
  | blockWritten (stream tile : Nat)
  | firstPass (stream : Nat)
  | tableSlotGrant
  | reservationGrant
  | egress (consumer : Nat)
  | formDerivation (d : Nat)
  | contributionAdd (shard : Nat)
  | stateStaged (shard : Nat)
  -- Shoal instructions (R255); `e` is the engine
  | endProg (e : Nat) (form : IForm)
  | loop (e : Nat) (form : IForm)
  | brz (e : Nat) (form : IForm)
  | brnz (e : Nat) (form : IForm)
  | sli (e : Nat) (form : IForm)
  | sadd (e : Nat) (form : GForm)
  | saddi (e : Nat) (form : IForm)
  | smul (e : Nat) (form : GForm)
  | sshr (e : Nat) (form : IForm)
  | sand (e : Nat) (form : GForm)
  | sldk (e : Nat) (form : IForm)
  | vld (e : Nat) (form : GForm)
  | vst (e : Nat) (form : GForm)
  | vldd (e : Nat) (form : IForm)
  | vstd (e : Nat) (form : IForm)
  | vbc (e : Nat) (form : IForm)
  | vbcs (e : Nat) (form : GForm)
  | vrand (e : Nat) (form : GForm)
  | vult (e : Nat) (form : GForm)
  | vadd (e : Nat) (form : GForm)
  | vsub (e : Nat) (form : GForm)
  | vmul (e : Nat) (form : GForm)
  | vfma (e : Nat) (form : GForm)
  | vmax (e : Nat) (form : GForm)
  | vmin (e : Nat) (form : GForm)
  | vabs (e : Nat) (form : GForm)
  | vneg (e : Nat) (form : GForm)
  | vdiv (e : Nat) (form : GForm)
  | vsqrt (e : Nat) (form : GForm)
  | vrsqrt (e : Nat) (form : GForm)
  | vexp (e : Nat) (form : GForm)
  | vlog (e : Nat) (form : GForm)
  | vtanh (e : Nat) (form : GForm)
  | verf (e : Nat) (form : GForm)
  | vsigm (e : Nat) (form : GForm)
  | vcgt (e : Nat) (form : GForm)
  | vcge (e : Nat) (form : GForm)
  | vceq (e : Nat) (form : GForm)
  | vsel (e : Nat) (form : GForm)
  | vmov (e : Nat) (form : GForm)
  | vsr (e : Nat) (form : GForm)
  | vqf (e : Nat) (form : IForm)
  | vstf (e : Nat) (form : GForm)
  | vrsum (e : Nat) (form : GForm)
  | vrmax (e : Nat) (form : GForm)
  | mz (e : Nat) (form : IForm)
  | mma (e : Nat) (form : GForm)
  | mst (e : Nat) (form : GForm)
  -- set copies (R366)
  | pageCopyComplete (set : Nat)
  -- cascade (R393 to R401)
  | heartbeat (f : Frame)
  | heartbeatSend
  | buoyOp (f : Frame)
  | buoyReply (f : Frame)
  | data (f : Frame)
  | dataDone (f : Frame)
  | epochReport (f : Frame)
  | digestRoot (f : Frame)
  | treeRequest (f : Frame)
  | treeData (f : Frame)
  | chartRequest (f : Frame)
  | chartReply (f : Frame)
  | memberNotice (f : Frame)
  | messageResend (pkg : Nat)
  | memberTimeout (pos : Nat)
  | masterTimeout
  -- Reef modules: wires, sideband, link (R332 to R349)
  | moduleIdentity (p : Nat) (first second : BitVec 12) (timingOk : Bool)
  | moduleAbsent (p : Nat)
  | status (p : Nat) (reply : BitVec 32)
  | lanes (p : Nat) (reply : BitVec 32)
  | preset (p : Nat) (reply : BitVec 32)
  | phyStart (p : Nat) (reply : BitVec 32)
  | phyResult (p : Nat) (reply : BitVec 32)
  | linkUp (p : Nat) (reply : LinkUpReply)
  | scrubBand (p : Nat) (reply : BitVec 32)
  | scrubPoll (p : Nat) (reply : BitVec 32)
  | wake (p : Nat) (reply : BitVec 32)
  | readFrame (p : Nat)
  | writeFrame (p : Nat)
  | dataFrame (p : Nat) (f : LinkFrame)
  | doneFrame (p : Nat) (f : LinkFrame)
  | controlFrame (p : Nat) (f : LinkFrame)
  | linkReplay (p : Nat)
  | alarmWord (p : Nat) (word : BitVec 16) (framed : Bool)
  | attentionPulse (p : AttentionPulse)
  | earlyRemovalWarning (p : Nat)
  | moduleBusy (p : Nat)
  | relocationComplete (p : Nat) (unreadable : List Nat)
  | ageUpdate
  | bandRecordWriteback
  | scrubDue (p : Nat)
  -- Causeway spans, straps and losses (R408 to R420, R31)
  | dataSpan (d bay : Nat) (sp : Span)
  | controlSpan (d bay : Nat) (sp : Span)
  | retryPulse (d bay : Nat)
  | strapWord (d : Nat) (word : BitVec 64)
  | strapTimeout (d : Nat)
  | dieLost (d : Nat) (cause : LossCause)
  | stackFailed (n : Nat)
  -- sleep, wake and supplies (R427, R430, R440)
  | sleepEntry (dom : Nat)
  | fastDomainWake
  | supplyWarning (rail : Nat) (mv : Nat)
  | warningCleared (rail : Nat) (samples : List Nat)
  -- timers and ends of started work
  | admissionTimeout (p : Nat)
  | mcLoadComplete (m : MemResult)
  | dynamicAddressAssignment (addr : Nat)
  | serverCoreRead (addr : Nat) (n : Nat)
  deriving DecidableEq, Repr

end Sys2Proof
end

