-- ==== Sys2Proof/Decode.lean ====
section
/-! DEFINITION. The commands that a word spells by the bits of the spec's table: the table gives no row any bits, so no word spells a command. -/

namespace Sys2Proof

/-- The command that the table's bits spell; no row of the table gives bits. -/
def decodeTableWord (_nbits _w : Nat) : Option Instr := none

end Sys2Proof
end

