-- ==== Sys2Proof/Machine/ChartTable.lean ====
section
/-! DEFINITION. The Chart: the type and access classes (R445, R447) and every entry of the chapters' tables with its type, class and default (R449). -/

namespace Sys2Proof.Machine

/-- The type of an entry (R445). -/
inductive ChType where
  | bool | u8 | u16 | u32 | u64 | i32 | f32 | bits64 | enum | str
  | blob (max : Nat)
  deriving DecidableEq, Repr

/-- The type code (R445). -/
def ChType.code : ChType → Nat
  | .bool => 1 | .u8 => 2 | .u16 => 3 | .u32 => 4 | .u64 => 5 | .i32 => 6
  | .f32 => 7 | .bits64 => 8 | .enum => 9 | .str => 10 | .blob _ => 11

/-- The largest length of a value in bytes (R445). -/
def ChType.size : ChType → Nat
  | .bool => 1 | .u8 => 1 | .u16 => 2 | .u32 => 4 | .u64 => 8 | .i32 => 4
  | .f32 => 4 | .bits64 => 8 | .enum => 1 | .str => 64 | .blob n => n

/-- Whether the type is a BLOB, whose values are read in segments (R460). -/
def ChType.isBlob : ChType → Bool
  | .blob _ => true
  | _ => false

/-- The access class of an entry (R447). -/
inductive ChAccess where
  | ro | rw | wo | rwi | rws | const
  deriving DecidableEq, Repr

/-- The access class code (R447). -/
def ChAccess.code : ChAccess → Nat
  | .ro => 1 | .rw => 2 | .wo => 3 | .rwi => 4 | .rws => 5 | .const => 6

/-- One row of an entry table: first index, number of instances, subindex, type, class, default as a little-endian number. A dash in the default column is 0 (R449). -/
structure ChEntry where
  base  : Nat
  count : Nat
  sub   : Nat
  type  : ChType
  acc   : ChAccess
  dflt  : Nat
  deriving DecidableEq, Repr

/-- Entries 0x1000.01 to 0x1130.04. -/
def chartTable0 : List ChEntry := [
  /- VENDOR -/ ⟨0x1000, 1, 0x01, .str, .const, 0x6d616976696749⟩,
  /- DEVICE -/ ⟨0x1000, 1, 0x02, .str, .const, 0x766f72616843⟩,
  /- STEPPING -/ ⟨0x1000, 1, 0x03, .u8, .const, 176⟩,
  /- PACKAGE_KIND -/ ⟨0x1000, 1, 0x04, .str, .const, 0x3347206e6f6c696c47⟩,
  /- STRAPS -/ ⟨0x1000, 1, 0x05, .u32, .ro, 0⟩,
  /- PACKAGE_UID -/ ⟨0x1000, 1, 0x06, .u64, .rws, 0⟩,
  /- IANA_ENTERPRISE -/ ⟨0x1000, 1, 0x07, .u32, .const, 0x1f4a7⟩,
  /- LIMITS -/ ⟨0x1000, 1, 0x08, (.blob 32), .const, 0x2800000010000001000001000000040000000010000010000000040000⟩,
  /- GEN_SUPPORTED -/ ⟨0x1001, 1, 0x01, .bits64, .const, 8⟩,
  /- GEN_SELECT -/ ⟨0x1001, 1, 0x02, .u8, .rws, 3⟩,
  /- GEN_ACTIVE -/ ⟨0x1001, 1, 0x03, .u8, .ro, 3⟩,
  /- CHART_REVISION -/ ⟨0x1001, 1, 0x04, .u16, .const, 1⟩,
  /- SESSION_STATE -/ ⟨0x1100, 1, 0x01, .enum, .ro, 0⟩,
  /- SESSION_ID -/ ⟨0x1100, 1, 0x02, .u64, .ro, 0⟩,
  /- ATTACH -/ ⟨0x1100, 1, 0x03, (.blob 16), .wo, 0⟩,
  /- HEARTBEAT -/ ⟨0x1100, 1, 0x04, .u32, .rw, 0⟩,
  /- HEARTBEAT_LIMIT -/ ⟨0x1100, 1, 0x05, .u32, .rw, 0⟩,
  /- PLAN_OWNER -/ ⟨0x1100, 1, 0x06, .u16, .rwi, 0⟩,
  /- PLAN_STATE -/ ⟨0x1100, 1, 0x07, .enum, .ro, 0⟩,
  /- REPLACE_PENDING -/ ⟨0x1100, 1, 0x08, .bool, .ro, 0⟩,
  /- ATTACH_COUNT -/ ⟨0x1100, 1, 0x09, .u32, .ro, 0⟩,
  /- ORPHAN_TIME -/ ⟨0x1100, 1, 0x0A, .u64, .ro, 0⟩,
  /- MAILBOX_BASE -/ ⟨0x1110, 1, 0x01, .u64, .const, 0xff00004000000⟩,
  /- MAILBOX_SLOTS -/ ⟨0x1110, 1, 0x02, .u8, .const, 4⟩,
  /- MCTP_EID -/ ⟨0x1110, 1, 0x03, .u8, .ro, 0⟩,
  /- I3C_ADDRESS -/ ⟨0x1110, 1, 0x04, .u8, .ro, 0⟩,
  /- IBI_ENABLE -/ ⟨0x1110, 1, 0x05, .bool, .rw, 0⟩,
  /- PATH_REFUSALS -/ ⟨0x1110, 1, 0x06, .u32, .rw, 0⟩,
  /- QTABLE_BASE -/ ⟨0x1120, 1, 0x01, .u64, .rwi, 0⟩,
  /- QTABLE_COUNT -/ ⟨0x1120, 1, 0x02, .u32, .rwi, 0⟩,
  /- DOORBELL_ADDR -/ ⟨0x1120, 1, 0x03, .u64, .const, 0xff00004001000⟩,
  /- QUEUE_CONTROL -/ ⟨0x1121, 1, 0x01, .bits64, .wo, 0⟩,
  /- WINDOW_BASE -/ ⟨0x1130, 1, 0x01, .u64, .const, 0xff00000000000⟩,
  /- WINDOW_OFFSET -/ ⟨0x1130, 1, 0x02, .u64, .rw, 0⟩,
  /- WINDOW_CONTROL -/ ⟨0x1130, 1, 0x03, .bits64, .wo, 0⟩,
  /- WINDOW_DIRTY -/ ⟨0x1130, 1, 0x04, .u8, .ro, 0⟩]

/-- Entries 0x1200.01 to 0x1201.06. -/
def chartTable1 : List ChEntry := [
  /- CTX_SELECT -/ ⟨0x1200, 1, 0x01, .u16, .rw, 0⟩,
  /- CTX_CONTROL -/ ⟨0x1200, 1, 0x02, .bits64, .wo, 0⟩,
  /- CTX_ACTIVE -/ ⟨0x1200, 1, 0x03, .u16, .ro, 0⟩,
  /- CTX_STATE -/ ⟨0x1201, 1, 0x01, .enum, .ro, 0⟩,
  /- XTS_KEY -/ ⟨0x1201, 1, 0x02, (.blob 64), .wo, 0⟩,
  /- PHILOX_KEY -/ ⟨0x1201, 1, 0x03, .u64, .wo, 0⟩,
  /- KEYS_SET -/ ⟨0x1201, 1, 0x04, .bits64, .ro, 0⟩,
  /- CTX_QUEUES -/ ⟨0x1201, 1, 0x05, .u32, .ro, 0⟩,
  /- CTX_STREAMS -/ ⟨0x1201, 1, 0x06, .u32, .ro, 0⟩]

/-- Entries 0x2000.01 to 0x2100.09. -/
def chartTable2 : List ChEntry := [
  /- REGION_CONTROL -/ ⟨0x2000, 1, 0x01, .bits64, .wo, 0⟩,
  /- REGIONS_ASSIGNED -/ ⟨0x2000, 1, 0x02, .u16, .ro, 0⟩,
  /- STACK_LIMIT -/ ⟨0x2000, 1, 0x03, .u64, .const, 0x218711a000⟩,
  /- REG_BASE -/ ⟨0x2010, 1, 0x01, .u64, .rwi, 0⟩,
  /- REG_COUNT -/ ⟨0x2010, 1, 0x02, .u16, .rwi, 0⟩,
  /- REG_CONTROL -/ ⟨0x2010, 1, 0x03, .bits64, .wo, 0⟩,
  /- INBOUND_REFUSED -/ ⟨0x2010, 1, 0x04, .u32, .rw, 0⟩,
  /- REGION_BASE -/ ⟨0x2100, 256, 0x01, .u64, .rwi, 0⟩,
  /- STACK_BYTES -/ ⟨0x2100, 256, 0x02, .u64, .rwi, 0⟩,
  /- REGION_STATE -/ ⟨0x2100, 256, 0x03, .enum, .ro, 0⟩,
  /- CHARGE_LIMIT -/ ⟨0x2100, 256, 0x04, .u64, .rwi, 0⟩,
  /- LEDGER -/ ⟨0x2100, 256, 0x05, .u64, .ro, 0⟩,
  /- LEDGER_PEAK -/ ⟨0x2100, 256, 0x06, .u64, .rw, 0⟩,
  /- PROTECTED_BYTES -/ ⟨0x2100, 256, 0x07, .u64, .ro, 0⟩,
  /- DETECT_POLICY -/ ⟨0x2100, 256, 0x08, .enum, .rwi, 0⟩,
  /- DETECT_COUNT -/ ⟨0x2100, 256, 0x09, .u32, .rw, 0⟩]

/-- Entries 0x3100.01 to 0x3430.05. -/
def chartTable3 : List ChEntry := [
  /- SLICE_STATE -/ ⟨0x3100, 20, 0x01, .enum, .ro, 0⟩,
  /- BLOCKS_CODED -/ ⟨0x3100, 20, 0x02, .u64, .ro, 0⟩,
  /- BLOCKS_RAW -/ ⟨0x3100, 20, 0x03, .u64, .ro, 0⟩,
  /- BLOCKS_ZERO -/ ⟨0x3100, 20, 0x04, .u64, .ro, 0⟩,
  /- DAMAGE -/ ⟨0x3100, 20, 0x05, .u32, .rw, 0⟩,
  /- BLOCKS_FIXED -/ ⟨0x3100, 20, 0x06, .u64, .ro, 0⟩,
  /- QUEUE_DRAINS -/ ⟨0x3100, 20, 0x07, .u32, .rw, 0⟩,
  /- QUEUE_PEAK -/ ⟨0x3100, 20, 0x08, .u32, .rw, 0⟩,
  /- QUEUE_RESERVED -/ ⟨0x3100, 20, 0x09, .u32, .ro, 0⟩,
  /- GEN -/ ⟨0x3400, 4, 0x01, .u8, .ro, 0⟩,
  /- GEN_STATE -/ ⟨0x3400, 4, 0x02, .enum, .ro, 0⟩,
  /- ELEM_KIND -/ ⟨0x3400, 4, 0x03, .u8, .ro, 0⟩,
  /- SCOPE -/ ⟨0x3400, 4, 0x04, .enum, .ro, 0⟩,
  /- STREAM -/ ⟨0x3400, 4, 0x05, .u32, .ro, 0xffffffff⟩,
  /- CONTEXT -/ ⟨0x3400, 4, 0x06, .u32, .ro, 0⟩,
  /- REFS -/ ⟨0x3400, 4, 0x07, .u32, .ro, 0⟩,
  /- TABLE -/ ⟨0x3400, 4, 0x10, (.blob 273), .ro, 0⟩,
  /- DEFAULT_GEN -/ ⟨0x3410, 1, 0x01, .u8, .ro, 0⟩,
  /- DEFAULT_GEN -/ ⟨0x3410, 1, 0x02, .u8, .ro, 0⟩,
  /- DEFAULT_GEN -/ ⟨0x3410, 1, 0x03, .u8, .ro, 0⟩,
  /- DEFAULT_GEN -/ ⟨0x3410, 1, 0x04, .u8, .ro, 0⟩,
  /- TABLE_WAITS -/ ⟨0x3410, 1, 0x05, .u32, .ro, 0⟩,
  /- FR_GROUP -/ ⟨0x3430, 1, 0x01, .enum, .rwi, 1⟩,
  /- FR_PERIOD -/ ⟨0x3430, 1, 0x02, .u16, .rwi, 2048⟩,
  /- AUTO_SAMPLE_TILES -/ ⟨0x3430, 1, 0x03, .u16, .rwi, 256⟩,
  /- GROUPS_NONFINITE -/ ⟨0x3430, 1, 0x04, .u64, .ro, 0⟩,
  /- GROUPS_SATURATED -/ ⟨0x3430, 1, 0x05, .u64, .ro, 0⟩]

/-- Entries 0x4000.01 to 0x4400.06. -/
def chartTable4 : List ChEntry := [
  /- REEF_SET -/ ⟨0x4000, 1, 0x01, .u16, .rwi, 0⟩,
  /- SW_BYTES -/ ⟨0x4000, 1, 0x02, .u64, .rwi, 0⟩,
  /- REEF_CAPACITY -/ ⟨0x4000, 1, 0x03, .u64, .ro, 0⟩,
  /- PLAN_LIMIT -/ ⟨0x4000, 1, 0x04, .u64, .ro, 0⟩,
  /- LEDGER_PEAK -/ ⟨0x4000, 1, 0x05, .u64, .ro, 0⟩,
  /- PRESET_DEFAULT -/ ⟨0x4000, 1, 0x06, .u8, .rws, 5⟩,
  /- RELINK -/ ⟨0x4000, 1, 0x07, .bool, .rw, 0⟩,
  /- TEMP_WARN -/ ⟨0x4000, 1, 0x08, .i32, .rw, 680⟩,
  /- THERMAL_ACTION -/ ⟨0x4000, 1, 0x09, .enum, .rw, 0⟩,
  /- WEAR_WARN -/ ⟨0x4000, 1, 0x0A, .u32, .rw, 0x186a00⟩,
  /- SPARE_FLOOR -/ ⟨0x4000, 1, 0x0B, .u32, .rw, 256⟩,
  /- MOD_STATE -/ ⟨0x4100, 16, 0x01, .enum, .ro, 0⟩,
  /- MOD_ID -/ ⟨0x4100, 16, 0x02, .u16, .ro, 0⟩,
  /- MOD_CONTROL -/ ⟨0x4100, 16, 0x03, .bits64, .wo, 0⟩,
  /- LINK_WIDTH -/ ⟨0x4100, 16, 0x04, .u8, .ro, 0⟩,
  /- TEMPERATURE -/ ⟨0x4100, 16, 0x05, .i32, .ro, 0⟩,
  /- FRAMES_WRITTEN -/ ⟨0x4100, 16, 0x06, .u64, .ro, 0⟩,
  /- WEAR_MAX -/ ⟨0x4100, 16, 0x07, .u32, .ro, 0⟩,
  /- WEAR_MEAN -/ ⟨0x4100, 16, 0x08, .f32, .ro, 0⟩,
  /- BANDS_FREE -/ ⟨0x4100, 16, 0x09, .u32, .ro, 0⟩,
  /- DEFECTS_FACTORY -/ ⟨0x4100, 16, 0x0A, .u32, .ro, 0⟩,
  /- DEFECTS_GROWN -/ ⟨0x4100, 16, 0x0B, .u32, .rw, 0⟩,
  /- CORRECTED -/ ⟨0x4100, 16, 0x0C, .u64, .ro, 0⟩,
  /- LINK_REPLAYS -/ ⟨0x4100, 16, 0x0D, .u32, .rw, 0⟩,
  /- ALARM_ERRORS -/ ⟨0x4100, 16, 0x0E, .u32, .rw, 0⟩,
  /- BUSY_TIME -/ ⟨0x4100, 16, 0x0F, .u64, .ro, 0⟩,
  /- OLDEST_AGE -/ ⟨0x4100, 16, 0x10, .u32, .ro, 0⟩,
  /- BAND_RECORDS -/ ⟨0x4100, 16, 0x11, (.blob 1155968), .ro, 0⟩,
  /- SCRUB_AGE -/ ⟨0x4400, 1, 0x01, .u32, .rw, 120⟩,
  /- MARGIN_LIMIT -/ ⟨0x4400, 1, 0x02, .u8, .rw, 16⟩,
  /- SCRUB_RATE -/ ⟨0x4400, 1, 0x03, .u32, .rw, 2048⟩,
  /- WEAR_SPREAD -/ ⟨0x4400, 1, 0x04, .u32, .rw, 1000⟩,
  /- SLEEP_SCRUB -/ ⟨0x4400, 1, 0x05, .bool, .rw, 1⟩,
  /- SCRUBS_DONE -/ ⟨0x4400, 1, 0x06, .u64, .ro, 0⟩]

/-- Entries 0x5000.01 to 0x5100.04. -/
def chartTable5 : List ChEntry := [
  /- CHTABLE_BASE -/ ⟨0x5000, 1, 0x01, .u64, .rwi, 0⟩,
  /- CHTABLE_COUNT -/ ⟨0x5000, 1, 0x02, .u32, .rwi, 0⟩,
  /- RETRY_LIMIT -/ ⟨0x5000, 1, 0x03, .u8, .rw, 2⟩,
  /- CHANNEL_CONTROL -/ ⟨0x5001, 1, 0x00, .bits64, .wo, 0⟩,
  /- ARM_CHANNEL -/ ⟨0x5002, 1, 0x01, .u32, .rw, 0⟩,
  /- ARM_DESC -/ ⟨0x5002, 1, 0x02, .u64, .wo, 0⟩,
  /- TIMER_PERIOD -/ ⟨0x5010, 1, 0x01, .u32, .rw, 0⟩,
  /- TIMER_PERIOD -/ ⟨0x5010, 1, 0x02, .u32, .rw, 0⟩,
  /- TIMER_PERIOD -/ ⟨0x5010, 1, 0x03, .u32, .rw, 0⟩,
  /- TIMER_PERIOD -/ ⟨0x5010, 1, 0x04, .u32, .rw, 0⟩,
  /- TIMER_PERIOD -/ ⟨0x5010, 1, 0x05, .u32, .rw, 0⟩,
  /- TIMER_PERIOD -/ ⟨0x5010, 1, 0x06, .u32, .rw, 0⟩,
  /- TIMER_PERIOD -/ ⟨0x5010, 1, 0x07, .u32, .rw, 0⟩,
  /- TIMER_PERIOD -/ ⟨0x5010, 1, 0x08, .u32, .rw, 0⟩,
  /- TIMER_PERIOD -/ ⟨0x5010, 1, 0x09, .u32, .rw, 0⟩,
  /- TIMER_PERIOD -/ ⟨0x5010, 1, 0x0A, .u32, .rw, 0⟩,
  /- TIMER_PERIOD -/ ⟨0x5010, 1, 0x0B, .u32, .rw, 0⟩,
  /- TIMER_PERIOD -/ ⟨0x5010, 1, 0x0C, .u32, .rw, 0⟩,
  /- TIMER_PERIOD -/ ⟨0x5010, 1, 0x0D, .u32, .rw, 0⟩,
  /- TIMER_PERIOD -/ ⟨0x5010, 1, 0x0E, .u32, .rw, 0⟩,
  /- TIMER_PERIOD -/ ⟨0x5010, 1, 0x0F, .u32, .rw, 0⟩,
  /- TIMER_PERIOD -/ ⟨0x5010, 1, 0x10, .u32, .rw, 0⟩,
  /- STAGE_REGION -/ ⟨0x5020, 1, 0x01, .u8, .rwi, 0⟩,
  /- STAGE_BASE -/ ⟨0x5020, 1, 0x02, .u64, .rwi, 0⟩,
  /- STAGE_SLOTS -/ ⟨0x5020, 1, 0x03, .u32, .rwi, 0⟩,
  /- QRING_BASE -/ ⟨0x5040, 2, 0x01, .u64, .rwi, 0⟩,
  /- QRING_COUNT -/ ⟨0x5040, 2, 0x02, .u16, .rwi, 0⟩,
  /- RING_CONTROL -/ ⟨0x5042, 1, 0x00, .bits64, .wo, 0⟩,
  /- LANE_STATE -/ ⟨0x5100, 256, 0x01, .enum, .ro, 0⟩,
  /- LANE_CHANNEL -/ ⟨0x5100, 256, 0x02, .u32, .ro, 0xffffffff⟩,
  /- LANE_DESCRIPTORS -/ ⟨0x5100, 256, 0x03, .u64, .ro, 0⟩,
  /- LANE_RETRIES -/ ⟨0x5100, 256, 0x04, .u32, .rw, 0⟩]

/-- Entries 0x6000.01 to 0x6003.0A. -/
def chartTable6 : List ChEntry := [
  /- BUOYS_FREE -/ ⟨0x6000, 1, 0x01, .u32, .ro, 0x40000⟩,
  /- CACHE_MISSES -/ ⟨0x6000, 1, 0x02, .u64, .ro, 0⟩,
  /- BUOY_ERRORS -/ ⟨0x6000, 1, 0x03, .u32, .rw, 0⟩,
  /- OWNER_LOST_RELEASES -/ ⟨0x6000, 1, 0x04, .u32, .rw, 0⟩,
  /- PARKED_ENTRIES -/ ⟨0x6000, 1, 0x05, .u64, .ro, 0⟩,
  /- BUOY_BIND -/ ⟨0x6001, 1, 0x00, (.blob 16), .wo, 0⟩,
  /- BUOY_CONTROL -/ ⟨0x6002, 1, 0x00, .bits64, .wo, 0⟩,
  /- QUERY_KEY -/ ⟨0x6003, 1, 0x01, .u64, .rw, 0⟩,
  /- Q_STATE -/ ⟨0x6003, 1, 0x02, .enum, .ro, 0⟩,
  /- Q_PHYSICAL -/ ⟨0x6003, 1, 0x03, .u32, .ro, 0xffffffff⟩,
  /- Q_KIND -/ ⟨0x6003, 1, 0x04, .enum, .ro, 0⟩,
  /- Q_OWNER -/ ⟨0x6003, 1, 0x05, .enum, .ro, 0⟩,
  /- Q_COUNT -/ ⟨0x6003, 1, 0x06, .u32, .ro, 0⟩,
  /- Q_ROUND -/ ⟨0x6003, 1, 0x07, .u32, .ro, 0⟩,
  /- Q_PARKED -/ ⟨0x6003, 1, 0x08, .u16, .ro, 0⟩,
  /- Q_WAITERS -/ ⟨0x6003, 1, 0x09, .u32, .ro, 0⟩,
  /- Q_LIMIT -/ ⟨0x6003, 1, 0x0A, .u32, .ro, 0⟩]

/-- Entries 0x7100.01 to 0x7410.04. -/
def chartTable7 : List ChEntry := [
  /- ENGINE_STATE -/ ⟨0x7100, 40, 0x01, .enum, .ro, 0⟩,
  /- NUMERIC_MODE -/ ⟨0x7100, 40, 0x02, .enum, .rwi, 0⟩,
  /- INVOCATIONS -/ ⟨0x7100, 40, 0x03, .u64, .ro, 0⟩,
  /- NAN_RESULTS -/ ⟨0x7100, 40, 0x04, .u64, .ro, 0⟩,
  /- CLIPPED -/ ⟨0x7100, 40, 0x05, .u32, .rw, 0⟩,
  /- STORE_LOADS -/ ⟨0x7100, 40, 0x06, .u32, .ro, 0⟩,
  /- PROG_BASE -/ ⟨0x7400, 1, 0x01, .u64, .rwi, 0⟩,
  /- PROG_COUNT -/ ⟨0x7400, 1, 0x02, .u32, .rwi, 0⟩,
  /- PROG_CONTROL -/ ⟨0x7400, 1, 0x03, .bits64, .wo, 0⟩,
  /- OSTATE_BASE -/ ⟨0x7410, 1, 0x01, .u64, .rwi, 0⟩,
  /- OSTATE_COUNT -/ ⟨0x7410, 1, 0x02, .u32, .rwi, 0⟩,
  /- DELAY_WAITS -/ ⟨0x7410, 1, 0x03, .u32, .rw, 0⟩,
  /- DIFF_BREAKS -/ ⟨0x7410, 1, 0x04, .u32, .rw, 0⟩]

/-- Entries 0x8000.01 to 0x8020.05. -/
def chartTable8 : List ChEntry := [
  /- SETS_BASE -/ ⟨0x8000, 1, 0x01, .u64, .rwi, 0⟩,
  /- SETS_COUNT -/ ⟨0x8000, 1, 0x02, .u32, .rwi, 0⟩,
  /- SNAP_LANE -/ ⟨0x8000, 1, 0x03, .u8, .rwi, 0⟩,
  /- SET_ADOPT -/ ⟨0x8000, 1, 0x04, (.blob 48), .wo, 0⟩,
  /- SET_CONTROL -/ ⟨0x8000, 1, 0x05, .bits64, .wo, 0⟩,
  /- COW_WAITS -/ ⟨0x8000, 1, 0x06, .u32, .rw, 0⟩,
  /- PAGES_COPIED -/ ⟨0x8000, 1, 0x07, .u64, .ro, 0⟩,
  /- DTREE_BASE -/ ⟨0x8010, 1, 0x01, .u64, .rwi, 0⟩,
  /- DTREE_STRIDE -/ ⟨0x8010, 1, 0x02, .u32, .rwi, 0⟩,
  /- REPLICA_ACTION -/ ⟨0x8020, 1, 0x01, .enum, .rw, 0⟩,
  /- MISMATCH_LOG_BASE -/ ⟨0x8020, 1, 0x02, .u64, .rwi, 0⟩,
  /- MISMATCH_LOG_ENTRIES -/ ⟨0x8020, 1, 0x03, .u16, .rwi, 0⟩,
  /- MISMATCH_COUNT -/ ⟨0x8020, 1, 0x04, .u32, .rw, 0⟩,
  /- MISMATCH_DROPS -/ ⟨0x8020, 1, 0x05, .u32, .rw, 0⟩]

/-- Entries 0x9000.01 to 0x9181.05. -/
def chartTable9 : List ChEntry := [
  /- GROUP_ID -/ ⟨0x9000, 1, 0x01, .u32, .rwi, 0⟩,
  /- STRAP_POSITION -/ ⟨0x9000, 1, 0x02, .u8, .const, 0⟩,
  /- MASTER_OVERRIDE -/ ⟨0x9000, 1, 0x03, .u8, .rwi, 255⟩,
  /- MASTER_POSITION -/ ⟨0x9000, 1, 0x04, .u8, .ro, 0⟩,
  /- MEMBERS -/ ⟨0x9000, 1, 0x05, .u8, .rwi, 0⟩,
  /- MEMBERS_UP -/ ⟨0x9000, 1, 0x06, .u8, .ro, 0⟩,
  /- GROUP_STATE -/ ⟨0x9000, 1, 0x07, .enum, .ro, 0⟩,
  /- HB_PERIOD -/ ⟨0x9000, 1, 0x08, .u32, .rw, 100⟩,
  /- MEMBER_TIMEOUT -/ ⟨0x9000, 1, 0x09, .u32, .rw, 5000⟩,
  /- RESEND_US -/ ⟨0x9000, 1, 0x0A, .u16, .rw, 20⟩,
  /- REMOTE_CHART -/ ⟨0x9000, 1, 0x0B, .bool, .rw, 0⟩,
  /- PKG_MAP_BASE -/ ⟨0x9010, 1, 0x01, .u64, .rwi, 0⟩,
  /- PKG_MAP_COUNT -/ ⟨0x9010, 1, 0x02, .u16, .rwi, 0⟩,
  /- SELF_PACKAGE -/ ⟨0x9010, 1, 0x03, .u16, .rwi, 0⟩,
  /- ETHERTYPE -/ ⟨0x9010, 1, 0x04, .u16, .rws, 34997⟩,
  /- MSG_RESENDS -/ ⟨0x9010, 1, 0x05, .u32, .rw, 0⟩,
  /- MSG_DISCARDS -/ ⟨0x9010, 1, 0x06, .u32, .rw, 0⟩,
  /- LEND_BASE -/ ⟨0x9020, 8, 0x01, .u64, .rwi, 0⟩,
  /- LEND_BYTES -/ ⟨0x9020, 8, 0x02, .u64, .rwi, 0⟩,
  /- BORROW -/ ⟨0x9028, 8, 0x01, .u64, .rwi, 0⟩,
  /- BORROW_GRANTED -/ ⟨0x9028, 8, 0x02, .u64, .ro, 0⟩,
  /- FEED_A -/ ⟨0x9180, 1, 0x01, .u32, .rw, 0⟩,
  /- FEED_B -/ ⟨0x9180, 1, 0x02, .u32, .rw, 0⟩,
  /- COPY_PARTNER -/ ⟨0x9181, 1, 0x01, .u32, .rw, 0xffffffff⟩,
  /- PARTNER_FEED_A -/ ⟨0x9181, 1, 0x02, .u32, .ro, 0⟩,
  /- PARTNER_FEED_B -/ ⟨0x9181, 1, 0x03, .u32, .ro, 0⟩,
  /- CORRELATED_OVERRIDE -/ ⟨0x9181, 1, 0x04, .bool, .rw, 0⟩,
  /- PAIR_STATE -/ ⟨0x9181, 1, 0x05, .enum, .ro, 0⟩]

/-- Entries 0xA000.01 to 0xA401.01. -/
def chartTable10 : List ChEntry := [
  /- DOORBELLS_IGNORED -/ ⟨0xA000, 1, 0x01, .u32, .rw, 0⟩,
  /- CQ_WAITS -/ ⟨0xA000, 1, 0x02, .u32, .rw, 0⟩,
  /- FERRY_RETRIES -/ ⟨0xA000, 1, 0x03, .u32, .rw, 0⟩,
  /- REARM_OVERRUNS -/ ⟨0xA000, 1, 0x04, .u32, .rw, 0⟩,
  /- CREDITS_LOST -/ ⟨0xA000, 1, 0x05, .u32, .rw, 0⟩,
  /- FALLBACKS -/ ⟨0xA000, 1, 0x06, .u32, .rw, 0⟩,
  /- SR_OVERFLOWS -/ ⟨0xA000, 1, 0x07, .u32, .rw, 0⟩,
  /- HELD_LOST -/ ⟨0xA000, 1, 0x08, .u32, .rw, 0⟩,
  /- CLIPS -/ ⟨0xA000, 1, 0x09, .u32, .rw, 0⟩,
  /- VERSION_WAITS -/ ⟨0xA000, 1, 0x0A, .u32, .rw, 0⟩,
  /- LAYER_SND_BASE -/ ⟨0xA001, 1, 0x01, .u64, .rwi, 0⟩,
  /- STREAM_SND_BASE -/ ⟨0xA001, 1, 0x02, .u64, .rwi, 0⟩,
  /- RATIO_BASE -/ ⟨0xA200, 1, 0x01, .u64, .rwi, 0⟩,
  /- EVRING_BASE -/ ⟨0xA400, 1, 0x01, .u64, .rwi, 0⟩,
  /- EVRING_LOG2 -/ ⟨0xA400, 1, 0x02, .u8, .rwi, 0⟩,
  /- EVRING_ENABLE -/ ⟨0xA400, 1, 0x03, .bool, .rw, 0⟩,
  /- EVRING_TAIL -/ ⟨0xA400, 1, 0x04, .u32, .ro, 0⟩,
  /- EVRING_HEAD -/ ⟨0xA400, 1, 0x05, .u32, .rw, 0⟩,
  /- EVRING_VECTOR -/ ⟨0xA400, 1, 0x06, .u16, .rw, 0⟩,
  /- EVENTS_LOST -/ ⟨0xA400, 1, 0x07, .u32, .rw, 0⟩,
  /- HELD_RECORDS -/ ⟨0xA401, 1, 0x01, (.blob 8192), .ro, 0⟩]

/-- Entries 0xB000.01 to 0xB103.03. -/
def chartTable11 : List ChEntry := [
  /- STANDBY_HZ -/ ⟨0xB000, 1, 0x01, .u32, .const, 0xbebc20⟩,
  /- POWER_STATE -/ ⟨0xB000, 1, 0x02, .bits64, .ro, 0⟩,
  /- HOLD_AWAKE -/ ⟨0xB000, 1, 0x03, .bits64, .rw, 0⟩,
  /- IDLE_PILOT -/ ⟨0xB000, 1, 0x04, .u32, .rw, 1000⟩,
  /- IDLE_SHOAL -/ ⟨0xB000, 1, 0x05, .u32, .rw, 1000⟩,
  /- IDLE_CAUSEWAY -/ ⟨0xB000, 1, 0x06, .u32, .rw, 1000⟩,
  /- WAKE_COUNT -/ ⟨0xB000, 1, 0x07, .u32, .ro, 0⟩,
  /- LAST_WAKE_NS -/ ⟨0xB000, 1, 0x08, .u32, .ro, 0⟩,
  /- ASLEEP_TIME -/ ⟨0xB000, 1, 0x09, .u64, .ro, 0⟩,
  /- HELD_EVENTS -/ ⟨0xB000, 1, 0x0A, .u16, .ro, 0⟩,
  /- RESET_CONTROL -/ ⟨0xB010, 1, 0x01, .bits64, .wo, 0⟩,
  /- LAST_RESET -/ ⟨0xB010, 1, 0x02, .enum, .ro, 0⟩,
  /- FAST_RESETS -/ ⟨0xB010, 1, 0x03, .u32, .rw, 0⟩,
  /- MC_SRC -/ ⟨0xB020, 1, 0x01, .u64, .rw, 0⟩,
  /- MC_BYTES -/ ⟨0xB020, 1, 0x02, .u32, .rw, 0⟩,
  /- MC_DIGEST -/ ⟨0xB020, 1, 0x03, (.blob 32), .rw, 0⟩,
  /- MC_CONTROL -/ ⟨0xB020, 1, 0x04, .bits64, .wo, 0⟩,
  /- MC_STATE -/ ⟨0xB020, 1, 0x05, .enum, .ro, 0⟩,
  /- MC_RUNNING_DIGEST -/ ⟨0xB020, 1, 0x06, (.blob 32), .ro, 0⟩,
  /- NOMINAL_MV -/ ⟨0xB100, 1, 0x01, .u16, .const, 750⟩,
  /- WARN_MV -/ ⟨0xB100, 1, 0x02, .u16, .rws, 705⟩,
  /- RESET_MV -/ ⟨0xB100, 1, 0x03, .u16, .const, 660⟩,
  /- WARN_ACTION -/ ⟨0xB100, 5, 0x04, .enum, .rw, 0⟩,
  /- V_NOW -/ ⟨0xB100, 5, 0x05, .u16, .ro, 0⟩,
  /- V_MIN -/ ⟨0xB100, 5, 0x06, .u16, .rw, 0⟩,
  /- WARN_COUNT -/ ⟨0xB100, 5, 0x07, .u32, .rw, 0⟩,
  /- WARN_ACTIVE -/ ⟨0xB100, 5, 0x08, .bool, .ro, 0⟩,
  /- NOMINAL_MV -/ ⟨0xB101, 1, 0x01, .u16, .const, 1800⟩,
  /- WARN_MV -/ ⟨0xB101, 1, 0x02, .u16, .rws, 1710⟩,
  /- RESET_MV -/ ⟨0xB101, 1, 0x03, .u16, .const, 1620⟩,
  /- NOMINAL_MV -/ ⟨0xB102, 1, 0x01, .u16, .const, 750⟩,
  /- WARN_MV -/ ⟨0xB102, 1, 0x02, .u16, .rws, 705⟩,
  /- RESET_MV -/ ⟨0xB102, 1, 0x03, .u16, .const, 660⟩,
  /- NOMINAL_MV -/ ⟨0xB103, 1, 0x01, .u16, .const, 800⟩,
  /- WARN_MV -/ ⟨0xB103, 1, 0x02, .u16, .rws, 750⟩,
  /- RESET_MV -/ ⟨0xB103, 1, 0x03, .u16, .const, 700⟩]

/-- Entries 0xB104.01 to 0xB104.03. -/
def chartTable12 : List ChEntry := [
  /- NOMINAL_MV -/ ⟨0xB104, 1, 0x01, .u16, .const, 500⟩,
  /- WARN_MV -/ ⟨0xB104, 1, 0x02, .u16, .rws, 470⟩,
  /- RESET_MV -/ ⟨0xB104, 1, 0x03, .u16, .const, 440⟩]

/-- Entries 0xC000.01 to 0xC010.0A. -/
def chartTable13 : List ChEntry := [
  /- CW_MIN_WIDTH -/ ⟨0xC000, 1, 0x01, .u16, .rws, 128⟩,
  /- EYE_MIN -/ ⟨0xC000, 1, 0x02, .u8, .rws, 12⟩,
  /- CW_STATE -/ ⟨0xC010, 2, 0x01, .enum, .ro, 0⟩,
  /- CW_CONTROL -/ ⟨0xC010, 2, 0x02, .bits64, .wo, 0⟩,
  /- STRAP_DOWN -/ ⟨0xC010, 2, 0x03, .u64, .ro, 0⟩,
  /- STRAP_UP -/ ⟨0xC010, 2, 0x04, .u64, .ro, 0⟩,
  /- WORD_BASE -/ ⟨0xC010, 2, 0x05, (.blob 32), .ro, 0⟩,
  /- WORD_DIE -/ ⟨0xC010, 2, 0x06, (.blob 32), .ro, 0⟩,
  /- FAILED_WIRES -/ ⟨0xC010, 2, 0x07, (.blob 4376), .ro, 0⟩,
  /- REPLAYS -/ ⟨0xC010, 2, 0x08, .u32, .rw, 0⟩,
  /- TRAIN_COUNT -/ ⟨0xC010, 2, 0x09, .u32, .ro, 0⟩,
  /- LOSS_COUNT -/ ⟨0xC010, 2, 0x0A, .u32, .rw, 0⟩]

/-- Every entry of the Chart but the subindices 0x00 of R444. -/
def chartTable : List ChEntry := chartTable0 ++ chartTable1 ++ chartTable2 ++ chartTable3 ++ chartTable4 ++ chartTable5 ++ chartTable6 ++ chartTable7 ++ chartTable8 ++ chartTable9 ++ chartTable10 ++ chartTable11 ++ chartTable12 ++ chartTable13

/-- The row that describes an address, if any. -/
def chartRow (index sub : Nat) : Option ChEntry :=
  chartTable.find? (fun e => e.base ≤ index && index < e.base + e.count && e.sub == sub)

/-- The highest subindex defined at an index that has entries from 0x01 upwards; 0 where there is none. -/
def chartTop (index : Nat) : Nat :=
  (chartTable.filter (fun e => e.base ≤ index && index < e.base + e.count)).foldl (fun m e => max m e.sub) 0

/-- The entry at an address: a row of the tables, or the CONST U8 subindex 0x00 (R444). -/
def chartEntry (index sub : Nat) : Option ChEntry :=
  match chartRow index sub with
  | some e => some e
  | none => if sub = 0 ∧ 0 < chartTop index then some ⟨index, 1, 0, .u8, .const, chartTop index⟩ else none

/-! The keys of the entries, index × 256 + subindex, of the first instance; instance `i` is 256 × i further. -/
def Ch.vendor : Nat := 0x100001
def Ch.device : Nat := 0x100002
def Ch.stepping : Nat := 0x100003
def Ch.packageKind : Nat := 0x100004
def Ch.straps : Nat := 0x100005
def Ch.packageUid : Nat := 0x100006
def Ch.ianaEnterprise : Nat := 0x100007
def Ch.limits : Nat := 0x100008
def Ch.genSupported : Nat := 0x100101
def Ch.genSelect : Nat := 0x100102
def Ch.genActive : Nat := 0x100103
def Ch.chartRevision : Nat := 0x100104
def Ch.sessionState : Nat := 0x110001
def Ch.sessionId : Nat := 0x110002
def Ch.attach : Nat := 0x110003
def Ch.heartbeat : Nat := 0x110004
def Ch.heartbeatLimit : Nat := 0x110005
def Ch.planOwner : Nat := 0x110006
def Ch.planState : Nat := 0x110007
def Ch.replacePending : Nat := 0x110008
def Ch.attachCount : Nat := 0x110009
def Ch.orphanTime : Nat := 0x11000A
def Ch.mailboxBase : Nat := 0x111001
def Ch.mailboxSlots : Nat := 0x111002
def Ch.mctpEid : Nat := 0x111003
def Ch.i3cAddress : Nat := 0x111004
def Ch.ibiEnable : Nat := 0x111005
def Ch.pathRefusals : Nat := 0x111006
def Ch.qtableBase : Nat := 0x112001
def Ch.qtableCount : Nat := 0x112002
def Ch.doorbellAddr : Nat := 0x112003
def Ch.queueControl : Nat := 0x112101
def Ch.windowBase : Nat := 0x113001
def Ch.windowOffset : Nat := 0x113002
def Ch.windowControl : Nat := 0x113003
def Ch.windowDirty : Nat := 0x113004
def Ch.ctxSelect : Nat := 0x120001
def Ch.ctxControl : Nat := 0x120002
def Ch.ctxActive : Nat := 0x120003
def Ch.ctxState : Nat := 0x120101
def Ch.xtsKey : Nat := 0x120102
def Ch.philoxKey : Nat := 0x120103
def Ch.keysSet : Nat := 0x120104
def Ch.ctxQueues : Nat := 0x120105
def Ch.ctxStreams : Nat := 0x120106
def Ch.regionControl : Nat := 0x200001
def Ch.regionsAssigned : Nat := 0x200002
def Ch.stackLimit : Nat := 0x200003
def Ch.regBase : Nat := 0x201001
def Ch.regCount : Nat := 0x201002
def Ch.regControl : Nat := 0x201003
def Ch.inboundRefused : Nat := 0x201004
def Ch.regionBase : Nat := 0x210001
def Ch.stackBytes : Nat := 0x210002
def Ch.regionState : Nat := 0x210003
def Ch.chargeLimit : Nat := 0x210004
def Ch.ledger : Nat := 0x210005
def Ch.ledgerPeak : Nat := 0x210006
def Ch.protectedBytes : Nat := 0x210007
def Ch.detectPolicy : Nat := 0x210008
def Ch.detectCount : Nat := 0x210009
def Ch.sliceState : Nat := 0x310001
def Ch.blocksCoded : Nat := 0x310002
def Ch.blocksRaw : Nat := 0x310003
def Ch.blocksZero : Nat := 0x310004
def Ch.damage : Nat := 0x310005
def Ch.blocksFixed : Nat := 0x310006
def Ch.queueDrains : Nat := 0x310007
def Ch.queuePeak : Nat := 0x310008
def Ch.queueReserved : Nat := 0x310009
def Ch.gen : Nat := 0x340001
def Ch.genState : Nat := 0x340002
def Ch.elemKind : Nat := 0x340003
def Ch.scope : Nat := 0x340004
def Ch.stream : Nat := 0x340005
def Ch.context : Nat := 0x340006
def Ch.refs : Nat := 0x340007
def Ch.table : Nat := 0x340010
def Ch.defaultGen : Nat := 0x341001
def Ch.tableWaits : Nat := 0x341005
def Ch.frGroup : Nat := 0x343001
def Ch.frPeriod : Nat := 0x343002
def Ch.autoSampleTiles : Nat := 0x343003
def Ch.groupsNonfinite : Nat := 0x343004
def Ch.groupsSaturated : Nat := 0x343005
def Ch.reefSet : Nat := 0x400001
def Ch.swBytes : Nat := 0x400002
def Ch.reefCapacity : Nat := 0x400003
def Ch.planLimit : Nat := 0x400004
def Ch.reefLedgerPeak : Nat := 0x400005
def Ch.presetDefault : Nat := 0x400006
def Ch.relink : Nat := 0x400007
def Ch.tempWarn : Nat := 0x400008
def Ch.thermalAction : Nat := 0x400009
def Ch.wearWarn : Nat := 0x40000A
def Ch.spareFloor : Nat := 0x40000B
def Ch.modState : Nat := 0x410001
def Ch.modId : Nat := 0x410002
def Ch.modControl : Nat := 0x410003
def Ch.linkWidth : Nat := 0x410004
def Ch.temperature : Nat := 0x410005
def Ch.framesWritten : Nat := 0x410006
def Ch.wearMax : Nat := 0x410007
def Ch.wearMean : Nat := 0x410008
def Ch.bandsFree : Nat := 0x410009
def Ch.defectsFactory : Nat := 0x41000A
def Ch.defectsGrown : Nat := 0x41000B
def Ch.corrected : Nat := 0x41000C
def Ch.linkReplays : Nat := 0x41000D
def Ch.alarmErrors : Nat := 0x41000E
def Ch.busyTime : Nat := 0x41000F
def Ch.oldestAge : Nat := 0x410010
def Ch.bandRecords : Nat := 0x410011
def Ch.scrubAge : Nat := 0x440001
def Ch.marginLimit : Nat := 0x440002
def Ch.scrubRate : Nat := 0x440003
def Ch.wearSpread : Nat := 0x440004
def Ch.sleepScrub : Nat := 0x440005
def Ch.scrubsDone : Nat := 0x440006
def Ch.chtableBase : Nat := 0x500001
def Ch.chtableCount : Nat := 0x500002
def Ch.retryLimit : Nat := 0x500003
def Ch.channelControl : Nat := 0x500100
def Ch.armChannel : Nat := 0x500201
def Ch.armDesc : Nat := 0x500202
def Ch.timerPeriod : Nat := 0x501001
def Ch.stageRegion : Nat := 0x502001
def Ch.stageBase : Nat := 0x502002
def Ch.stageSlots : Nat := 0x502003
def Ch.qringBase : Nat := 0x504001
def Ch.qringCount : Nat := 0x504002
def Ch.ringControl : Nat := 0x504200
def Ch.laneState : Nat := 0x510001
def Ch.laneChannel : Nat := 0x510002
def Ch.laneDescriptors : Nat := 0x510003
def Ch.laneRetries : Nat := 0x510004
def Ch.buoysFree : Nat := 0x600001
def Ch.cacheMisses : Nat := 0x600002
def Ch.buoyErrors : Nat := 0x600003
def Ch.ownerLostReleases : Nat := 0x600004
def Ch.parkedEntries : Nat := 0x600005
def Ch.buoyBind : Nat := 0x600100
def Ch.buoyControl : Nat := 0x600200
def Ch.queryKey : Nat := 0x600301
def Ch.qState : Nat := 0x600302
def Ch.qPhysical : Nat := 0x600303
def Ch.qKind : Nat := 0x600304
def Ch.qOwner : Nat := 0x600305
def Ch.qCount : Nat := 0x600306
def Ch.qRound : Nat := 0x600307
def Ch.qParked : Nat := 0x600308
def Ch.qWaiters : Nat := 0x600309
def Ch.qLimit : Nat := 0x60030A
def Ch.engineState : Nat := 0x710001
def Ch.numericMode : Nat := 0x710002
def Ch.invocations : Nat := 0x710003
def Ch.nanResults : Nat := 0x710004
def Ch.clipped : Nat := 0x710005
def Ch.storeLoads : Nat := 0x710006
def Ch.progBase : Nat := 0x740001
def Ch.progCount : Nat := 0x740002
def Ch.progControl : Nat := 0x740003
def Ch.ostateBase : Nat := 0x741001
def Ch.ostateCount : Nat := 0x741002
def Ch.delayWaits : Nat := 0x741003
def Ch.diffBreaks : Nat := 0x741004
def Ch.setsBase : Nat := 0x800001
def Ch.setsCount : Nat := 0x800002
def Ch.snapLane : Nat := 0x800003
def Ch.setAdopt : Nat := 0x800004
def Ch.setControl : Nat := 0x800005
def Ch.cowWaits : Nat := 0x800006
def Ch.pagesCopied : Nat := 0x800007
def Ch.dtreeBase : Nat := 0x801001
def Ch.dtreeStride : Nat := 0x801002
def Ch.replicaAction : Nat := 0x802001
def Ch.mismatchLogBase : Nat := 0x802002
def Ch.mismatchLogEntries : Nat := 0x802003
def Ch.mismatchCount : Nat := 0x802004
def Ch.mismatchDrops : Nat := 0x802005
def Ch.groupId : Nat := 0x900001
def Ch.strapPosition : Nat := 0x900002
def Ch.masterOverride : Nat := 0x900003
def Ch.masterPosition : Nat := 0x900004
def Ch.members : Nat := 0x900005
def Ch.membersUp : Nat := 0x900006
def Ch.groupState : Nat := 0x900007
def Ch.hbPeriod : Nat := 0x900008
def Ch.memberTimeout : Nat := 0x900009
def Ch.resendUs : Nat := 0x90000A
def Ch.remoteChart : Nat := 0x90000B
def Ch.pkgMapBase : Nat := 0x901001
def Ch.pkgMapCount : Nat := 0x901002
def Ch.selfPackage : Nat := 0x901003
def Ch.ethertype : Nat := 0x901004
def Ch.msgResends : Nat := 0x901005
def Ch.msgDiscards : Nat := 0x901006
def Ch.lendBase : Nat := 0x902001
def Ch.lendBytes : Nat := 0x902002
def Ch.borrow : Nat := 0x902801
def Ch.borrowGranted : Nat := 0x902802
def Ch.feedA : Nat := 0x918001
def Ch.feedB : Nat := 0x918002
def Ch.copyPartner : Nat := 0x918101
def Ch.partnerFeedA : Nat := 0x918102
def Ch.partnerFeedB : Nat := 0x918103
def Ch.correlatedOverride : Nat := 0x918104
def Ch.pairState : Nat := 0x918105
def Ch.doorbellsIgnored : Nat := 0xA00001
def Ch.cqWaits : Nat := 0xA00002
def Ch.ferryRetries : Nat := 0xA00003
def Ch.rearmOverruns : Nat := 0xA00004
def Ch.creditsLost : Nat := 0xA00005
def Ch.fallbacks : Nat := 0xA00006
def Ch.srOverflows : Nat := 0xA00007
def Ch.heldLost : Nat := 0xA00008
def Ch.clips : Nat := 0xA00009
def Ch.versionWaits : Nat := 0xA0000A
def Ch.layerSndBase : Nat := 0xA00101
def Ch.streamSndBase : Nat := 0xA00102
def Ch.ratioBase : Nat := 0xA20001
def Ch.evringBase : Nat := 0xA40001
def Ch.evringLog2 : Nat := 0xA40002
def Ch.evringEnable : Nat := 0xA40003
def Ch.evringTail : Nat := 0xA40004
def Ch.evringHead : Nat := 0xA40005
def Ch.evringVector : Nat := 0xA40006
def Ch.eventsLost : Nat := 0xA40007
def Ch.heldRecords : Nat := 0xA40101
def Ch.standbyHz : Nat := 0xB00001
def Ch.powerState : Nat := 0xB00002
def Ch.holdAwake : Nat := 0xB00003
def Ch.idlePilot : Nat := 0xB00004
def Ch.idleShoal : Nat := 0xB00005
def Ch.idleCauseway : Nat := 0xB00006
def Ch.wakeCount : Nat := 0xB00007
def Ch.lastWakeNs : Nat := 0xB00008
def Ch.asleepTime : Nat := 0xB00009
def Ch.heldEvents : Nat := 0xB0000A
def Ch.resetControl : Nat := 0xB01001
def Ch.lastReset : Nat := 0xB01002
def Ch.fastResets : Nat := 0xB01003
def Ch.mcSrc : Nat := 0xB02001
def Ch.mcBytes : Nat := 0xB02002
def Ch.mcDigest : Nat := 0xB02003
def Ch.mcControl : Nat := 0xB02004
def Ch.mcState : Nat := 0xB02005
def Ch.mcRunningDigest : Nat := 0xB02006
def Ch.nominalMv : Nat := 0xB10001
def Ch.warnMv : Nat := 0xB10002
def Ch.resetMv : Nat := 0xB10003
def Ch.warnAction : Nat := 0xB10004
def Ch.vNow : Nat := 0xB10005
def Ch.vMin : Nat := 0xB10006
def Ch.warnCount : Nat := 0xB10007
def Ch.warnActive : Nat := 0xB10008
def Ch.cwMinWidth : Nat := 0xC00001
def Ch.eyeMin : Nat := 0xC00002
def Ch.cwState : Nat := 0xC01001
def Ch.cwControl : Nat := 0xC01002
def Ch.strapDown : Nat := 0xC01003
def Ch.strapUp : Nat := 0xC01004
def Ch.wordBase : Nat := 0xC01005
def Ch.wordDie : Nat := 0xC01006
def Ch.failedWires : Nat := 0xC01007
def Ch.replays : Nat := 0xC01008
def Ch.trainCount : Nat := 0xC01009
def Ch.lossCount : Nat := 0xC0100A

end Sys2Proof.Machine
end

