-- ==== Sys2Proof/Machine/Crypto.lean ====
section
/-! DEFINITION. The codes the spec takes from published standards: CRC-32C (R194), SHA-256 (R357), AES-256-XTS (R210). Bytes are Nat below 256 inside this file. -/

namespace Sys2Proof.Machine

/-! ### CRC-32C -/

/-- One bit step of the reflected Castagnoli register: 0x82F6_3B78 is 0x1EDC_6F41 reflected (R194). -/
def crcBit (r : Nat) : Nat := if r % 2 = 1 then (r >>> 1) ^^^ 0x82F63B78 else r >>> 1

def crcByte (r : Nat) (b : Byte) : Nat :=
  crcBit (crcBit (crcBit (crcBit (crcBit (crcBit (crcBit (crcBit (r ^^^ b.toNat))))))))

/-- CRC-32C of bytes in address order (R194). -/
def crc32c (bs : List Byte) : Nat := bs.foldl crcByte 0xFFFFFFFF ^^^ 0xFFFFFFFF

/-! ### SHA-256 -/

def shaK (i : Nat) : Nat := (0xc67178f2bef9a3f7a4506ceb90befffa8cc7020884c8781478a5636f748f82ee682e6ff35b9cca4f4ed8aa4a391c0cb334b0bcb52748774c1e376c0819a4c116106aa070f40e3585d6990624d192e819c76c51a3c24b8b70a81a664ba2bfe8a192722c8581c2c92e766a0abb650a735453380d134d2c6dfc2e1b213827b70a851429296706ca6351d5a79147c6e00bf3bf597fc7b00327c8a831c66d983e515276f988da5cb0a9dc4a7484aa2de92c6f240ca1cc0fc19dc6efbe4786e49b69c1c19bf1749bdc06a780deb1fe72be5d74550c7dc3243185be12835b01d807aa98ab1c5ed5923f82a459f111f13956c25be9b5dba5b5c0fbcf71374491428a2f98 >>> (32 * i)) % 2 ^ 32

def shaInit : List Nat := [0x6a09e667, 0xbb67ae85, 0x3c6ef372, 0xa54ff53a, 0x510e527f, 0x9b05688c, 0x1f83d9ab, 0x5be0cd19]

def rotr32 (n x : Nat) : Nat := (x >>> n) ||| ((x <<< (32 - n)) % 2 ^ 32)

/-- The sixteen big-endian words of a 64-byte block. -/
def shaWords (block : List Byte) : List Nat :=
  (chunksOf 4 16 block).map (fun c => c.foldl (fun a b => a * 256 + b.toNat) 0)

/-- The message schedule, newest word first. -/
def shaSchedule : Nat → List Nat → List Nat
  | 0, w => w
  | n + 1, w =>
    let a := nth w 1 0
    let b := nth w 14 0
    let s1 := rotr32 17 a ^^^ rotr32 19 a ^^^ (a >>> 10)
    let s0 := rotr32 7 b ^^^ rotr32 18 b ^^^ (b >>> 3)
    shaSchedule n (((nth w 15 0 + s0 + nth w 6 0 + s1) % 2 ^ 32) :: w)

/-- One round on the eight working words. -/
def shaRound (v : List Nat) (k w : Nat) : List Nat :=
  match v with
  | [a, b, c, d, e, f, g, h] =>
    let s1 := rotr32 6 e ^^^ rotr32 11 e ^^^ rotr32 25 e
    let ch := (e &&& f) ^^^ ((0xFFFFFFFF ^^^ e) &&& g)
    let t1 := h + s1 + ch + k + w
    let s0 := rotr32 2 a ^^^ rotr32 13 a ^^^ rotr32 22 a
    let mj := (a &&& b) ^^^ (a &&& c) ^^^ (b &&& c)
    [(t1 + s0 + mj) % 2 ^ 32, a, b, c, (d + t1) % 2 ^ 32, e, f, g]
  | _ => v

def shaRounds : Nat → List Nat → List Nat → List Nat
  | _, [], v => v
  | i, w :: ws, v => shaRounds (i + 1) ws (shaRound v (shaK i) w)

def shaBlock (h : List Nat) (block : List Byte) : List Nat :=
  let w := (shaSchedule 48 (shaWords block).reverse).reverse
  List.zipWith (fun a b => (a + b) % 2 ^ 32) h (shaRounds 0 w h)

/-- The padding of a message of `n` bytes: 0x80, zeros, the bit length as 8 bytes, most significant first. -/
def shaPad (n : Nat) : List Byte :=
  (0x80 : Byte) :: List.replicate ((119 - n % 64) % 64) (0 : Byte) ++ (leBytes 8 (8 * n)).reverse

/-- SHA-256 of a byte string, 32 bytes. -/
def sha256 (bs : List Byte) : List Byte :=
  let m := bs ++ shaPad bs.length
  let h := (chunksOf 64 (m.length / 64) m).foldl shaBlock shaInit
  h.flatMap (fun w => (leBytes 4 w).reverse)

/-! ### AES-256 -/

def sBox (x : Nat) : Nat := (0x16bb54b00f2d99416842e6bf0d89a18cdf2855cee9871e9b948ed9691198f8e19e1dc186b95735610ef6034866b53e708a8bbd4b1f74dde8c6b4a61c2e2578ba08ae7a65eaf4566ca94ed58d6d37c8e779e4959162acd3c25c2406490a3a32e0db0b5ede14b8ee4688902a22dc4f816073195d643d7ea7c41744975fec130ccdd2f3ff1021dab6bcf5389d928f40a351a89f3c507f02f94585334d43fbaaefd0cf584c4a39becb6a5bb1fc20ed00d153842fe329b3d63b52a05a6e1b1a2c830975b227ebe28012079a059618c323c7041531d871f1e5a534ccf73f362693fdb7c072a49cafa2d4adf04759fa7dc982ca76abd7fe2b670130c56f6bf27b777c63 >>> (8 * x)) % 256

def sBoxInv (x : Nat) : Nat := (0x7d0c2155631469e126d677ba7e042b17619953833cbbebc8b0f52aae4d3be0a0ef9cc9939f7ae52d0d4ab519a97f51605fec8027591012b131c7078833a8dd1ff45acd78fec0db9a2079d2c64b3e56fc1bbe18aa0e62b76f89c5291d711af1476edf751ce837f9e28535ade72274ac9673e6b4f0cecff297eadc674f4111913a6b8a130103bdafc1020f3fca8f1e2cd00645b3b80558e4f70ad3bc8c00abd890849d8da75746155edab9edfd5048706c92b6655dcc5ca4d41698688664f6f87225d18b6d49a25b76b224d92866a12e084ec3fa420b954cee3d23c2a632947b54cbe9dec444438e3487ff2f9b8239e37cfbd7f3819ea340bf38a53630d56a0952 >>> (8 * x)) % 256

/-- Multiplication by x in GF(2^8). -/
def gfDouble (x : Nat) : Nat := if x < 128 then 2 * x else (2 * x) % 256 ^^^ 0x1B

/-- Multiplication by a constant below 16 in GF(2^8). -/
def gfMul (k x : Nat) : Nat :=
  let x2 := gfDouble x
  let x4 := gfDouble x2
  let x8 := gfDouble x4
  (if bit k 0 then x else 0) ^^^ (if bit k 1 then x2 else 0) ^^^ (if bit k 2 then x4 else 0) ^^^ (if bit k 3 then x8 else 0)

def xorList (a b : List Nat) : List Nat := List.zipWith (· ^^^ ·) a b

/-- The key schedule: words of four bytes, newest first; `i` is the index of the next word, `rc` the round constant. -/
def aesExpand : Nat → Nat → Nat → List (List Nat) → List (List Nat)
  | 0, _, _, w => w
  | n + 1, i, rc, w =>
    let prev := nth w 0 []
    let old := nth w 7 []
    if i % 8 = 0 then
      let t := ((prev.drop 1) ++ prev.take 1).map sBox
      let t := xorList t [rc, 0, 0, 0]
      aesExpand n (i + 1) (gfDouble rc) (xorList old t :: w)
    else if i % 8 = 4 then aesExpand n (i + 1) rc (xorList old (prev.map sBox) :: w)
    else aesExpand n (i + 1) rc (xorList old prev :: w)

/-- The fifteen round keys of a 32-byte key. -/
def aesKeys (key : List Nat) : List (List Nat) :=
  let ws := (aesExpand 52 8 1 (chunksOf 4 8 key).reverse).reverse
  (chunksOf 4 15 ws).map List.flatten

/-- Row r of the state moves r places (the state is column-major). -/
def shiftRows (s : List Nat) : List Nat := [0, 5, 10, 15, 4, 9, 14, 3, 8, 13, 2, 7, 12, 1, 6, 11].map (fun i => nth s i 0)

def shiftRowsInv (s : List Nat) : List Nat := [0, 13, 10, 7, 4, 1, 14, 11, 8, 5, 2, 15, 12, 9, 6, 3].map (fun i => nth s i 0)

/-- One column times the circulant matrix with first row `m`. -/
def mixColumn (m c : List Nat) : List Nat :=
  [0, 1, 2, 3].map (fun r => [0, 1, 2, 3].foldl (fun a j => a ^^^ gfMul (nth m ((j + 4 - r) % 4) 0) (nth c j 0)) 0)

def mixColumns (m s : List Nat) : List Nat := (chunksOf 4 4 s).flatMap (mixColumn m)

/-- AES-256 of one 16-byte block under its round keys. -/
def aesEncrypt (ks : List (List Nat)) (b : List Nat) : List Nat :=
  let s := xorList b (nth ks 0 [])
  let s := ((ks.drop 1).take 13).foldl (fun s k => xorList (mixColumns [2, 3, 1, 1] (shiftRows (s.map sBox))) k) s
  xorList (shiftRows (s.map sBox)) (nth ks 14 [])

/-- The inverse of `aesEncrypt`. -/
def aesDecrypt (ks : List (List Nat)) (b : List Nat) : List Nat :=
  let s := (shiftRowsInv (xorList b (nth ks 14 []))).map sBoxInv
  let s := ((ks.drop 1).take 13).reverse.foldl (fun s k => (shiftRowsInv (mixColumns [14, 11, 13, 9] (xorList s k))).map sBoxInv) s
  xorList s (nth ks 0 [])

/-! ### XTS (IEEE 1619) -/

def natsOf (bs : List Byte) : List Nat := bs.map BitVec.toNat
def bytesOf (ns : List Nat) : List Byte := ns.map (BitVec.ofNat 8)

/-- The tweak value for the next block: multiplication by α in GF(2^128). -/
def xtsNext (t : List Nat) : List Nat :=
  let v := leNat (bytesOf t)
  natsOf (leBytes 16 (if v < 2 ^ 127 then 2 * v else (2 * v) % 2 ^ 128 ^^^ 0x87))

/-- One block with the cipher `f` under tweak value `t`. -/
def xtsBlock (f : List Nat → List Nat) (t b : List Nat) : List Nat := xorList (f (xorList b t)) t

/-- The whole blocks of a unit, then ciphertext stealing for a rest (decryption swaps the two last tweak values). -/
def xtsRun (dec : Bool) (f : List Nat → List Nat) : Nat → List Nat → List Nat → List Nat
  | 0, _, _ => []
  | fuel + 1, t, bs =>
    if bs.length < 32 ∧ 16 < bs.length then
      let t' := xtsNext t
      let r := bs.length - 16
      let c := xtsBlock f (if dec then t' else t) (bs.take 16)
      let last := bs.drop 16 ++ c.drop r
      xtsBlock f (if dec then t else t') last ++ c.take r
    else if bs.length < 16 then []
    else xtsBlock f t (bs.take 16) ++ xtsRun dec f fuel (xtsNext t) (bs.drop 16)

/-- AES-256-XTS encryption of one data unit of at least 16 bytes: the 64-byte key, key 1 first (16_chart.md R465), and the 128-bit tweak (R210). -/
def xtsEncrypt (key tweak : Nat) (data : List Byte) : List Byte :=
  let kb := natsOf (leBytes 64 key)
  let t := aesEncrypt (aesKeys (kb.drop 32)) (natsOf (leBytes 16 tweak))
  bytesOf (xtsRun false (aesEncrypt (aesKeys (kb.take 32))) (data.length / 16 + 1) t (natsOf data))

/-- The inverse of `xtsEncrypt`. -/
def xtsDecrypt (key tweak : Nat) (data : List Byte) : List Byte :=
  let kb := natsOf (leBytes 64 key)
  let t := aesEncrypt (aesKeys (kb.drop 32)) (natsOf (leBytes 16 tweak))
  bytesOf (xtsRun true (aesDecrypt (aesKeys (kb.take 32))) (data.length / 16 + 1) t (natsOf data))

end Sys2Proof.Machine
end

