-- ==== Sys2Proof/Machine/Records.lean ====
section
/-! DEFINITION. The field maps of the spec's structures, each field as the bit range the spec gives it; `rsvd` lists a map's RSVD fields and `cFields` the fields Charov maintains, both from the lowest bit up. -/

namespace Sys2Proof.Machine

/-! Stream record (R42). -/
def StreamRec.philoxCtr : Fld := ⟨511, 448⟩
def StreamRec.dataBase : Fld := ⟨447, 384⟩
def StreamRec.indexBase : Fld := ⟨383, 320⟩
def StreamRec.storedGranules : Fld := ⟨319, 280⟩
def StreamRec.byteLength : Fld := ⟨255, 216⟩
def StreamRec.consumers : Fld := ⟨215, 200⟩
def StreamRec.sourceA : Fld := ⟨191, 160⟩
def StreamRec.sourceB : Fld := ⟨159, 128⟩
def StreamRec.program : Fld := ⟨127, 112⟩
def StreamRec.remaining : Fld := ⟨111, 96⟩
def StreamRec.context : Fld := ⟨95, 84⟩
def StreamRec.region : Fld := ⟨79, 72⟩
def StreamRec.state : Fld := ⟨63, 60⟩
def StreamRec.classF : Fld := ⟨59, 56⟩
def StreamRec.place : Fld := ⟨55, 54⟩
def StreamRec.fallback : Fld := ⟨53, 52⟩
def StreamRec.elemType : Fld := ⟨51, 48⟩
def StreamRec.form : Fld := ⟨47, 40⟩
def StreamRec.need : Fld := ⟨39, 36⟩
def StreamRec.rank : Fld := ⟨35, 28⟩
def StreamRec.lossyRate : Fld := ⟨27, 26⟩
def StreamRec.lossyCb : Fld := ⟨25, 25⟩
def StreamRec.lossyEnv : Fld := ⟨24, 24⟩
def StreamRec.die : Fld := ⟨23, 23⟩
def StreamRec.residence : Fld := ⟨22, 20⟩
def StreamRec.formParam : Fld := ⟨15, 0⟩
def StreamRec.rsvd : List Fld := [⟨19, 16⟩, ⟨71, 64⟩, ⟨83, 80⟩, ⟨199, 192⟩, ⟨279, 256⟩]
def StreamRec.cFields : List Fld := [⟨22, 20⟩, ⟨63, 60⟩, ⟨111, 96⟩, ⟨319, 280⟩, ⟨383, 320⟩, ⟨447, 384⟩]

/-! Plan header (R68). -/
def PlanHdr.stepCount : Fld := ⟨1279, 1248⟩
def PlanHdr.faultBit : Fld := ⟨1231, 1216⟩
def PlanHdr.faultRecord : Fld := ⟨1215, 1184⟩
def PlanHdr.faultSection : Fld := ⟨1175, 1168⟩
def PlanHdr.loadStatus : Fld := ⟨1167, 1152⟩
def PlanHdr.groupDigest : Fld := ⟨1151, 896⟩
def PlanHdr.imageDigest : Fld := ⟨895, 640⟩
def PlanHdr.imageBytes : Fld := ⟨639, 608⟩
def PlanHdr.shardOffset : Fld := ⟨607, 576⟩
def PlanHdr.slipOffset : Fld := ⟨575, 544⟩
def PlanHdr.edgeOffset : Fld := ⟨543, 512⟩
def PlanHdr.taskOffset : Fld := ⟨511, 480⟩
def PlanHdr.streamOffset : Fld := ⟨479, 448⟩
def PlanHdr.endBuoy : Fld := ⟨447, 416⟩
def PlanHdr.startBuoy : Fld := ⟨415, 384⟩
def PlanHdr.quayAllow1 : Fld := ⟨383, 352⟩
def PlanHdr.quayAllow0 : Fld := ⟨351, 320⟩
def PlanHdr.tableRegion : Fld := ⟨311, 304⟩
def PlanHdr.abortScope : Fld := ⟨301, 300⟩
def PlanHdr.planContext : Fld := ⟨299, 288⟩
def PlanHdr.shardCount : Fld := ⟨287, 256⟩
def PlanHdr.slipCount : Fld := ⟨255, 224⟩
def PlanHdr.edgeCount : Fld := ⟨223, 192⟩
def PlanHdr.taskCount : Fld := ⟨191, 160⟩
def PlanHdr.streamCount : Fld := ⟨159, 128⟩
def PlanHdr.groupPackages : Fld := ⟨127, 112⟩
def PlanHdr.packageIndex : Fld := ⟨107, 96⟩
def PlanHdr.planEpoch : Fld := ⟨95, 64⟩
def PlanHdr.headerBytes : Fld := ⟨63, 48⟩
def PlanHdr.lateUs : Fld := ⟨47, 40⟩
def PlanHdr.formatGen : Fld := ⟨39, 32⟩
def PlanHdr.planMagic : Fld := ⟨31, 0⟩
def PlanHdr.rsvd : List Fld := [⟨111, 108⟩, ⟨303, 302⟩, ⟨319, 312⟩, ⟨1183, 1176⟩, ⟨1247, 1232⟩]
def PlanHdr.cFields : List Fld := [⟨1167, 1152⟩, ⟨1175, 1168⟩, ⟨1215, 1184⟩, ⟨1231, 1216⟩, ⟨1279, 1248⟩]

/-! Task record (R71). -/
def TaskRec.producer : Fld := ⟨487, 456⟩
def TaskRec.taskState : Fld := ⟨455, 448⟩
def TaskRec.tileCount : Fld := ⟨447, 416⟩
def TaskRec.tileFirst : Fld := ⟨415, 384⟩
def TaskRec.context : Fld := ⟨367, 356⟩
def TaskRec.versionLag : Fld := ⟨353, 352⟩
def TaskRec.shard : Fld := ⟨351, 320⟩
def TaskRec.taskGroup : Fld := ⟨319, 288⟩
def TaskRec.slipSet : Fld := ⟨287, 256⟩
def TaskRec.signalFirst : Fld := ⟨255, 224⟩
def TaskRec.signalCount : Fld := ⟨207, 200⟩
def TaskRec.waitCount : Fld := ⟨199, 192⟩
def TaskRec.waitFirst : Fld := ⟨191, 160⟩
def TaskRec.channel : Fld := ⟨159, 144⟩
def TaskRec.program : Fld := ⟨143, 128⟩
def TaskRec.streamB : Fld := ⟨127, 96⟩
def TaskRec.stream : Fld := ⟨95, 64⟩
def TaskRec.layer : Fld := ⟨63, 48⟩
def TaskRec.lookahead : Fld := ⟨47, 40⟩
def TaskRec.microbatch : Fld := ⟨39, 32⟩
def TaskRec.toDrain : Fld := ⟨29, 29⟩
def TaskRec.transpose : Fld := ⟨28, 28⟩
def TaskRec.phase : Fld := ⟨27, 26⟩
def TaskRec.urgency : Fld := ⟨25, 24⟩
def TaskRec.execIndex : Fld := ⟨23, 12⟩
def TaskRec.execKind : Fld := ⟨11, 8⟩
def TaskRec.taskKind : Fld := ⟨7, 0⟩
def TaskRec.rsvd : List Fld := [⟨31, 30⟩, ⟨223, 208⟩, ⟨355, 354⟩, ⟨383, 368⟩, ⟨511, 488⟩]
def TaskRec.cFields : List Fld := [⟨455, 448⟩]

/-! Edge record (R78). -/
def EdgeRec.remote : Fld := ⟨64, 64⟩
def EdgeRec.package : Fld := ⟨63, 52⟩
def EdgeRec.edgeKind : Fld := ⟨51, 48⟩
def EdgeRec.count : Fld := ⟨47, 32⟩
def EdgeRec.buoy : Fld := ⟨31, 0⟩
def EdgeRec.rsvd : List Fld := [⟨127, 65⟩]

/-! Slip-set record (R86). -/
def SlipRec.altCount : Fld := ⟨199, 192⟩
def SlipRec.alt5 : Fld := ⟨191, 160⟩
def SlipRec.alt4 : Fld := ⟨159, 128⟩
def SlipRec.alt3 : Fld := ⟨127, 96⟩
def SlipRec.alt2 : Fld := ⟨95, 64⟩
def SlipRec.alt1 : Fld := ⟨63, 32⟩
def SlipRec.alt0 : Fld := ⟨31, 0⟩
def SlipRec.rsvd : List Fld := [⟨255, 200⟩]

/-! Weight shard record (R93). -/
def ShardRec.currentVersion : Fld := ⟨207, 192⟩
def ShardRec.base : Fld := ⟨191, 128⟩
def ShardRec.slotBytes : Fld := ⟨127, 64⟩
def ShardRec.ownerPackage : Fld := ⟨59, 48⟩
def ShardRec.slots : Fld := ⟨43, 40⟩
def ShardRec.region : Fld := ⟨39, 32⟩
def ShardRec.shardId : Fld := ⟨31, 0⟩
def ShardRec.rsvd : List Fld := [⟨47, 44⟩, ⟨63, 60⟩, ⟨255, 208⟩]
def ShardRec.cFields : List Fld := [⟨207, 192⟩]

/-! Queue descriptor (R112). -/
def QueueDesc.sqBase : Fld := ⟨511, 448⟩
def QueueDesc.cqBase : Fld := ⟨447, 384⟩
def QueueDesc.sqHead : Fld := ⟨383, 368⟩
def QueueDesc.sqTail : Fld := ⟨367, 352⟩
def QueueDesc.cqTail : Fld := ⟨351, 336⟩
def QueueDesc.cqHead : Fld := ⟨335, 320⟩
def QueueDesc.intVector : Fld := ⟨319, 304⟩
def QueueDesc.state : Fld := ⟨287, 284⟩
def QueueDesc.errorCause : Fld := ⟨283, 280⟩
def QueueDesc.context : Fld := ⟨279, 268⟩
def QueueDesc.urgencyCap : Fld := ⟨267, 266⟩
def QueueDesc.origin : Fld := ⟨265, 264⟩
def QueueDesc.intEnable : Fld := ⟨263, 263⟩
def QueueDesc.entriesLog2 : Fld := ⟨260, 256⟩
def QueueDesc.rsvd : List Fld := [⟨255, 0⟩, ⟨262, 261⟩, ⟨303, 288⟩]

/-! Doorbell word (R117). -/
def DoorbellWord.kind : Fld := ⟨63, 63⟩
def DoorbellWord.queue : Fld := ⟨51, 32⟩
def DoorbellWord.index : Fld := ⟨15, 0⟩
def DoorbellWord.rsvd : List Fld := [⟨31, 16⟩, ⟨62, 52⟩]

/-! Command header and completion word (R130). -/
def Cmd.compCount : Fld := ⟨495, 480⟩
def Cmd.compBuoy : Fld := ⟨479, 448⟩
def Cmd.sequence : Fld := ⟨63, 48⟩
def Cmd.context : Fld := ⟨47, 36⟩
def Cmd.opFlags : Fld := ⟨31, 24⟩
def Cmd.interrupt : Fld := ⟨20, 20⟩
def Cmd.signal : Fld := ⟨19, 19⟩
def Cmd.noRecord : Fld := ⟨18, 18⟩
def Cmd.urgency : Fld := ⟨17, 16⟩
def Cmd.version : Fld := ⟨15, 8⟩
def Cmd.opcode : Fld := ⟨7, 0⟩

/-! STOW (0x01): store tiles of a stream from memory (R134). -/
def CmdStow.stream : Fld := ⟨447, 416⟩
def CmdStow.tileFirst : Fld := ⟨415, 384⟩
def CmdStow.tileCount : Fld := ⟨383, 352⟩
def CmdStow.channel : Fld := ⟨351, 336⟩
def CmdStow.source : Fld := ⟨127, 64⟩

/-! FETCH (0x02) and RECOMPUTE (0x03): deliver tiles of a stream (R134). -/
def CmdFetch.stream : Fld := ⟨447, 416⟩
def CmdFetch.tileFirst : Fld := ⟨415, 384⟩
def CmdFetch.tileCount : Fld := ⟨383, 352⟩
def CmdFetch.channel : Fld := ⟨351, 336⟩
def CmdFetch.lookahead : Fld := ⟨335, 328⟩
def CmdFetch.engine : Fld := ⟨327, 320⟩
def CmdFetch.dest : Fld := ⟨127, 64⟩
def CmdFetch.destKind : Fld := ⟨25, 24⟩
def CmdFetch.transpose : Fld := ⟨26, 26⟩
def CmdFetch.toDrain : Fld := ⟨27, 27⟩

/-! DISCARD (0x04) (R134). -/
def CmdDiscard.stream : Fld := ⟨447, 416⟩
def CmdDiscard.count : Fld := ⟨415, 384⟩

/-! SIGNAL (0x05) and WAIT (0x06) (R134). -/
def CmdBuoy.buoy : Fld := ⟨447, 416⟩
def CmdBuoy.count : Fld := ⟨415, 400⟩
def CmdBuoy.package : Fld := ⟨399, 388⟩
def CmdBuoy.round : Fld := ⟨383, 352⟩
def CmdBuoy.remote : Fld := ⟨24, 24⟩
def CmdBuoy.barrier : Fld := ⟨25, 25⟩

/-! FENCE (0x07) (R134). -/
def CmdFence.scope : Fld := ⟨24, 24⟩

/-! INLINE_WRITE (0x08) (R134). -/
def CmdInline.data : Fld := ⟨447, 128⟩
def CmdInline.address : Fld := ⟨127, 64⟩
def CmdInline.length : Fld := ⟨29, 24⟩

/-! TABLE_LOAD (0x09) and TABLE_BUILD (0x0A) (R134). -/
def CmdTable.stream : Fld := ⟨447, 416⟩
def CmdTable.bytes : Fld := ⟨415, 384⟩
def CmdTable.samples : Fld := ⟨191, 128⟩
def CmdTable.source : Fld := ⟨127, 64⟩
def CmdTable.kind : Fld := ⟨24, 24⟩

/-! PLAN_LOAD (0x0B) (R134). -/
def CmdPlan.image : Fld := ⟨127, 64⟩
def CmdPlan.action : Fld := ⟨26, 24⟩

/-! SNAPSHOT (0x0C) and RESTORE (0x0E) (R134). -/
def CmdSet.set : Fld := ⟨447, 416⟩
def CmdSet.descriptor : Fld := ⟨127, 64⟩
def CmdSet.setKind : Fld := ⟨24, 24⟩

/-! DIGEST (0x0D) (R134). -/
def CmdDigest.result : Fld := ⟨447, 384⟩
def CmdDigest.bytes : Fld := ⟨383, 320⟩
def CmdDigest.base : Fld := ⟨127, 64⟩

/-! UPDATE (0x10) (R134). -/
def CmdUpdate.shard : Fld := ⟨447, 416⟩
def CmdUpdate.program : Fld := ⟨415, 400⟩
def CmdUpdate.engine : Fld := ⟨399, 392⟩
def CmdUpdate.args : Fld := ⟨383, 320⟩
def CmdUpdate.grad : Fld := ⟨127, 64⟩

/-! EXPORT (0x11) and IMPORT (0x12) (R134). -/
def CmdExport.object : Fld := ⟨447, 416⟩
def CmdExport.channel : Fld := ⟨415, 400⟩
def CmdExport.package : Fld := ⟨399, 388⟩
def CmdExport.bytes : Fld := ⟨383, 320⟩
def CmdExport.address : Fld := ⟨127, 64⟩
def CmdExport.objectKind : Fld := ⟨25, 24⟩
def CmdExport.remote : Fld := ⟨26, 26⟩

/-! MOVE (0x13) (R134). -/
def CmdMove.bytes : Fld := ⟨447, 384⟩
def CmdMove.channel : Fld := ⟨383, 368⟩
def CmdMove.dst : Fld := ⟨191, 128⟩
def CmdMove.src : Fld := ⟨127, 64⟩
def CmdMove.srcReef : Fld := ⟨24, 24⟩
def CmdMove.dstReef : Fld := ⟨25, 25⟩

/-! COMPARE (0x15) (R134). -/
def CmdCompare.bytes : Fld := ⟨447, 384⟩
def CmdCompare.b : Fld := ⟨191, 128⟩
def CmdCompare.a : Fld := ⟨127, 64⟩
def CmdCompare.mode : Fld := ⟨24, 24⟩

/-! Completion record (R138). -/
def ComplRec.phase : Fld := ⟨127, 127⟩
def ComplRec.detail : Fld := ⟨111, 64⟩
def ComplRec.queue : Fld := ⟨63, 44⟩
def ComplRec.context : Fld := ⟨43, 32⟩
def ComplRec.status : Fld := ⟨31, 24⟩
def ComplRec.opcode : Fld := ⟨23, 16⟩
def ComplRec.sequence : Fld := ⟨15, 0⟩
def ComplRec.rsvd : List Fld := [⟨126, 112⟩]

/-! Channel record (R149). -/
def ChanRec.shadow : Fld := ⟨319, 256⟩
def ChanRec.curDesc : Fld := ⟨255, 192⟩
def ChanRec.doneCount : Fld := ⟨191, 160⟩
def ChanRec.credits : Fld := ⟨159, 144⟩
def ChanRec.intVector : Fld := ⟨143, 128⟩
def ChanRec.lastTag : Fld := ⟨127, 112⟩
def ChanRec.context : Fld := ⟨111, 100⟩
def ChanRec.lane : Fld := ⟨99, 92⟩
def ChanRec.state : Fld := ⟨91, 88⟩
def ChanRec.haltCause : Fld := ⟨87, 84⟩
def ChanRec.intEnable : Fld := ⟨83, 83⟩
def ChanRec.shadowValid : Fld := ⟨82, 82⟩
def ChanRec.rearmOverrun : Fld := ⟨81, 81⟩
def ChanRec.creditOverflow : Fld := ⟨80, 80⟩
def ChanRec.retried : Fld := ⟨79, 79⟩
def ChanRec.rsvd : List Fld := [⟨78, 0⟩, ⟨511, 320⟩]
def ChanRec.cFields : List Fld := [⟨79, 79⟩, ⟨80, 80⟩, ⟨81, 81⟩, ⟨82, 82⟩, ⟨87, 84⟩, ⟨91, 88⟩, ⟨127, 112⟩, ⟨159, 144⟩, ⟨191, 160⟩, ⟨255, 192⟩, ⟨319, 256⟩]

/-! Descriptor (R151). -/
def Desc.descTag : Fld := ⟨447, 432⟩
def Desc.ordered : Fld := ⟨425, 425⟩
def Desc.merge : Fld := ⟨424, 424⟩
def Desc.int : Fld := ⟨423, 423⟩
def Desc.credit : Fld := ⟨422, 422⟩
def Desc.dstReef : Fld := ⟨421, 421⟩
def Desc.srcReef : Fld := ⟨420, 420⟩
def Desc.timer : Fld := ⟨419, 416⟩
def Desc.creditTo : Fld := ⟨415, 400⟩
def Desc.pace : Fld := ⟨399, 398⟩
def Desc.swap : Fld := ⟨397, 395⟩
def Desc.dstWrapLog2 : Fld := ⟨394, 390⟩
def Desc.srcWrapLog2 : Fld := ⟨389, 385⟩
def Desc.nextF : Fld := ⟨383, 320⟩
def Desc.dstStride2 : Fld := ⟨319, 288⟩
def Desc.srcStride2 : Fld := ⟨287, 256⟩
def Desc.dstStride1 : Fld := ⟨255, 224⟩
def Desc.srcStride1 : Fld := ⟨223, 192⟩
def Desc.count2 : Fld := ⟨191, 176⟩
def Desc.count1 : Fld := ⟨175, 160⟩
def Desc.len0 : Fld := ⟨159, 128⟩
def Desc.dst : Fld := ⟨127, 64⟩
def Desc.src : Fld := ⟨63, 0⟩
def Desc.rsvd : List Fld := [⟨384, 384⟩, ⟨431, 426⟩, ⟨511, 448⟩]

/-! Quay ring record (R167). -/
def RingRec.idx3 : Fld := ⟨191, 176⟩
def RingRec.idx2 : Fld := ⟨175, 160⟩
def RingRec.idx1 : Fld := ⟨159, 144⟩
def RingRec.idx0 : Fld := ⟨143, 128⟩
def RingRec.cols : Fld := ⟨127, 112⟩
def RingRec.bufBase : Fld := ⟨109, 96⟩
def RingRec.bufTilesLog2 : Fld := ⟨91, 88⟩
def RingRec.entriesLog2 : Fld := ⟨87, 84⟩
def RingRec.state : Fld := ⟨83, 80⟩
def RingRec.context : Fld := ⟨79, 68⟩
def RingRec.stages : Fld := ⟨66, 64⟩
def RingRec.agent3 : Fld := ⟨31, 28⟩
def RingRec.agent2 : Fld := ⟨27, 24⟩
def RingRec.agent1 : Fld := ⟨23, 20⟩
def RingRec.agent0 : Fld := ⟨19, 16⟩
def RingRec.rsvd : List Fld := [⟨15, 0⟩, ⟨63, 32⟩, ⟨67, 67⟩, ⟨95, 92⟩, ⟨111, 110⟩, ⟨255, 192⟩]
def RingRec.cFields : List Fld := [⟨83, 80⟩, ⟨143, 128⟩, ⟨159, 144⟩, ⟨175, 160⟩, ⟨191, 176⟩]

/-! Trailer (R192). -/
def Trailer.mode : Fld := ⟨63, 56⟩
def Trailer.tableGen : Fld := ⟨55, 48⟩
def Trailer.lengthEcho : Fld := ⟨47, 32⟩
def Trailer.crc : Fld := ⟨31, 0⟩

/-! PLANES header (R196). -/
def PlanesHdr.elemKind : Fld := ⟨9, 7⟩
def PlanesHdr.tz : Fld := ⟨6, 2⟩
def PlanesHdr.mantMode : Fld := ⟨1, 0⟩
def PlanesHdr.rsvd : List Fld := [⟨15, 10⟩]

/-! Serialised table header (R200). -/
def TableHdr.lengthsCrc : Fld := ⟨95, 64⟩
def TableHdr.symbols : Fld := ⟨63, 48⟩
def TableHdr.scope : Fld := ⟨45, 44⟩
def TableHdr.elemKind : Fld := ⟨43, 40⟩
def TableHdr.formatGen : Fld := ⟨39, 32⟩
def TableHdr.tableMagic : Fld := ⟨31, 0⟩
def TableHdr.rsvd : List Fld := [⟨47, 46⟩, ⟨127, 96⟩]

/-! Index entry (R212). -/
def IndexEnt.tableGen : Fld := ⟨63, 56⟩
def IndexEnt.mode : Fld := ⟨51, 48⟩
def IndexEnt.valid : Fld := ⟨47, 47⟩
def IndexEnt.lenM1 : Fld := ⟨46, 40⟩
def IndexEnt.offset : Fld := ⟨39, 0⟩
def IndexEnt.rsvd : List Fld := [⟨55, 52⟩]

/-! Record header (R231). -/
def FrRecHdr.sampleTiles : Fld := ⟨223, 192⟩
def FrRecHdr.stream : Fld := ⟨191, 160⟩
def FrRecHdr.bodyCrc : Fld := ⟨159, 128⟩
def FrRecHdr.recordBytes : Fld := ⟨127, 96⟩
def FrRecHdr.period : Fld := ⟨79, 64⟩
def FrRecHdr.group : Fld := ⟨55, 54⟩
def FrRecHdr.env : Fld := ⟨53, 53⟩
def FrRecHdr.cb : Fld := ⟨52, 52⟩
def FrRecHdr.elemKind : Fld := ⟨51, 48⟩
def FrRecHdr.formatGen : Fld := ⟨39, 32⟩
def FrRecHdr.recordMagic : Fld := ⟨31, 0⟩
def FrRecHdr.rsvd : List Fld := [⟨47, 40⟩, ⟨63, 56⟩, ⟨95, 80⟩, ⟨511, 224⟩]

/-! Registry record (R246). -/
def ProgRec.image : Fld := ⟨255, 192⟩
def ProgRec.constAddr : Fld := ⟨191, 128⟩
def ProgRec.constBytes : Fld := ⟨127, 108⟩
def ProgRec.context : Fld := ⟨107, 96⟩
def ProgRec.state : Fld := ⟨95, 92⟩
def ProgRec.kind : Fld := ⟨91, 88⟩
def ProgRec.outType : Fld := ⟨87, 84⟩
def ProgRec.wType : Fld := ⟨83, 80⟩
def ProgRec.stoch : Fld := ⟨79, 79⟩
def ProgRec.insns : Fld := ⟨75, 64⟩
def ProgRec.rowElems : Fld := ⟨63, 48⟩
def ProgRec.outCols : Fld := ⟨47, 32⟩
def ProgRec.imageCrc : Fld := ⟨31, 0⟩
def ProgRec.rsvd : List Fld := [⟨78, 76⟩]

/-! Instruction (R254). -/
def InsnWord.op : Fld := ⟨63, 56⟩
def InsnWord.pred : Fld := ⟨55, 53⟩
def InsnWord.pnot : Fld := ⟨52, 52⟩
def InsnWord.bf : Fld := ⟨51, 51⟩
def InsnWord.d : Fld := ⟨47, 43⟩
def InsnWord.a : Fld := ⟨42, 38⟩
def InsnWord.b : Fld := ⟨37, 33⟩
def InsnWord.imm : Fld := ⟨31, 0⟩
def InsnWord.c : Fld := ⟨31, 27⟩
def InsnWord.ta : Fld := ⟨26, 26⟩
def InsnWord.tb : Fld := ⟨25, 25⟩
def InsnWord.rsvd : List Fld := [⟨24, 0⟩, ⟨32, 32⟩, ⟨50, 48⟩]

/-! Bind record (R280). -/
def BindRec.limit : Fld := ⟨127, 96⟩
def BindRec.initial : Fld := ⟨95, 64⟩
def BindRec.name : Fld := ⟨63, 32⟩
def BindRec.participants : Fld := ⟨31, 16⟩
def BindRec.context : Fld := ⟨15, 4⟩
def BindRec.owner : Fld := ⟨3, 2⟩
def BindRec.kind : Fld := ⟨1, 0⟩

/-! State record (R306). -/
def OptRec.diffRing : Fld := ⟨711, 648⟩
def OptRec.updates : Fld := ⟨647, 616⟩
def OptRec.added : Fld := ⟨615, 600⟩
def OptRec.pending : Fld := ⟨598, 596⟩
def OptRec.diffBroken : Fld := ⟨593, 593⟩
def OptRec.diffArmed : Fld := ⟨592, 592⟩
def OptRec.region : Fld := ⟨591, 584⟩
def OptRec.stateLane : Fld := ⟨583, 576⟩
def OptRec.gradType : Fld := ⟨571, 568⟩
def OptRec.weightType : Fld := ⟨567, 564⟩
def OptRec.delay : Fld := ⟨562, 560⟩
def OptRec.statePlace : Fld := ⟨559, 558⟩
def OptRec.secGroup : Fld := ⟨557, 556⟩
def OptRec.secFmt3 : Fld := ⟨555, 552⟩
def OptRec.secFmt2 : Fld := ⟨551, 548⟩
def OptRec.secFmt1 : Fld := ⟨547, 544⟩
def OptRec.landSlots : Fld := ⟨543, 540⟩
def OptRec.remoteContribs : Fld := ⟨539, 528⟩
def OptRec.layer : Fld := ⟨527, 512⟩
def OptRec.args : Fld := ⟨511, 448⟩
def OptRec.landBase : Fld := ⟨447, 384⟩
def OptRec.accBase : Fld := ⟨383, 320⟩
def OptRec.stageBase : Fld := ⟨319, 256⟩
def OptRec.stateBase : Fld := ⟨255, 192⟩
def OptRec.cols : Fld := ⟨191, 160⟩
def OptRec.rows : Fld := ⟨159, 128⟩
def OptRec.colFirst : Fld := ⟨127, 96⟩
def OptRec.rowFirst : Fld := ⟨95, 64⟩
def OptRec.tensorId : Fld := ⟨63, 32⟩
def OptRec.shardId : Fld := ⟨31, 0⟩
def OptRec.rsvd : List Fld := [⟨563, 563⟩, ⟨575, 572⟩, ⟨595, 594⟩, ⟨599, 599⟩, ⟨1023, 712⟩]
def OptRec.cFields : List Fld := [⟨592, 592⟩, ⟨593, 593⟩, ⟨598, 596⟩, ⟨615, 600⟩, ⟨647, 616⟩, ⟨711, 648⟩]

/-! Export record header (R322). -/
def ExportHdr.package : Fld := ⟨427, 416⟩
def ExportHdr.payloadCrc : Fld := ⟨415, 384⟩
def ExportHdr.payloadBytes : Fld := ⟨383, 320⟩
def ExportHdr.version : Fld := ⟨303, 288⟩
def ExportHdr.updates : Fld := ⟨287, 256⟩
def ExportHdr.cols : Fld := ⟨255, 224⟩
def ExportHdr.rows : Fld := ⟨223, 192⟩
def ExportHdr.colFirst : Fld := ⟨191, 160⟩
def ExportHdr.rowFirst : Fld := ⟨159, 128⟩
def ExportHdr.tensorId : Fld := ⟨127, 96⟩
def ExportHdr.shardId : Fld := ⟨95, 64⟩
def ExportHdr.pending : Fld := ⟨60, 58⟩
def ExportHdr.secGroup : Fld := ⟨57, 56⟩
def ExportHdr.secFmts : Fld := ⟨55, 44⟩
def ExportHdr.weightType : Fld := ⟨43, 40⟩
def ExportHdr.formatGen : Fld := ⟨39, 32⟩
def ExportHdr.exportMagic : Fld := ⟨31, 0⟩
def ExportHdr.rsvd : List Fld := [⟨63, 61⟩, ⟨319, 304⟩, ⟨511, 428⟩]

/-! Link frame (R332). -/
def LinkHdr.status : Fld := ⟨119, 112⟩
def LinkHdr.sectorMask : Fld := ⟨111, 96⟩
def LinkHdr.frame : Fld := ⟨95, 64⟩
def LinkHdr.sector : Fld := ⟨45, 42⟩
def LinkHdr.tag : Fld := ⟨41, 32⟩
def LinkHdr.ack : Fld := ⟨31, 20⟩
def LinkHdr.seq : Fld := ⟨19, 8⟩
def LinkHdr.kind : Fld := ⟨7, 0⟩
def LinkHdr.rsvd : List Fld := [⟨63, 46⟩, ⟨127, 120⟩]

/-! Module identity (R335). -/
def ModIdent.media : Fld := ⟨11, 9⟩
def ModIdent.geometry : Fld := ⟨8, 6⟩
def ModIdent.link : Fld := ⟨5, 4⟩
def ModIdent.warn : Fld := ⟨3, 3⟩
def ModIdent.sleepScrub : Fld := ⟨2, 2⟩
def ModIdent.parity : Fld := ⟨0, 0⟩
def ModIdent.rsvd : List Fld := [⟨1, 1⟩]

/-! Alarm word (R337). -/
def AlarmW.kind : Fld := ⟨15, 13⟩
def AlarmW.value : Fld := ⟨12, 0⟩

/-! Band record (R344). -/
def BandRec.state : Fld := ⟨63, 60⟩
def BandRec.logical : Fld := ⟨59, 42⟩
def BandRec.margin : Fld := ⟨41, 34⟩
def BandRec.age : Fld := ⟨33, 21⟩
def BandRec.wear : Fld := ⟨20, 0⟩

/-! Set descriptor header (R360). -/
def SetDesc.treeBase : Fld := ⟨319, 256⟩
def SetDesc.destBytes : Fld := ⟨255, 192⟩
def SetDesc.destBase : Fld := ⟨191, 128⟩
def SetDesc.destKind : Fld := ⟨103, 96⟩
def SetDesc.itemCount : Fld := ⟨95, 64⟩
def SetDesc.formatGen : Fld := ⟨39, 32⟩
def SetDesc.setMagic : Fld := ⟨31, 0⟩
def SetDesc.rsvd : List Fld := [⟨63, 40⟩, ⟨127, 104⟩, ⟨511, 320⟩]

/-! Set item (R360). -/
def SetItem.addr : Fld := ⟨255, 192⟩
def SetItem.bytes : Fld := ⟨191, 128⟩
def SetItem.object : Fld := ⟨127, 96⟩
def SetItem.absent : Fld := ⟨8, 8⟩
def SetItem.itemKind : Fld := ⟨3, 0⟩
def SetItem.rsvd : List Fld := [⟨7, 4⟩, ⟨95, 9⟩]

/-! Set record (R362). -/
def SetRec.root : Fld := ⟨1023, 768⟩
def SetRec.descAddr : Fld := ⟨767, 704⟩
def SetRec.copyBytes : Fld := ⟨703, 640⟩
def SetRec.stepCount : Fld := ⟨639, 608⟩
def SetRec.planEpoch : Fld := ⟨607, 576⟩
def SetRec.itemsAbsent : Fld := ⟨575, 560⟩
def SetRec.context : Fld := ⟨559, 548⟩
def SetRec.state : Fld := ⟨547, 544⟩
def SetRec.kind : Fld := ⟨543, 543⟩
def SetRec.destKind : Fld := ⟨542, 540⟩
def SetRec.partner : Fld := ⟨539, 528⟩
def SetRec.destBase : Fld := ⟨527, 464⟩
def SetRec.treeBase : Fld := ⟨463, 400⟩
def SetRec.leaves : Fld := ⟨399, 368⟩
def SetRec.rsvd : List Fld := [⟨367, 0⟩]

/-! Mismatch record (R372). -/
def MismatchRec.digestOther : Fld := ⟨1023, 768⟩
def MismatchRec.digestOwner : Fld := ⟨767, 512⟩
def MismatchRec.step : Fld := ⟨511, 480⟩
def MismatchRec.leaf : Fld := ⟨479, 448⟩
def MismatchRec.version : Fld := ⟨447, 432⟩
def MismatchRec.pkgOther : Fld := ⟨431, 420⟩
def MismatchRec.pkgOwner : Fld := ⟨419, 408⟩
def MismatchRec.cols : Fld := ⟨383, 352⟩
def MismatchRec.rows : Fld := ⟨351, 320⟩
def MismatchRec.colFirst : Fld := ⟨319, 288⟩
def MismatchRec.rowFirst : Fld := ⟨287, 256⟩
def MismatchRec.tensorId : Fld := ⟨255, 224⟩
def MismatchRec.shardId : Fld := ⟨223, 192⟩
def MismatchRec.leafParamFirst : Fld := ⟨191, 160⟩
def MismatchRec.leafParamCount : Fld := ⟨159, 128⟩
def MismatchRec.rsvd : List Fld := [⟨127, 0⟩, ⟨407, 384⟩]

/-! Region record (R382). -/
def DevRegion.base : Fld := ⟨255, 192⟩
def DevRegion.bytes : Fld := ⟨191, 128⟩
def DevRegion.notifyBuoy : Fld := ⟨127, 96⟩
def DevRegion.context : Fld := ⟨95, 84⟩
def DevRegion.requester : Fld := ⟨83, 68⟩
def DevRegion.access : Fld := ⟨67, 66⟩
def DevRegion.peer : Fld := ⟨65, 65⟩
def DevRegion.notify : Fld := ⟨64, 64⟩
def DevRegion.state : Fld := ⟨63, 60⟩
def DevRegion.rsvd : List Fld := [⟨59, 0⟩]

/-! Message header (R392). -/
def MsgHdr.msgCrc : Fld := ⟨255, 224⟩
def MsgHdr.planEpoch : Fld := ⟨223, 192⟩
def MsgHdr.groupId : Fld := ⟨191, 160⟩
def MsgHdr.length : Fld := ⟨159, 144⟩
def MsgHdr.ack : Fld := ⟨143, 128⟩
def MsgHdr.seq : Fld := ⟨127, 112⟩
def MsgHdr.dstPackage : Fld := ⟨111, 100⟩
def MsgHdr.srcPackage : Fld := ⟨99, 88⟩
def MsgHdr.kind : Fld := ⟨87, 80⟩
def MsgHdr.formatGen : Fld := ⟨79, 72⟩
def MsgHdr.arg : Fld := ⟨63, 0⟩
def MsgHdr.rsvd : List Fld := [⟨71, 64⟩]

/-! Group block header (R405). -/
def GroupHdr.pkgMapCount : Fld := ⟨127, 112⟩
def GroupHdr.selfPackage : Fld := ⟨111, 96⟩
def GroupHdr.members : Fld := ⟨95, 88⟩
def GroupHdr.masterOverride : Fld := ⟨87, 80⟩
def GroupHdr.groupId : Fld := ⟨79, 48⟩
def GroupHdr.formatGen : Fld := ⟨39, 32⟩
def GroupHdr.groupMagic : Fld := ⟨31, 0⟩
def GroupHdr.rsvd : List Fld := [⟨47, 40⟩, ⟨511, 128⟩]

/-! Down strap field (R412). -/
def StrapDown.causewayGen : Fld := ⟨5, 2⟩
def StrapDown.diePosition : Fld := ⟨1, 0⟩
def StrapDown.rsvd : List Fld := [⟨15, 6⟩]

/-! Up strap field (R412). -/
def StrapUp.causewayGen : Fld := ⟨11, 8⟩
def StrapUp.stepping : Fld := ⟨7, 4⟩
def StrapUp.dieKind : Fld := ⟨3, 0⟩
def StrapUp.rsvd : List Fld := [⟨15, 12⟩]

/-! Trained-width word (R416). -/
def WidthWord.repairedDown : Fld := ⟨255, 240⟩
def WidthWord.repairDown : Fld := ⟨239, 176⟩
def WidthWord.baysDown : Fld := ⟨175, 160⟩
def WidthWord.repairedUp : Fld := ⟨159, 144⟩
def WidthWord.repairUp : Fld := ⟨143, 80⟩
def WidthWord.baysUp : Fld := ⟨79, 64⟩
def WidthWord.trainSeq : Fld := ⟨63, 32⟩
def WidthWord.widthDown : Fld := ⟨31, 23⟩
def WidthWord.widthUp : Fld := ⟨22, 14⟩
def WidthWord.valid : Fld := ⟨0, 0⟩
def WidthWord.rsvd : List Fld := [⟨13, 1⟩]

/-! Image header (R435). -/
def ImageHdr.entry : Fld := ⟨127, 96⟩
def ImageHdr.imageBytes : Fld := ⟨95, 64⟩
def ImageHdr.steppingMax : Fld := ⟨63, 56⟩
def ImageHdr.steppingMin : Fld := ⟨55, 48⟩
def ImageHdr.formatGen : Fld := ⟨39, 32⟩
def ImageHdr.imageMagic : Fld := ⟨31, 0⟩
def ImageHdr.rsvd : List Fld := [⟨47, 40⟩, ⟨511, 128⟩]

/-! Mailbox slot header (R455). -/
def MailboxHdr.entryGen : Fld := ⟨255, 224⟩
def MailboxHdr.total : Fld := ⟨223, 192⟩
def MailboxHdr.offset : Fld := ⟨191, 160⟩
def MailboxHdr.length : Fld := ⟨159, 144⟩
def MailboxHdr.status : Fld := ⟨135, 128⟩
def MailboxHdr.seq : Fld := ⟨63, 48⟩
def MailboxHdr.subindex : Fld := ⟨47, 40⟩
def MailboxHdr.index : Fld := ⟨39, 24⟩
def MailboxHdr.op : Fld := ⟨15, 8⟩
def MailboxHdr.slotState : Fld := ⟨1, 0⟩
def MailboxHdr.rsvd : List Fld := [⟨7, 2⟩, ⟨23, 16⟩, ⟨127, 64⟩, ⟨143, 136⟩, ⟨511, 256⟩]

/-! Event record (R472). -/
def EventRec.argA : Fld := ⟨255, 192⟩
def EventRec.argB : Fld := ⟨191, 160⟩
def EventRec.object : Fld := ⟨159, 128⟩
def EventRec.time : Fld := ⟨127, 80⟩
def EventRec.sequence : Fld := ⟨79, 32⟩
def EventRec.code : Fld := ⟨31, 16⟩
def EventRec.context : Fld := ⟨15, 4⟩
def EventRec.phase : Fld := ⟨3, 3⟩
def EventRec.held : Fld := ⟨2, 2⟩
def EventRec.contextValid : Fld := ⟨1, 1⟩
def EventRec.more : Fld := ⟨0, 0⟩

/-! Layer record (R480). -/
def LayerSnd.versionWaits : Fld := ⟨127, 96⟩
def LayerSnd.delayWaits : Fld := ⟨95, 64⟩
def LayerSnd.queueDrains : Fld := ⟨63, 32⟩
def LayerSnd.slipSwitches : Fld := ⟨31, 0⟩

/-! Stream record (R480). -/
def StreamSnd.detected : Fld := ⟨127, 96⟩
def StreamSnd.nanForms : Fld := ⟨95, 64⟩
def StreamSnd.saturatedGroups : Fld := ⟨63, 48⟩
def StreamSnd.nonfiniteGroups : Fld := ⟨47, 32⟩
def StreamSnd.rawBlocks : Fld := ⟨31, 0⟩

end Sys2Proof.Machine
end

