-- ==== Sys2Proof/Config.lean ====
section
/-! DEFINITION. What the board or the part fixes, and the free values: constants without a body, so that nothing can rest on a value of theirs. -/

namespace Sys2Proof

/-- A byte the spec gives no value (log entry 4, DESIGN CHOICE): the `n`-th free byte a run draws. -/
opaque Config.freeByte : Nat → Byte

/-- The package's tier-group position straps, STRAPS [2:0] and STRAP_POSITION (R396, 16_chart.md); fixed by the board. -/
opaque Config.strapPosition : Fin 8

/-- Strap bit TEST, STRAPS [8] (R464); fixed by the board. -/
opaque Config.strapTest : Bool

/-- A 32-bit value that the spec leaves open, such as a scale factor of R233 step 2 (log entry 31, DESIGN CHOICE): the `n`-th free value a run draws. -/
opaque Config.freeWord : Nat → Word

/-- An element of a program's output that no instruction of the program writes (log entry 45, DESIGN CHOICE): of a stream of a plan's step and an element, the same in every run (R106). -/
opaque Config.unwritten (step stream element : Nat) : Word

/-- The code that VQF gives a lane for a form that has no code of a single element, 0x10 and 0x11 (log entry 27, DESIGN CHOICE). -/
opaque Config.formlessCode (form : Nat) (x : Word) : Byte

end Sys2Proof
end

