-- ==== Sys2Proof/Machine/State.lean ====
section
/-! DEFINITION. The state of the block as plain data, the reasons a step can stop, and the state after reset.

Where a thing lives. The Chart's entries live in `chart` (one home; a key without an entry reads as the default of the spec's table). The records that the spec places in a Harbour region (queue, channel, ring, stream, task, edge, slip-set, shard, state, set, region and program records, the package map, the event ring, Soundings tables) live in `mem`, where software reads them. Everything else the spec gives the machine is a field of its own. -/

namespace Sys2Proof.Machine

/-- A sparse table: key and value, keys strictly rising. -/
abbrev SMap (α : Type) := List (Nat × α)

/-- The reasons a step can stop the machine. -/
inductive Fault where
  /-- Raised by SERVER_CORE_READ and SERVER_CORE_WRITE for an address with a bit set above the 52 implemented (R8): no such address exists. Safe: the model stops where nothing is addressed. -/
  | noSuchAddress (addr : Nat)
  deriving DecidableEq, Repr

/-- The reasons a command has no meaning. -/
inductive Refusal where
  /-- A row of the table that has no meaning yet. Safe. -/
  | notModelled (mnemonic : String)
  deriving DecidableEq, Repr

/-- What waits on a buoy (R284, R289): a dispatched command, a plan task, or a remote request of another package. -/
inductive Who where
  | cmd (tag : Nat)
  | task (x : TaskRef)
  | remote (pkg op : Nat)
  /-- Nobody: an entry that a fast reset left counted, whose command or request has ended (R434). -/
  | gone
  deriving DecidableEq, Repr

/-- One waiter or entry of a buoy, with the units it wants (R284) or 1 for an entry. -/
structure Waiter where
  who   : Who
  count : Nat
  deriving DecidableEq, Repr

/-- A bound physical buoy (R277 to R295). `kind` 1 semaphore, 2 barrier; `owner` 0 PLAN, 1 HOST, 2 DIE0, 3 DIE1. -/
structure Buoy where
  context      : Nat
  name         : Nat
  kind         : Nat
  owner        : Nat
  limit        : Nat
  initial      : Nat
  participants : Nat
  count        : Nat
  round        : Nat
  lost         : Bool
  entries      : List Waiter
  parked       : List Waiter
  waiters      : List Waiter
  deriving DecidableEq, Repr

/-- How far a dispatched command has come: handed to its executor, under way, waiting on a buoy, released by it, or ended by a fast reset with its record still to be written (R438). -/
inductive CmdStage where
  | ready
  | underway
  | waiting
  | granted
  | ownerLost
  | resetEnded
  deriving DecidableEq, Repr

/-- A command copied from a ring whose record is not yet written (R122, R123). `word` is the 64 bytes as one number; `detail` what its record will report. -/
structure Dispatched where
  tag    : Nat
  queue  : Nat
  word   : Nat
  stage  : CmdStage
  detail : Nat
  /-- What the memory controllers will answer to the write of its record (R115, R141). -/
  slot   : MemResult
  deriving DecidableEq, Repr

/-- A context (R465, R466): `state` 0 FREE, 1 ACTIVE, 2 PREEMPTED, 3 TEARING. -/
structure Context where
  state   : Nat
  xts     : Nat
  philox  : Nat
  keysSet : Nat
  deriving DecidableEq, Repr

/-- An access from outside that waits (R217, R353, R366). -/
inductive Access where
  | coreRead (addr n : Nat)
  | coreWrite (addr : Nat) (data : List Byte)
  | devRead (requester addr n : Nat)
  | devWrite (requester addr : Nat) (data : List Byte)
  | windowLoad (addr n : Nat)
  | windowStore (addr : Nat) (data : List Byte)
  deriving DecidableEq, Repr

/-- A cascade frame on its way to the MAC (R392): destination address, VLAN identifier where the map record sets TAGGED, EtherType, and the frame. -/
structure Wire where
  dstMac    : Nat
  tag       : Option Nat
  etherType : Nat
  frame     : Frame
  deriving DecidableEq, Repr

/-- What the block has driven outwards: the record of its output pins and ports, newest first. (log entry 3, DESIGN CHOICE.) -/
inductive Output where
  | interrupt (vector : Nat)
  | inBandInterrupt
  | chartReply (path : Path) (seq status total gen : Nat) (data : List Byte)
  | mctpReply (data : List Byte)
  | message (dst : Nat) (w : Wire)
  | coreData (data : List Byte)
  | coreError (addr : Nat)
  | deviceData (requester : Nat) (data : List Byte)
  | unsupportedRequest (requester addr : Nat)
  | beginCompute (x : TaskRef)
  | suspendCompute (x : TaskRef)
  | resumeCompute (x : TaskRef)
  | drainFactors (die tile : Nat) (factors : List Word)
  | handle (die ring index : Nat) (tag : HandleTag) (data : List Byte)
  | sideband (port : Nat) (request : BitVec 32)
  | wire2Low (port : Nat)
  | wire1Low (port : Nat)
  | linkFrame (port : Nat) (f : LinkFrame)
  | span (die bay : Nat) (sp : Span)
  | retryPulse (die bay : Nat)
  | pilotStart (entry : Nat)
  deriving DecidableEq, Repr

/-- The events' numbering and the Lighthouse's buffer of held records (R431, R473). A held event is its chain of 256-bit records. -/
structure Events where
  next : Nat
  held : List (List Nat)
  deriving DecidableEq, Repr

/-- Standby cycles since the standby supply rose (R472), with all domains asleep (R442) and while ORPHANED (R387). -/
structure Clock where
  cycles : Nat
  asleep : Nat
  orphan : Nat
  deriving DecidableEq, Repr

/-- The work of a plan task that has been dispatched and is not yet DONE (R77). `begun` once its work has started (a slip alternative starts at its own row), `finished` when only its completion is left; `shard` and `version` are the pin it holds (R94). -/
structure TaskRun where
  ref      : TaskRef
  finished : Bool
  pinShard : Option (Nat × Nat)
  suspended : Bool
  slipOf   : Option TaskRef
  begun    : Bool
  deriving DecidableEq, Repr

/-- A plan task that has reached the head of its queue and entered its wait edges (R284, R291): its remote edges, by edge record, and whether each is satisfied. -/
structure Arrival where
  ref    : TaskRef
  remote : SMap Bool
  deriving DecidableEq, Repr

/-- A step in flight (R83): its number since the load and its task states (R77; an unlisted task is PENDING). -/
structure Step where
  num   : Nat
  tasks : SMap Nat
  deriving DecidableEq, Repr

/-- The tables of an installed plan: the header and where the five tables lie (R67). -/
structure Tables where
  header  : Nat
  streams : Nat
  tasks   : Nat
  edges   : Nat
  slips   : Nat
  shards  : Nat
  deriving DecidableEq, Repr

/-- A plan image being validated, and whether it is to replace the loaded plan (R98, R101). -/
structure Validating where
  tag     : Nat
  image   : Nat
  replace : Bool
  deriving DecidableEq, Repr

/-- The plan (R97 to R103). `stopping` holds once a group has been aborted. -/
structure Plan where
  tables     : Option Tables
  validating : Option Validating
  next       : Option (Tables × Nat)
  steps      : List Step
  stepsBegun : Nat
  stepCount  : Nat
  runs       : List TaskRun
  stopping   : Bool
  rounds     : SMap Nat
  epochDone  : Bool
  lateSeen   : List TaskRef
  /-- The buoys signalled while late tasks wait, for the search that R89 makes again. -/
  signalled  : List Nat
  /-- Producing tasks whose wait under R56 has been reported. -/
  waitSeen   : List TaskRef
  arrived    : List Arrival
  /-- UPDATEs of each shard before step 0 of this load (R101), by shard record. -/
  baseUpdates : SMap Nat
  deriving DecidableEq, Repr

/-- A first pass armed by TABLE_BUILD or begun automatically (R202, R234). `cmd` is the command it completes. -/
structure FirstPass where
  cmd     : Option Nat
  kind    : Nat
  sample  : Nat
  copy    : Nat
  active  : Bool
  slot    : Option Nat
  tiles   : SMap (List Byte)
  group   : Nat
  period  : Nat
  deriving DecidableEq, Repr

/-- What Charov keeps of a stream beside its record (R50, R63, R187, R202 to R205, R234). -/
structure StreamAux where
  fallback : Nat
  fetches  : Nat
  pins     : Nat
  bound    : Nat
  gens     : List Nat
  nextTile : Nat
  written  : Nat
  offsets  : SMap Nat
  /-- Blocks coded so far in each segment. -/
  coded    : SMap Nat
  heldRec  : Nat
  recSize  : Nat
  pass     : Option FirstPass
  /-- A first pass armed while another runs: it is the stream's pass once that one has ended. -/
  armed    : Option FirstPass
  discard  : Bool
  staged   : SMap Nat
  bornStep : Nat
  copySize : Nat
  /-- The Harbour data base while the copy to the Reef is under way (R51, R54). -/
  harbour  : Nat
  /-- Every Reef write response has returned; the Harbour copy goes with the last fetch of it (R54). -/
  reefDone : Bool
  /-- The record copy that went to the Reef with a LOSSY stream (R225). -/
  reefRec  : List Byte
  /-- Tensor tiles that an ingest-mode REDUCE has taken and not yet coded (R269). -/
  taken    : SMap (List Byte)
  deriving DecidableEq, Repr

/-- Where a work item comes from (R142). -/
inductive ItemFrom where
  | task (x : TaskRef)
  | cmd (tag : Nat)
  | armed
  /-- Nobody any more: the item has ended early, and its lane waits for the requests in flight (R162, R182). -/
  | ended
  deriving DecidableEq, Repr

/-- What a work item does: a chain of descriptors in memory, descriptors Charov built, or a delivery of stream tiles. -/
inductive ItemWork where
  | chain (first : Nat)
  | built (descs : List Nat)
  | stow (stream first count source : Nat)
  | fetch (consumer : Nat)
  | reefWrite (stream : Nat)
  | prefetch (stream first count window : Nat)
  | exchange (x : TaskRef)
  /-- The transfer of an EXPORT or IMPORT command (R142). -/
  | carry (tag : Nat)
  deriving DecidableEq, Repr

/-- What a lane will issue next: nothing, the descriptor at an address, one that Charov built, or that of tile `t` of the item's stream. -/
inductive NextDesc where
  | done
  | at (addr : Nat)
  | built (descs : List Nat)
  | tile (t : Nat)
  deriving DecidableEq, Repr

/-- A work item of a channel (R142, R145); `urgency` ranks it (R144); `ready` is its place in the order of readiness; `rest` is where a STOP left it (R164). -/
structure WorkItem where
  id      : Nat
  channel : Nat
  source  : ItemFrom
  work    : ItemWork
  urgency : Nat
  ready   : Nat
  rest    : Option NextDesc
  deriving DecidableEq, Repr

/-- What the bytes of a descriptor are for: moved as they are, read as tile `t` of a stream to be stored, written as tile `t` that a consumer takes, or staged out of the Reef as tile `t` into a slot (R176, R187). -/
inductive DescRole where
  | copy
  | stowTile (stream tile : Nat)
  | fetchTile (consumer tile : Nat)
  | stageTile (stream tile slot : Nat)
  deriving DecidableEq, Repr

/-- A descriptor that a lane has begun to issue (R151 to R161): its address (0 when built by Charov), its 512 bits, the next byte to read and to write in loop order, the bytes read and not yet written, and its requests in flight. -/
structure IssuedDesc where
  addr    : Nat
  word    : Nat
  rd      : Nat
  wr      : Nat
  buf     : SMap Byte
  inFlight : Nat
  retried : Bool
  role    : DescRole
  deriving DecidableEq, Repr

/-- A lane at work (R144 to R166). `failing` is the status with which the item will end once its requests have returned; the `fail` fields say where: address, descriptor (its place in the chain, word and tag), byte in loop order. -/
structure LaneRun where
  item     : Nat
  issued   : List IssuedDesc
  next     : NextDesc
  failing  : Option Nat
  failAddr : Nat
  failIdx  : Nat
  failDesc : Nat
  failTag  : Nat
  failPos  : Nat
  haltCause : Nat
  ticked   : Bool
  deriving DecidableEq, Repr

/-- A request in flight (R146): its tag, its lane, the descriptor it belongs to (its place in the chain), whether it writes, its address and length, the byte it begins at in loop order, the retries so far, and whether it goes to a Reef address. -/
structure Request where
  tag     : Nat
  lane    : Nat
  desc    : Nat
  write   : Bool
  addr    : Nat
  len     : Nat
  lin     : Nat
  retries : Nat
  reef    : Bool
  data    : List Byte
  /-- Its port has moved all its sectors; the response is still to come (R333). -/
  moved   : Bool
  deriving DecidableEq, Repr

/-- The Ferries (R142 to R166). -/
structure Ferry where
  items   : List WorkItem
  lanes   : SMap LaneRun
  requests : List Request
  /-- Who waits for a request slot, in order of readiness; true for a slot of the Reef's pool (R147). -/
  slotWait : List (Requester × Bool)
  nextId  : Nat
  nextReq : Nat
  deriving DecidableEq, Repr

/-- What a buffer of ring 4 holds (R181): the SHARD_ID, version, first tile, number of tiles and transposition. -/
structure Resident where
  shardId : Nat
  version : Nat
  first   : Nat
  tiles   : Nat
  transpose : Bool
  deriving DecidableEq, Repr

/-- A Quay (R167 to R181): its tile slots (unlisted bytes are zero), the tag of each handle, keyed by ring × 65,536 + index, what each buffer of ring 4 holds, the slot of each tile in the held pool, keyed by stream × 2^20 + tile, the drain's requests that wait (drain tile, form, parameter), and the drain tiles presented for the FEED on ring 3. -/
structure Quay where
  slots   : SMap Byte
  tags    : SMap HandleTag
  resident : SMap Resident
  held    : SMap Nat
  drainWait : List (Nat × Nat × Nat)
  shown   : List Nat
  deriving DecidableEq, Repr

/-- A delivery of tiles (R175, R240): whose it is, the stream or shard record, its first tile and number of tiles, the lookahead; how many input tiles have been expanded (`asked`), output tiles put into handles or into descriptors (`filled`) and consumed (`taken`); where they go. `engine` holds where a Shoal engine produces the tiles, `buf` the 256-byte reads of a weight feed that have returned. -/
structure Consumer where
  id       : Nat
  source   : ItemFrom
  stream   : Nat
  shard    : Bool
  first    : Nat
  count    : Nat
  look     : Nat
  asked    : Nat
  filled   : Nat
  taken    : Nat
  die      : Nat
  ring     : Option Nat
  dest     : Nat
  transpose : Bool
  drain    : Bool
  entries  : Nat
  granted  : Bool
  channel  : Nat
  version  : Nat
  engine   : Bool
  /-- A clipped access of a program run for this delivery has been reported (R258). -/
  clipSeen : Bool
  buf      : SMap (List Byte)
  deriving DecidableEq, Repr

/-- An expanded tile in a Skerry's expand queue (R240). -/
structure QueueEntry where
  consumer : Nat
  stream   : Nat
  tile     : Nat
  data     : List Byte
  deriving DecidableEq, Repr

/-- A tile waiting to be coded (R183), or a block whose write responses are outstanding (R213). -/
structure IngestTile where
  stream : Nat
  tile   : Nat
  data   : List Byte
  deriving DecidableEq, Repr

/-- A block written to memory whose index entry is not yet written (R213). -/
structure BlockOut where
  stream : Nat
  tile   : Nat
  gen    : Nat
  mode   : Nat
  len    : Nat
  offset : Nat
  deriving DecidableEq, Repr

/-- What waits for a generation slot: a table command, or a first pass (R202, R206). -/
inductive SlotWaiter where
  | cmd (tag : Nat)
  | pass (stream : Nat)
  deriving DecidableEq, Repr

/-- A generation slot, and its shadow in the Lighthouse (R203 to R209, R425): `state` 0 FREE, 1 BUILDING, 2 CURRENT, 3 RETIRING. -/
structure GenSlot where
  gen     : Nat
  state   : Nat
  kind    : Nat
  scope   : Nat
  stream  : Nat
  context : Nat
  lengths : List Nat
  deriving DecidableEq, Repr

/-- The Skerries (R183 to R243). -/
structure Skerry where
  ingest   : List IngestTile
  blocks   : List BlockOut
  queue    : List QueueEntry
  consumers : List Consumer
  nextConsumer : Nat
  gens     : List GenSlot
  lastGen  : Nat
  slotWait : List SlotWaiter
  deriving DecidableEq, Repr

/-- What a registered program runs on, for one invocation: registers, accumulator, the next instruction, the loop stack (start, end, runs left) and what it has written to OUT, by element (R244, R252, R257). -/
structure Regs where
  v     : List (List Word)
  s     : List (BitVec 64)
  p     : List (List Bool)
  acc   : List Word
  pc    : Nat
  loops : List (Nat × Nat × Nat)
  out   : SMap Nat
  deriving DecidableEq, Repr

/-- The work of an engine (R251, R273, R313): whose it is, the stream or shard, the program and its code, the unit that runs and the last one, the pinned version, the consumer its tiles go to, where the applied gradients lie, the number of the update, the nested programs whose constants have been copied (level and stream), whether a clip has been reported, and the output bytes and tiles not yet handed on. -/
structure Invocation where
  source   : ItemFrom
  stream   : Nat
  program  : Nat
  code     : List Nat
  unit     : Nat
  lastUnit : Nat
  shard    : Nat
  version  : Nat
  consumer : Nat
  grad     : Nat
  update   : Nat
  started  : List (Nat × Nat)
  clipSeen : Bool
  next     : Nat
  bytes    : SMap Byte
  deriving DecidableEq, Repr

/-- One Shoal engine (R244): its registers, DBUF (unlisted bytes are zero), the programs its store holds, latest first, and the work it runs. -/
structure Engine where
  regs : Regs
  dbuf : SMap Byte
  held : List Nat
  run  : Option Invocation
  deriving DecidableEq, Repr

/-- A gradient contribution that has landed, or is landing, in a landing buffer (R311); `wide` holds the binary32 elements of a remote one where GRAD_TYPE makes the buffer too small for them (log entry 43). -/
structure Landing where
  window : Nat
  index  : Nat
  filled : Nat
  wide   : List Byte
  deriving DecidableEq, Repr

/-- What Charov keeps of a shard beside its shard and state records (R94, R103, R311 to R318). -/
structure ShardAux where
  pins     : List Nat
  waited   : List TaskRef
  /-- The steps in which a task that writes the shard has been dispatched: the mark of R103. -/
  marks    : List Nat
  landings : List Landing
  open_    : Nat
  complete : List (Int × Nat)
  staged   : Bool
  /-- A replica mismatch stops the next UPDATE or version EXCHANGE of the shard (R373). -/
  abortNext : Bool
  /-- The Reef state of the shard has been lost: the status with which the UPDATE that needs it ends (R320). -/
  lostState : Option Nat
  /-- The bytes of the record area behind an armed difference ring (R324). -/
  diffArea : Nat
  deriving DecidableEq, Repr

/-- A transfer on a Reef link (R333): its TAG, the Ferry request it serves, the direction, module frame, masked sectors, the sectors still to send (a write) or that have come (a read), and whether a sector failed its check. -/
structure Transfer where
  tag   : Nat
  req   : Nat
  write : Bool
  frame : Nat
  mask  : Nat
  left  : Nat
  got   : SMap (List Byte)
  bad   : Bool
  deriving DecidableEq, Repr

/-- A Reef port and the module in it (R327 to R350). MOD_STATE and the counters are Chart entries. `admitting` is the step of R340 in progress (0 none), with `erase` and `hours` from the action; `locked` the lanes PHY_RESULT gave; `exchange` the sideband request that awaits its reply; `bands` the Lighthouse's band records (unlisted: FREE, or METADATA for the last 16), `metaBands` the module's own; `media` its bytes and `counts` its write counts by frame, `badSectors` the sectors whose check word fails, `poisoned` its unreadable frames; `defects` the bands to be relocated with their reason (0 grown, 1 worn), `reloc` the one in progress, `scrub` the band being scrubbed; `warned` the events raised once; `waiting` requests that a relocation holds. (log entry 47, DESIGN CHOICE.) -/
structure Port where
  admitting    : Nat
  erase    : Bool
  hours    : Nat
  locked   : Nat
  exchange : Option (BitVec 32)
  ownerTag : Nat
  setRecord : Nat
  bands    : SMap Nat
  metaBands : SMap Nat
  media    : SMap Byte
  counts   : SMap Nat
  badSectors : List Nat
  poisoned : List Nat
  txSeq    : Nat
  rxSeq    : Nat
  unacked  : List LinkFrame
  replays  : Nat
  transfers : List Transfer
  nextTag  : Nat
  scrub    : Option Nat
  reloc    : Option (Nat × Nat)
  defects  : List (Nat × Nat)
  warned   : List Nat
  scrubsHour : Nat
  waiting  : List Nat
  /-- The bands of the module's factory defect table (R349). -/
  factory  : List Nat
  deriving DecidableEq, Repr

/-- A frame in the window buffer, least recently used first (R352). -/
structure WindowFrame where
  addr  : Nat
  data  : List Byte
  dirty : Bool
  deriving DecidableEq, Repr

/-- A set (R363 to R366): the pages of the copy still to be written, the pieces it is made of that lie in the Harbour (place in the copy, address, bytes, whether storage of a stream), whose pages are protected, the copy as captured, whether it was adopted (its STREAM items are then absent, R370), the command it completes, and the generations that a COMPLETE set names (R205). -/
structure SetAux where
  pages   : List Nat
  pieces  : List (Nat × Nat × Nat × Bool)
  adopted : Bool
  cmd     : Option Nat
  content : List Byte
  gens    : List Nat
  deriving DecidableEq, Repr

/-- An open comparison of replicas on the master (R372). -/
structure Comparison where
  shard   : Nat
  version : Nat
  want    : Nat
  owner   : Nat
  roots   : SMap (List Byte)
  leaves  : SMap (List Byte)
  deriving DecidableEq, Repr

/-- The message state of one partner package (R394, R397). -/
structure Peer where
  txSeq   : Nat
  rxSeq   : Nat
  unacked : List Frame
  resends : Nat
  lost    : Bool
  heard   : Bool
  agrees  : Bool
  deriving DecidableEq, Repr

/-- A remote buoy operation pending at its issuer (R298), with the round or count it carries. -/
structure RemoteOp where
  id   : Nat
  pkg  : Nat
  who  : Who
  kind : Nat
  edge : Nat
  arg  : Nat
  deriving DecidableEq, Repr

/-- What has come over the cascade and waits here to be used: a remote gradient contribution (SHARD_ID, index, window); the answer to a Ferry request on a borrowed Reef; bytes that a command asked for; the parts of a stream that an EXCHANGE receives (its record, a generation, its codebook and envelope record, a tile with its index entry); a version that an EXCHANGE fetches; the end of a transfer; and, on an owner, a package's wait for a version. -/
inductive Inbox where
  | gradient (shardId index window : Nat)
  | reefRead (req : Nat)
  | bytes (cmd : Nat)
  | streamRec (n : Nat)
  | streamGen (n gen : Nat)
  | streamFixed (n : Nat)
  | streamTile (n t : Nat)
  | version (shardId v : Nat)
  | ended (pkg kind place : Nat)
  | versionAsk (pkg shardId v : Nat)
  deriving DecidableEq, Repr

/-- The cascade (R392 to R404): messages and pending operations per partner, the epoch reports of the members, what has come in, the SHARD_IDs whose digest trees the master has not released (R371), a write of COPY_PARTNER that waits for the partner's feeds, with the first once it has come (R374), and a write of SET_ADOPT, with its set, that waits for the header page of a partner's copy (R370). -/
structure Cascade where
  peers   : SMap Peer
  ops     : List RemoteOp
  nextOp  : Nat
  epochs  : SMap (Nat × List Byte × Nat)
  incoming : List (Inbox × List Byte)
  trees   : List Nat
  pairAsk : Option (Req × Nat × Option Nat)
  adoptAsk : Option (Req × Nat)
  deriving DecidableEq, Repr

/-- One Causeway (R407 to R421): both trained-width words, the TRAIN_SEQs kept through a discard, FAILED_WIRES; per down bay the failures in a row of the up span, the up bays that wait for a replay and the spans kept for one; whether a RESUME runs the exchange. CW_STATE and the counters are Chart entries. -/
structure Causeway where
  wordBase : Nat
  wordDie  : Nat
  seqKept  : Nat
  dieSeqKept : Nat
  failed   : Nat
  fails    : SMap Nat
  discard  : List Nat
  sent     : SMap (List Span)
  resuming : Bool
  /-- The die was lost while the Causeway slept: 0 no, else the cause; it is found at wake (R422). -/
  gone     : Nat
  deriving DecidableEq, Repr

/-- One supply rail in warning (R440): the lowest sample and the cycle of entry. -/
structure Rail where
  active : Bool
  low    : Nat
  since  : Nat
  deriving DecidableEq, Repr

/-- The retained microcode image and its digest, and the load in progress: source, bytes, expected digest (R425, R436). -/
structure Microcode where
  image   : List Byte
  digest  : List Byte
  loading : Option (Nat × Nat × Nat)
  deriving DecidableEq, Repr

/-- The state of the block. -/
structure State where
  /-- The commands that are waiting, first in, first out. -/
  pending    : List Instr
  /-- Memory: address and byte, addresses strictly rising, no entry 0. -/
  mem        : List Host.Cell
  /-- The stored check words that differ from the CRC-32C of their sector (R217). -/
  checkWords : SMap (BitVec 32)
  /-- The Chart: index × 256 + subindex and value. -/
  chart      : SMap Nat
  /-- ENTRY_GEN of the BLOB entries (R460). -/
  entryGen   : SMap Nat
  /-- CTX_SELECT, ARM_CHANNEL and QUERY_KEY of each path (R452). -/
  select     : SMap Nat
  outbox     : List Output
  /-- How many free values have been drawn (the model's own field, log entry 4, DESIGN CHOICE). -/
  freeCount  : Nat
  clock      : Clock
  events     : Events
  /-- A wake source has been captured (R19, R429). -/
  wakePending : Bool
  contexts   : SMap Context
  heldAccesses : List Access
  /-- Registered regions whose DISABLE waits for the requests accepted before it (R383). -/
  closing    : List Nat
  dispatched : List Dispatched
  nextTag    : Nat
  /-- The queue served last in each class (R126). -/
  roundRobin : List Nat
  /-- Queues whose dispatch is held for a completion slot and has been counted in CQ_WAITS (R123). -/
  cqWaiting  : List Nat
  buoys      : SMap Buoy
  plan       : Plan
  streams    : SMap StreamAux
  shards     : SMap ShardAux
  ferry      : Ferry
  quays      : List Quay
  skerry     : Skerry
  engines    : SMap Engine
  ports      : SMap Port
  window     : List WindowFrame
  sets       : SMap SetAux
  comparisons : List Comparison
  cascade    : Cascade
  causeways  : List Causeway
  rails      : List Rail
  microcode  : Microcode
  /-- Harbour regions in use by each plan allocation: region, first byte in stack 0, bytes per stack (R185, R188). -/
  allocs     : List (Nat × Nat × Nat)
  deriving DecidableEq, Repr

def Clock.reset : Clock := ⟨0, 0, 0⟩
/-- The RESET event (R473, R434), OBJECT none, SEQUENCE 1 at TIME 0, held because every domain sleeps; LAST_RESET `cause`. -/
def resetRecord (cause fast time : Nat) : Nat := cause * 2 ^ 192 + fast * 2 ^ 160 + 0xFFFFFFFF * 2 ^ 128 + time * 2 ^ 80 + 1 * 2 ^ 32 + 0x0903 * 2 ^ 16 + 4

def Events.reset : Events := ⟨2, [[resetRecord 0 0 0]]⟩
def Plan.reset : Plan := ⟨none, none, none, [], 0, 0, [], false, [], false, [], [], [], [], []⟩
/-- Log entry 28, DESIGN CHOICE. -/
def Regs.reset : Regs :=
  { v := List.replicate 32 (List.replicate 512 0), s := List.replicate 32 0,
    p := List.replicate 512 true :: List.replicate 7 (List.replicate 512 false), acc := List.replicate 1024 0, pc := 0, loops := [], out := [] }
def Engine.reset : Engine := ⟨Regs.reset, [], [], none⟩
def Ferry.reset : Ferry := ⟨[], [], [], [], 0, 0⟩
def Quay.reset : Quay := ⟨[], [], [], [], [], []⟩
def GenSlot.reset : GenSlot := ⟨0, 0, 0, 0, 0xFFFFFFFF, 0, []⟩
def Skerry.reset : Skerry := ⟨[], [], [], [], 0, List.replicate 4 GenSlot.reset, 0, []⟩
def Cascade.reset : Cascade := ⟨[], [], 0, [], [], [], none, none⟩
def Causeway.reset : Causeway := ⟨0, 0, 0, 0, 0, [], [], [], false, 0⟩
def Rail.reset : Rail := ⟨false, 0, 0⟩
def Microcode.reset : Microcode := ⟨[], [], none⟩

/-- The block right after a full reset (R433, R449): every Chart entry at its default, everything that Charov holds cleared. (log entry 6, DESIGN CHOICE.) (log entry 29, DESIGN CHOICE) -/
def State.reset : State where
  pending    := []
  mem        := []
  checkWords := []
  chart      := []
  entryGen   := []
  select     := []
  outbox     := []
  freeCount  := 0
  clock      := Clock.reset
  events     := Events.reset
  wakePending := false
  contexts   := []
  heldAccesses := []
  closing    := []
  dispatched := []
  nextTag    := 0
  roundRobin := [0xFFFFF, 0xFFFFF, 0xFFFFF]
  cqWaiting  := []
  buoys      := []
  plan       := Plan.reset
  streams    := []
  shards     := []
  ferry      := Ferry.reset
  quays      := [Quay.reset, Quay.reset]
  skerry     := Skerry.reset
  engines    := []
  ports      := []
  window     := []
  sets       := []
  comparisons := []
  cascade    := Cascade.reset
  causeways  := [Causeway.reset, Causeway.reset]
  rails      := List.replicate 5 Rail.reset
  microcode  := Microcode.reset
  allocs     := []

end Sys2Proof.Machine
end

