-- ==== Sys2Proof/Machine/Ops.lean ====
section
/-! DEFINITION. The named operations over memory, records in memory, Chart entries, outputs and events, which every meaning is written with.

A command that names a happening whose conditions do not hold leaves the state as it is (log entry 10, DESIGN CHOICE): each meaning begins with the test of its conditions. -/

namespace Sys2Proof.Machine

/-! ### Sparse tables -/

def SMap.find {α : Type} : SMap α → Nat → Option α
  | [], _ => none
  | (k, v) :: m, i => if i = k then some v else SMap.find m i

def SMap.getD {α : Type} (m : SMap α) (i : Nat) (d : α) : α :=
  match SMap.find m i with
  | some v => v
  | none => d

def SMap.put {α : Type} : SMap α → Nat → α → SMap α
  | [], i, v => [(i, v)]
  | (k, w) :: m, i, v =>
    if i < k then (i, v) :: (k, w) :: m else if i = k then (i, v) :: m else (k, w) :: SMap.put m i v

def SMap.erase {α : Type} (m : SMap α) (i : Nat) : SMap α := m.filter (fun e => e.1 != i)

def SMap.keys {α : Type} (m : SMap α) : List Nat := m.map Prod.fst

def SMap.vals {α : Type} (m : SMap α) : List α := m.map Prod.snd

/-- The element `i` of a list replaced by `f` of it. -/
def updateAt {α : Type} (l : List α) (i : Nat) (f : α → α) : List α := l.modify i f

/-! ### Memory: cells in strictly rising address order, none of them zero; an unlisted byte reads as zero (log entry 2, DESIGN CHOICE) -/

/-- The canonical form of memory. -/
def Memory.wf : List Host.Cell → Bool
  | [] => true
  | (a, b) :: m => b != 0 && m.all (fun c => decide (a < c.1)) && Memory.wf m

/-- The byte at an address. -/
def Memory.read : List Host.Cell → Nat → Byte
  | [], _ => 0
  | (k, b) :: m, a => if k = a then b else Memory.read m a

/-- `n` bytes upwards from `a` out of cells none of which lies below `a`. -/
def Memory.fill : Nat → Nat → List Host.Cell → List Byte
  | 0, _, _ => []
  | n + 1, a, [] => 0 :: Memory.fill n (a + 1) []
  | n + 1, a, (k, b) :: m => if k = a then b :: Memory.fill n (a + 1) m else 0 :: Memory.fill n (a + 1) ((k, b) :: m)

/-- `n` bytes upwards from address `a`. -/
def Memory.readN (m : List Host.Cell) (a n : Nat) : List Byte := Memory.fill n a (m.dropWhile (fun c => c.1 < a))

/-- The cells that list bytes upwards from `a`. -/
def Memory.cells : Nat → List Byte → List Host.Cell
  | _, [] => []
  | a, b :: bs => if b = 0 then Memory.cells (a + 1) bs else (a, b) :: Memory.cells (a + 1) bs

/-- Memory with bytes stored upwards from address `a`; the canonical form is kept. -/
def Memory.write (m : List Host.Cell) (a : Nat) (bs : List Byte) : List Host.Cell :=
  m.filter (fun c => c.1 < a) ++ (Memory.cells a bs ++ m.filter (fun c => a + bs.length ≤ c.1))

/-- The bytes of 256-byte sector `k` (R217). -/
def State.sector (s : State) (k : Nat) : List Byte := Memory.readN s.mem (256 * k) 256

def State.rd (s : State) (a n : Nat) : List Byte := Memory.readN s.mem a n

def State.rdNat (s : State) (a n : Nat) : Nat := leNat (s.rd a n)

/-- The first sector that fails its check among those that hold the `n` bytes from `a` (R217, R218). -/
def State.failing (s : State) (a n : Nat) : Option Nat :=
  if n = 0 then none else
  (s.checkWords.find? (fun e => a / 256 ≤ e.1 && e.1 ≤ (a + n - 1) / 256)).map Prod.fst

/-- Bytes stored inside one sector: a whole sector gets a new check word; a part of a failing sector is not written (R155, R217). -/
def State.storeSector (s : State) (a : Nat) (bs : List Byte) : State :=
  if bs.length = 256 then
    { s with mem := Memory.write s.mem a bs, checkWords := s.checkWords.erase (a / 256) }
  else if (s.checkWords.find (a / 256)).isSome then s
  else { s with mem := Memory.write s.mem a bs }

/-- Bytes stored sector by sector. -/
def State.storeSectors : Nat → State → Nat → List Byte → State
  | 0, s, _, _ => s
  | n + 1, s, a, bs =>
    if bs.isEmpty then s else
    let k := 256 - a % 256
    State.storeSectors n (s.storeSector a (bs.take k)) (a + k) (bs.drop k)

/-- A write by Charov, or by anything else that reaches memory through its controllers. -/
def State.store (s : State) (a : Nat) (bs : List Byte) : State :=
  if s.checkWords.isEmpty then { s with mem := Memory.write s.mem a bs }
  else State.storeSectors (bs.length / 256 + 2) s a bs

/-- A sector that takes bytes together with the check word it arrived with (R193, R330): it fails later if the word is not the CRC-32C of the bytes. -/
def State.storeChecked (s : State) (a : Nat) (bs : List Byte) (word : BitVec 32) : State :=
  let s := s.store a bs
  if crc32c bs = word.toNat then s else { s with checkWords := s.checkWords.put (a / 256) word }

/-! ### Fields of records in memory -/

/-- The value of a field of the record at `base`. -/
def State.fld (s : State) (base : Nat) (f : Fld) : Nat :=
  (s.rdNat (base + f.lo / 8) (f.hi / 8 + 1 - f.lo / 8) >>> (f.lo % 8)) % 2 ^ f.width

/-- The record at `base` with a field written. -/
def State.setFld (s : State) (base : Nat) (f : Fld) (v : Nat) : State :=
  let a := base + f.lo / 8
  let n := f.hi / 8 + 1 - f.lo / 8
  let g : Fld := ⟨f.hi - 8 * (f.lo / 8), f.lo % 8⟩
  s.store a (leBytes n (g.set (s.rdNat a n) v))

/-- Several fields written one after another. -/
def State.setFlds (s : State) (base : Nat) (fs : List (Fld × Nat)) : State :=
  fs.foldl (fun s p => s.setFld base p.1 p.2) s

/-- The lowest bit set in any of the fields, if one is (R4). -/
def rsvdBit (v : Nat) (fs : List Fld) : Option Nat :=
  (fs.filterMap (fun f => if f.get v = 0 then none else (List.range f.width).find? (fun i => bit (f.get v) i) |>.map (· + f.lo))).head?

/-! ### The Chart's values -/

/-- The default of an entry (R449). -/
def chartDefault (key : Nat) : Nat :=
  match chartEntry (key / 256) (key % 256) with
  | some e => e.dflt
  | none => 0

/-- The value the Chart holds for an entry that is kept as such. -/
def State.ch (s : State) (key : Nat) : Nat :=
  match s.chart.find key with
  | some v => v
  | none => chartDefault key

def State.setCh (s : State) (key v : Nat) : State := { s with chart := s.chart.put key v }

/-- A counter that wraps modulo 2^`w`. -/
def State.count (s : State) (key w : Nat) (n : Nat := 1) : State := s.setCh key ((s.ch key + n) % 2 ^ w)

/-- A sticky U32 counter (R450). -/
def State.countSticky (s : State) (key : Nat) (n : Nat := 1) : State := s.setCh key (min (s.ch key + n) 0xFFFFFFFF)

/-- A BLOB entry written; ENTRY_GEN counts the changes (R460). -/
def State.setBlob (s : State) (key v : Nat) : State :=
  if s.ch key = v then s
  else { s.setCh key v with entryGen := s.entryGen.put key ((s.entryGen.getD key 0 + 1) % 2 ^ 32) }

/-- A BLOB entry that the Chart computes from other state has changed. -/
def State.blobChanged (s : State) (key : Nat) : State :=
  { s with entryGen := s.entryGen.put key ((s.entryGen.getD key 0 + 1) % 2 ^ 32) }

/-- The generation slots after a change; TABLE of a slot whose serialised form differs has changed (R209, R460). -/
def State.setGens (s : State) (gens : List GenSlot) : State :=
  let old := s.skerry.gens
  (List.range 4).foldl (fun (s : State) k =>
    let a := old.getD k GenSlot.reset
    let b := gens.getD k GenSlot.reset
    if a.kind = b.kind ∧ a.scope = b.scope ∧ a.lengths = b.lengths then s else s.blobChanged (Ch.table + 256 * k)) { s with skerry := { s.skerry with gens := gens } }

/-! ### Outputs, power, free values -/

def State.out (s : State) (o : Output) : State := { s with outbox := o :: s.outbox }

/-- Charov is asleep while POWER_STATE is 0 (R448). (log entry 8, DEDUCED.) -/
def State.asleep (s : State) : Bool := s.ch Ch.powerState == 0

/-- A fast domain is awake: 0 Pilot and Ferry, 1 Skerry and Shoal, 2 Causeway (R432). -/
def State.awake (s : State) (dom : Nat) : Bool := bit (s.ch Ch.powerState) dom

/-- A wake source has arrived (R19, R429). -/
def State.wake (s : State) : State := if s.ch Ch.powerState = 7 then s else { s with wakePending := true }

/-- Microcode has passed its check and runs (R23, R438). -/
def State.pilotRuns (s : State) : Bool := s.ch Ch.mcState == 2

/-- The highest WARN_ACTION of the rails in warning (R441). -/
def State.warnLevel (s : State) : Nat :=
  (List.range 5).foldl (fun m r => if (s.rails.getD r Rail.reset).active then max m (s.ch (Ch.warnAction + 256 * r)) else m) 0

/-- Nothing of this urgency is dispatched during the warning (R441). -/
def State.paused (s : State) (urgency : Nat) : Bool := decide (2 ≤ s.warnLevel) || (s.warnLevel == 1 && decide (1 ≤ urgency))

/-- Bytes that the spec gives no value (log entry 4, DESIGN CHOICE). -/
def State.freeBytes (s : State) (n : Nat) : List Byte := (List.range n).map (fun i => Config.freeByte (s.freeCount + i))

def State.drew (s : State) (n : Nat) : State := { s with freeCount := s.freeCount + n }

/-- Microseconds in standby cycles of 80 ns (R423). -/
def microseconds (cycles : Nat) : Nat := cycles * 2 / 25

/-! ### Harbour regions -/

/-- The Harbour regions that are not UNASSIGNED (REGION_STATE, 16_chart.md). -/
def State.regions (s : State) : List Nat :=
  s.chart.filterMap (fun e => if e.1 % 256 = 3 ∧ 0x2100 ≤ e.1 / 256 ∧ e.1 / 256 < 0x2200 ∧ e.2 ≠ 0 then some (e.1 / 256 - 0x2100) else none)

def State.regionBase (s : State) (r : Nat) : Nat := s.ch (Ch.regionBase + 256 * r)
def State.stackBytes (s : State) (r : Nat) : Nat := s.ch (Ch.stackBytes + 256 * r)
def State.regionState (s : State) (r : Nat) : Nat := s.ch (Ch.regionState + 256 * r)

/-- Bytes `a` to `a + n - 1` lie in region r on one stack (the range of a region, 16_chart.md). -/
def State.inRegion (s : State) (r a n : Nat) : Bool :=
  let k := a / 2 ^ 38
  let o := a % 2 ^ 38
  k < 20 && s.regionBase r ≤ o && o + n ≤ s.regionBase r + s.stackBytes r

/-- The assigned region that holds the bytes. -/
def State.regionOf (s : State) (a n : Nat) : Option Nat := s.regions.find? (fun r => s.inRegion r a n)

/-- The lowest byte from `x` on, below `stop`, that lies in no assigned region; `fuel` bounds the regions crossed. -/
def State.outsideFrom (s : State) (stop : Nat) : Nat → Nat → Option Nat
  | 0, x => if stop ≤ x then none else some x
  | fuel + 1, x =>
    if stop ≤ x then none
    else match s.regionOf x 1 with
      | none => some x
      | some r => s.outsideFrom stop fuel (x / 2 ^ 38 * 2 ^ 38 + s.regionBase r + s.stackBytes r)

/-- The lowest of the bytes that lies in no assigned Harbour region; the others may lie in several. -/
def State.firstOutside (s : State) (a n : Nat) : Option Nat := s.outsideFrom (a + n) (20 * s.regions.length + 1) a

/-- An address in the Harbour: it has bits [51:43] clear and names a stack below 20 (R185). -/
def inHarbour (a : Nat) : Bool := a < 20 * 2 ^ 38

/-- The ranges `a, n` and `b, m` of bytes have one in common. -/
def overlap (a n b m : Nat) : Bool := decide (a < b + m ∧ b < a + n)

/-- An access that reaches a byte of a region that is FILLING waits (R217). -/
def State.filling (s : State) (a n : Nat) : Bool :=
  n != 0 && (s.regions.filter (fun r => s.regionState r == 1)).any (fun r =>
    (List.range 20).any (fun k => overlap a n (k * 2 ^ 38 + s.regionBase r) (s.stackBytes r)))

/-! ### Events -/

/-- An event to be raised: code, object, arguments, the context concerned, and the 128-bit arguments of its continuation records (R472, R474, R476). -/
structure Ev where
  code : Nat
  obj  : Nat := 0xFFFFFFFF
  a    : Nat := 0
  b    : Nat := 0
  ctx  : Option Nat := none
  more : List Nat := []
  deriving DecidableEq, Repr

/-- An argument that holds an address and a cause (R472). -/
def evAddr (addr cause : Nat) : Nat := addr % 2 ^ 52 + cause * 2 ^ 56

/-- The fields that the first record and its continuations share, bits [127:0]; PHASE is set where the record is written. -/
def evLow (e : Ev) (time seq : Nat) (held more : Bool) : Nat :=
  time % 2 ^ 48 * 2 ^ 80 + seq % 2 ^ 48 * 2 ^ 32 + e.code * 2 ^ 16 + e.ctx.getD 0 % 2 ^ 12 * 2 ^ 4
    + (if held then 4 else 0) + (if e.ctx.isSome then 2 else 0) + (if more then 1 else 0)

/-- The chain of records of an event (R474). -/
def evChain (e : Ev) (time seq : Nat) (held : Bool) : List Nat :=
  let n := e.more.length
  (e.a % 2 ^ 64 * 2 ^ 192 + e.b % 2 ^ 32 * 2 ^ 160 + e.obj % 2 ^ 32 * 2 ^ 128 + evLow e time seq held (n != 0))
    :: (List.range n).map (fun i => nth e.more i 0 % 2 ^ 128 * 2 ^ 128 + evLow e time seq held (i + 1 != n))

/-- The number of records held (HELD_EVENTS, R431). -/
def Events.heldRecords (ev : Events) : Nat := (ev.held.map List.length).foldl (· + ·) 0

/-- One record written to the ring at EVRING_TAIL, which advances; a part of a failing sector loses the record (R475). -/
def State.ringWrite (s : State) (r : Nat) : State :=
  let size := 2 ^ s.ch Ch.evringLog2
  let tail := s.ch Ch.evringTail
  let a := s.ch Ch.evringBase + 32 * (tail % size)
  let s := if (s.failing a 32).isSome then
      let s := s.countSticky Ch.eventsLost
      match s.regionOf a 32 with
      | some g => s.countSticky (Ch.detectCount + 256 * g)
      | none => s
    else s.store a (leBytes 32 (EventRec.phase.set r (if tail / size % 2 = 0 then 1 else 0)))
  s.setCh Ch.evringTail ((tail + 1) % 2 ^ 32)

/-- A chain written to the ring whole, or lost and counted once (R470, R474, R475). -/
def State.ringChain (s : State) (chain : List Nat) : State :=
  let used := (s.ch Ch.evringTail + 2 ^ 32 - s.ch Ch.evringHead) % 2 ^ 32
  if s.ch Ch.evringEnable = 1 ∧ used + chain.length ≤ 2 ^ s.ch Ch.evringLog2 then
    (chain.foldl State.ringWrite s).out (.interrupt (s.ch Ch.evringVector))
  else s.countSticky Ch.eventsLost

/-- The Lighthouse holds an event while the fast domains sleep (R431, R443, R458). -/
def State.holdChain (s : State) (chain : List Nat) : State :=
  if s.events.heldRecords + chain.length ≤ 256 then
    let s := { s with events := { s.events with held := s.events.held ++ [chain] } }
    let s := (s.blobChanged Ch.heldRecords)
    let s := if s.ch Ch.ibiEnable = 1 then s.out .inBandInterrupt else s
    if 192 ≤ s.events.heldRecords then s.wake else s
  else s.countSticky Ch.heldLost

/-- An event is raised and numbered (R473; each event of a step is raised in a cycle of its own, log entry 7, DESIGN CHOICE). -/
def State.raise (s : State) (e : Ev) : State :=
  let chain := evChain e s.clock.cycles s.events.next s.asleep
  let s' := { s with events := { s.events with next := (s.events.next + 1) % 2 ^ 48 } }
  if s.asleep then s'.holdChain chain else s'.ringChain chain

/-- The number the next event will carry, for a DETAIL field (R139, R473). -/
def State.nextEvent (s : State) : Nat := s.events.next

/-- The held events go to the ring at a wake, oldest first (R431, R475). -/
def State.flushHeld (s : State) : State :=
  let held := s.events.held
  if held.isEmpty then s else
  let s := { s with events := { s.events with held := [] } }
  (held.foldl State.ringChain s).blobChanged Ch.heldRecords

/-- SECTOR_DETECTED for a sector of an assigned region, with the stored and computed check words (R218). -/
def State.sectorDetected (s : State) (sec : Nat) (stream tile : Nat) (ctx : Option Nat) : State :=
  let stored := (s.checkWords.getD sec 0).toNat
  let s' := match s.regionOf (256 * sec) 256 with
    | some r => s.countSticky (Ch.detectCount + 256 * r)
    | none => s
  s'.raise ⟨0x0301, stream, evAddr (256 * sec) 0, tile, ctx, [stored + crc32c (s.sector sec) * 2 ^ 32]⟩

/-- WRITE_REFUSED (R48): 0 server core, 1 command, 2 window. -/
def State.writeRefused (s : State) (addr by_ : Nat) (ctx : Option Nat) : State :=
  s.raise ⟨0x0B03, 0xFFFFFFFF, evAddr addr 0, by_, ctx, []⟩

end Sys2Proof.Machine
end

