-- ==== Sys2Proof/Machine/Flags.lean ====
section
/-! DEFINITION. The codes by which the block answers and reports: completion statuses (R139), reply statuses (R459), the encodings of stream, task, plan, queue and channel states, and the numbers an arithmetic result sets. -/

namespace Sys2Proof.Machine

/-! ### Completion statuses (R139) -/
abbrev St.success : Nat := 0x00
abbrev St.badVersion : Nat := 0x01
abbrev St.badOpcode : Nat := 0x02
abbrev St.contextMismatch : Nat := 0x03
abbrev St.urgencyDenied : Nat := 0x04
abbrev St.rsvdSet : Nat := 0x05
abbrev St.badEncoding : Nat := 0x06
abbrev St.width : Nat := 0x07
abbrev St.zeroInvalid : Nat := 0x08
abbrev St.badLength : Nat := 0x09
abbrev St.alignment : Nat := 0x0A
abbrev St.noObject : Nat := 0x0B
abbrev St.streamState : Nat := 0x20
abbrev St.planState : Nat := 0x21
abbrev St.notPlanOwner : Nat := 0x22
abbrev St.planInvalid : Nat := 0x23
abbrev St.objectOwned : Nat := 0x24
abbrev St.protected_ : Nat := 0x25
abbrev St.flushed : Nat := 0x26
abbrev St.restartDenied : Nat := 0x27
abbrev St.pageFault : Nat := 0x40
abbrev St.busError : Nat := 0x41
abbrev St.detected : Nat := 0x42
abbrev St.codecDamage : Nat := 0x43
abbrev St.capacity : Nat := 0x44
abbrev St.dieLost : Nat := 0x45
abbrev St.ownerLost : Nat := 0x46
abbrev St.groupAborted : Nat := 0x47
abbrev St.reefLost : Nat := 0x48
abbrev St.digestMismatch : Nat := 0x49
abbrev St.mismatch : Nat := 0x4A
abbrev St.buoyError : Nat := 0x4B
abbrev St.contextTorn : Nat := 0x4C
abbrev St.stackLost : Nat := 0x4D
abbrev St.ringTag : Nat := 0x4E

/-! ### Reply statuses (R459) -/
abbrev Cs.ok : Nat := 0x00
abbrev Cs.noEntry : Nat := 0x01
abbrev Cs.access : Nat := 0x02
abbrev Cs.type : Nat := 0x03
abbrev Cs.range : Nat := 0x04
abbrev Cs.state : Nat := 0x05
abbrev Cs.path : Nat := 0x06
abbrev Cs.segment : Nat := 0x07
abbrev Cs.eidUnset : Nat := 0x08

/-! ### Opcodes (R132) -/
abbrev Op.stow : Nat := 0x01
abbrev Op.fetch : Nat := 0x02
abbrev Op.recompute : Nat := 0x03
abbrev Op.discard : Nat := 0x04
abbrev Op.signal : Nat := 0x05
abbrev Op.wait : Nat := 0x06
abbrev Op.fence : Nat := 0x07
abbrev Op.inlineWrite : Nat := 0x08
abbrev Op.tableLoad : Nat := 0x09
abbrev Op.tableBuild : Nat := 0x0A
abbrev Op.planLoad : Nat := 0x0B
abbrev Op.snapshot : Nat := 0x0C
abbrev Op.digest : Nat := 0x0D
abbrev Op.restore : Nat := 0x0E
abbrev Op.update : Nat := 0x10
abbrev Op.exportC : Nat := 0x11
abbrev Op.importC : Nat := 0x12
abbrev Op.move : Nat := 0x13
abbrev Op.compare : Nat := 0x15
abbrev Op.nop : Nat := 0x1F

/-- Statuses of the standard of R139 whose DETAIL names an event. -/
def detailIsEvent (st : Nat) : Bool := 0x40 ≤ st && st != St.mismatch

end Sys2Proof.Machine

namespace Sys2Proof

open Machine

/-- The status a memory read or write ends with (R139). -/
def MemResult.status : MemResult → Nat
  | .ok => St.success
  | .pageFault _ => St.pageFault
  | .busError _ => St.busError

def MemResult.addr : MemResult → Nat
  | .ok => 0
  | .pageFault a => a
  | .busError a => a

end Sys2Proof

namespace Sys2Proof.Machine

/-! ### Plan states (R97) -/
abbrev Pl.empty : Nat := 0
abbrev Pl.loading : Nat := 1
abbrev Pl.loaded : Nat := 2
abbrev Pl.running : Nat := 3
abbrev Pl.stopped : Nat := 4

/-! ### Queue states (R112) -/
abbrev Qs.disabled : Nat := 0
abbrev Qs.enabled : Nat := 1
abbrev Qs.draining : Nat := 2
abbrev Qs.error : Nat := 3

end Sys2Proof.Machine
end

