-- ==== Sys2Proof/Machine/Operands.lean ====
section
/-! DEFINITION. The operand forms of a 64-byte command: the fields of each opcode (R130, R134), and the checks 1 to 9 of R131, which read the command and its queue alone. -/

namespace Sys2Proof.Machine

/-- A field of the command. -/
def cmdGet (w : Nat) (f : Fld) : Nat := f.get w

/-- The header fields that every command has (R130). -/
def headerFields : List Fld :=
  [Cmd.compCount, Cmd.compBuoy, Cmd.sequence, Cmd.context, Cmd.interrupt, Cmd.signal, Cmd.noRecord, Cmd.urgency, Cmd.version, Cmd.opcode]

/-- The body and OP_FLAGS fields of an opcode (R134); none for a reserved opcode (R132). -/
def bodyFields (op : Nat) : Option (List Fld) :=
  if op = Op.stow then some [CmdStow.stream, CmdStow.tileFirst, CmdStow.tileCount, CmdStow.channel, CmdStow.source]
  else if op = Op.fetch then some [CmdFetch.stream, CmdFetch.tileFirst, CmdFetch.tileCount, CmdFetch.channel, CmdFetch.lookahead, CmdFetch.dest, CmdFetch.destKind, CmdFetch.transpose, CmdFetch.toDrain]
  else if op = Op.recompute then some [CmdFetch.stream, CmdFetch.tileFirst, CmdFetch.tileCount, CmdFetch.engine, CmdFetch.dest, CmdFetch.destKind, CmdFetch.transpose]
  else if op = Op.discard then some [CmdDiscard.stream, CmdDiscard.count]
  else if op = Op.signal then some [CmdBuoy.buoy, CmdBuoy.count, CmdBuoy.package, CmdBuoy.remote]
  else if op = Op.wait then some [CmdBuoy.buoy, CmdBuoy.count, CmdBuoy.package, CmdBuoy.round, CmdBuoy.remote, CmdBuoy.barrier]
  else if op = Op.fence then some [CmdFence.scope]
  else if op = Op.inlineWrite then some [CmdInline.data, CmdInline.address, CmdInline.length]
  else if op = Op.tableLoad then some [CmdTable.stream, CmdTable.bytes, CmdTable.source, CmdTable.kind]
  else if op = Op.tableBuild then some [CmdTable.stream, CmdTable.bytes, CmdTable.samples, CmdTable.source, CmdTable.kind]
  else if op = Op.planLoad then some [CmdPlan.image, CmdPlan.action]
  else if op = Op.snapshot ∨ op = Op.restore then some [CmdSet.set, CmdSet.descriptor, CmdSet.setKind]
  else if op = Op.digest then some [CmdDigest.result, CmdDigest.bytes, CmdDigest.base]
  else if op = Op.update then some [CmdUpdate.shard, CmdUpdate.program, CmdUpdate.engine, CmdUpdate.args, CmdUpdate.grad]
  else if op = Op.exportC ∨ op = Op.importC then some [CmdExport.object, CmdExport.channel, CmdExport.package, CmdExport.bytes, CmdExport.address, CmdExport.objectKind, CmdExport.remote]
  else if op = Op.move then some [CmdMove.bytes, CmdMove.channel, CmdMove.dst, CmdMove.src, CmdMove.srcReef, CmdMove.dstReef]
  else if op = Op.compare then some [CmdCompare.bytes, CmdCompare.b, CmdCompare.a, CmdCompare.mode]
  else if op = Op.nop then some []
  else none

/-- The engine that a command names. -/
def cmdEngine (w : Nat) : Option (Nat × Fld) :=
  let op := cmdGet w Cmd.opcode
  if op = Op.recompute then some (cmdGet w CmdFetch.engine, CmdFetch.engine)
  else if op = Op.update then some (cmdGet w CmdUpdate.engine, CmdUpdate.engine)
  else none

/-- The bits that a list of fields covers. -/
def fieldMask (fs : List Fld) : Nat := fs.foldl (fun m f => m ||| ((2 ^ f.width - 1) <<< f.lo)) 0

/-- The lowest set bit of a 512-bit value. -/
def lowestBit (v : Nat) : Option Nat := (List.range 512).find? (fun i => bit v i)

/-- The fields that must be zero because of another field's value (R130, R134); they count as RSVD (log entry 11, DEDUCED). -/
def zeroFields (w : Nat) : List Fld :=
  let op := cmdGet w Cmd.opcode
  (if cmdGet w Cmd.signal = 0 then [Cmd.compCount, Cmd.compBuoy] else [])
  ++ (if op = Op.inlineWrite ∧ cmdGet w CmdInline.length < 40 then [⟨447, 128 + 8 * cmdGet w CmdInline.length⟩] else [])
  ++ (if (op = Op.signal ∨ op = Op.wait) ∧ cmdGet w CmdBuoy.remote = 0 then [CmdBuoy.package] else [])
  ++ (if op = Op.wait ∧ cmdGet w CmdBuoy.barrier = 0 then [CmdBuoy.round] else [])
  ++ (if op = Op.fetch ∨ op = Op.recompute then
        (if cmdGet w CmdFetch.destKind = 0 then [CmdFetch.transpose, CmdFetch.toDrain] else if cmdGet w CmdFetch.destKind = 3 then [] else [⟨127, 80⟩]) else [])
  ++ (if op = Op.planLoad ∧ 3 ≤ cmdGet w CmdPlan.action ∧ cmdGet w CmdPlan.action ≤ 4 then [CmdPlan.image] else [])
  ++ (if op = Op.restore then [CmdSet.descriptor] else [])
  ++ (if (op = Op.exportC ∨ op = Op.importC) ∧ cmdGet w CmdExport.remote = 0 then [CmdExport.package] else [])

/-- The RSVD bits of a command that are set (R131 step 5). -/
def cmdRsvd (w : Nat) (body : List Fld) : Nat :=
  w &&& ((2 ^ 512 - 1) ^^^ fieldMask (headerFields ++ body) ||| fieldMask (zeroFields w))

/-- The field that holds a reserved encoding, if one does (R131 step 6). -/
def cmdEncoding (w : Nat) : Option Fld :=
  let op := cmdGet w Cmd.opcode
  if (op = Op.fetch ∨ op = Op.recompute) ∧ cmdGet w CmdFetch.destKind = 3 then some CmdFetch.destKind
  else if op = Op.planLoad ∧ (cmdGet w CmdPlan.action = 0 ∨ 5 ≤ cmdGet w CmdPlan.action) then some CmdPlan.action
  else if (op = Op.exportC ∨ op = Op.importC) ∧ cmdGet w CmdExport.objectKind = 3 then some CmdExport.objectKind
  else none

/-- The identifier fields of a command with their implemented widths (R8). -/
def cmdWidths (w : Nat) : List (Fld × Nat) :=
  let op := cmdGet w Cmd.opcode
  if op = Op.stow then [(CmdStow.stream, 18), (CmdStow.source, 52)]
  else if op = Op.fetch ∨ op = Op.recompute then [(CmdFetch.stream, 18), (CmdFetch.dest, 52)]
  else if op = Op.discard then [(CmdDiscard.stream, 18)]
  else if op = Op.inlineWrite then [(CmdInline.address, 52)]
  else if op = Op.tableLoad then
    (if cmdGet w CmdTable.stream = 0xFFFFFFFF then [] else [(CmdTable.stream, 18)]) ++ [(CmdTable.source, 52)]
  else if op = Op.tableBuild then [(CmdTable.stream, 18), (CmdTable.samples, 52), (CmdTable.source, 52)]
  else if op = Op.planLoad then [(CmdPlan.image, 52)]
  else if op = Op.snapshot then [(CmdSet.descriptor, 52)]
  else if op = Op.digest then [(CmdDigest.result, 52), (CmdDigest.base, 52)]
  else if op = Op.update then [(CmdUpdate.args, 52), (CmdUpdate.grad, 52)]
  else if op = Op.exportC ∨ op = Op.importC then
    (if cmdGet w CmdExport.objectKind = 0 then [(CmdExport.object, 18)] else []) ++ [(CmdExport.address, 52)]
  else if op = Op.move then [(CmdMove.dst, 52), (CmdMove.src, 52)]
  else if op = Op.compare then [(CmdCompare.b, 52), (CmdCompare.a, 52)]
  else []

/-- The lowest bit set above an implemented width (R131 step 7). -/
def widthBit (w : Nat) (l : List (Fld × Nat)) : Option Nat :=
  lowestBit (w &&& fieldMask (l.map (fun p => ⟨p.1.hi, p.1.lo + p.2⟩)))

/-- The address fields of a command with the alignment R134 asks, and on the Reef R156. -/
def cmdAligned (w : Nat) : List (Fld × Nat) :=
  let op := cmdGet w Cmd.opcode
  if op = Op.stow then [(CmdStow.source, 64)]
  else if op = Op.fetch ∨ op = Op.recompute then (if cmdGet w CmdFetch.destKind = 0 then [(CmdFetch.dest, 64)] else [])
  else if op = Op.tableLoad then [(CmdTable.source, 64)]
  else if op = Op.tableBuild then [(CmdTable.samples, 64)]
  else if op = Op.planLoad then [(CmdPlan.image, 4096)]
  else if op = Op.snapshot then [(CmdSet.descriptor, 64)]
  else if op = Op.digest then [(CmdDigest.base, 65536), (CmdDigest.result, 64)]
  else if op = Op.update then [(CmdUpdate.grad, 64), (CmdUpdate.args, 64)]
  else if op = Op.exportC ∨ op = Op.importC then [(CmdExport.address, 64)]
  else if op = Op.move then
    (if cmdGet w CmdMove.srcReef = 1 then [(CmdMove.src, 32)] else []) ++ (if cmdGet w CmdMove.dstReef = 1 then [(CmdMove.dst, 32)] else [])
  else []

/-- The field whose length breaks a bound of the opcode alone (R131 step 9; R135, R156, R207, R291, R359). -/
def cmdLength (w : Nat) : Option Fld :=
  let op := cmdGet w Cmd.opcode
  if op = Op.inlineWrite then
    let n := cmdGet w CmdInline.length
    if 40 < n ∨ (0 < n ∧ 4096 < cmdGet w CmdInline.address % 4096 + n) then some CmdInline.length else none
  else if op = Op.wait ∧ cmdGet w CmdBuoy.barrier = 1 ∧ 1 < cmdGet w CmdBuoy.count then some CmdBuoy.count
  else if op = Op.tableLoad ∧ 0 < cmdGet w CmdTable.bytes ∧ cmdGet w CmdTable.bytes < 16 ∧ cmdGet w CmdTable.kind = 0 then some CmdTable.bytes
  else if op = Op.digest ∧ cmdGet w CmdDigest.bytes % 65536 ≠ 0 then some CmdDigest.bytes
  else if op = Op.compare ∧ cmdGet w CmdCompare.mode = 1 ∧ cmdGet w CmdCompare.bytes % 65536 ≠ 0 then some CmdCompare.bytes
  else if op = Op.move ∧ (cmdGet w CmdMove.srcReef = 1 ∨ cmdGet w CmdMove.dstReef = 1) ∧ cmdGet w CmdMove.bytes % 32 ≠ 0 then some CmdMove.bytes
  else none

/-- The class a command names is one its queue accepts: URGENCY is not 3 and no more urgent than URGENCY_CAP (R125). -/
def urgencyOk (w ucap : Nat) : Bool := cmdGet w Cmd.urgency != 3 && ucap ≤ cmdGet w Cmd.urgency

/-- Checks 1 to 9 of R131 on a command `w` of a queue with context `ctx` and URGENCY_CAP `ucap`: the status and DETAIL of the first that fails. `gen` is GEN_ACTIVE (R462). -/
def cmdFormat (gen ctx ucap w : Nat) : Option (Nat × Nat) :=
  let op := cmdGet w Cmd.opcode
  if cmdGet w Cmd.version ≠ gen then some (St.badVersion, cmdGet w Cmd.version) else
  match bodyFields op with
  | none => some (St.badOpcode, 0)
  | some body =>
    if cmdGet w Cmd.context ≠ ctx then some (St.contextMismatch, ctx)
    else if cmdGet w Cmd.urgency = 3 then some (St.badEncoding, Cmd.urgency.lo)
    else if cmdGet w Cmd.urgency < ucap then some (St.urgencyDenied, ucap)
    else match lowestBit (cmdRsvd w body) with
    | some b => some (St.rsvdSet, b)
    | none =>
      match cmdEncoding w with
      | some f => some (St.badEncoding, f.lo)
      | none =>
        match widthBit w (cmdWidths w) with
        | some b => some (St.width, b)
        | none =>
          if op = Op.tableBuild ∧ cmdGet w CmdTable.bytes = 0 then some (St.zeroInvalid, CmdTable.bytes.lo) else
          match cmdLength w with
          | some f => some (St.badLength, f.lo)
          | none =>
            match (cmdAligned w).find? (fun p => cmdGet w p.1 % p.2 != 0) with
            | some p => some (St.alignment, p.1.lo)
            | none => none

end Sys2Proof.Machine
end

