-- ==== Sys2Proof/Machine/Messages.lean ====
section
/-! DEFINITION. Cascade messages: the package map (R395), sending in SEQ order and keeping until acknowledged (R392, R394). The layouts of ARG and payload that the spec does not state are log entry 13, DESIGN CHOICE. -/

namespace Sys2Proof.Machine

/-- The descriptor of a queue (R110). -/
def State.queueBase (s : State) (q : Nat) : Nat := s.ch Ch.qtableBase + 64 * q

/-- The state of a queue is what its descriptor in memory holds (R111; log entry 106, DEDUCED). -/
def State.queueState (s : State) (q : Nat) : Nat := s.fld (s.queueBase q) QueueDesc.state
/-- The queues that are not DISABLED, ascending. -/
def State.openQueues (s : State) : List Nat := (List.range (s.ch Ch.qtableCount)).filter (fun q => s.queueState q != 0)

/-- Setup: every queue DISABLED and the plan EMPTY (R448). -/
def State.inSetup (s : State) : Bool := s.openQueues.isEmpty && s.ch Ch.planState == 0
/-- A plan is loaded while it is LOADED, RUNNING or STOPPED (R97, R437). -/
def State.planLoaded (s : State) : Bool := 2 ≤ s.ch Ch.planState

/-! ### Message kinds (R393) -/
abbrev Mk.heartbeat : Nat := 1
abbrev Mk.buoyOp : Nat := 2
abbrev Mk.buoyReply : Nat := 3
abbrev Mk.data : Nat := 4
abbrev Mk.dataDone : Nat := 5
abbrev Mk.epochReport : Nat := 6
abbrev Mk.digestRoot : Nat := 7
abbrev Mk.treeRequest : Nat := 8
abbrev Mk.treeData : Nat := 9
abbrev Mk.chartRequest : Nat := 10
abbrev Mk.chartReply : Nat := 11
abbrev Mk.memberNotice : Nat := 12

/-- This package's logical index (R298). -/
def State.self (s : State) : Nat := s.ch Ch.selfPackage

/-- The map record of a logical package as one number (R395). -/
def State.mapRecord (s : State) (pkg : Nat) : Nat := s.rdNat (s.ch Ch.pkgMapBase + 16 * pkg) 16

/-- The package has a VALID map record (R395). -/
def State.pkgValid (s : State) (pkg : Nat) : Bool := decide (pkg < s.ch Ch.pkgMapCount) && bit (s.mapRecord pkg) 0

def mapMac (rec : Nat) : Nat := Fld.get ⟨127, 80⟩ rec
def mapPosition (rec : Nat) : Nat := Fld.get ⟨66, 64⟩ rec
def mapTag (rec : Nat) : Option Nat := if bit rec 67 then some (Fld.get ⟨79, 68⟩ rec) else none
def mapGroup (rec : Nat) : Nat := Fld.get ⟨63, 32⟩ rec

/-- The logical packages of the map that are in this package's tier group, at a position (R395, R396). -/
def State.pkgAt (s : State) (pos : Nat) : Option Nat :=
  (List.range (s.ch Ch.pkgMapCount)).find? (fun i =>
    let r := s.mapRecord i
    bit r 0 && mapPosition r == pos && mapGroup r == s.ch Ch.groupId)

/-- This package's position, from its straps (R396). -/
def strapPos : Nat := Config.strapPosition.val

/-- MASTER_POSITION (R397). -/
def State.masterPosition (s : State) : Nat := if s.ch Ch.masterOverride = 0xFF then 0 else s.ch Ch.masterOverride

def State.isMaster (s : State) : Bool := s.masterPosition == strapPos

/-- The members of the group other than this package, by position. -/
def State.otherMembers (s : State) : List Nat := (List.range 8).filter (fun p => bit (s.ch Ch.members) p && p != strapPos)

/-- A field of the installed plan's header (R68); zero with no plan. -/
def State.planHdr (s : State) (f : Fld) : Nat :=
  match s.plan.tables with
  | some t => s.fld t.header f
  | none => 0

/-- The epoch a message carries: the loaded plan's, 0 with no plan loaded (R392). -/
def State.epoch (s : State) : Nat := if s.planLoaded then s.planHdr PlanHdr.planEpoch else 0

def Peer.fresh : Peer := ⟨0, 0, [], 0, false, false, false⟩

def State.peer (s : State) (pkg : Nat) : Peer := s.cascade.peers.getD pkg Peer.fresh

def State.setPeer (s : State) (pkg : Nat) (p : Peer) : State :=
  { s with cascade := { s.cascade with peers := s.cascade.peers.put pkg p } }

/-- What waits under a key of the inbox. -/
def State.inbox (s : State) (k : Inbox) : Option (List Byte) := (s.cascade.incoming.find? (fun e => e.1 == k)).map Prod.snd
def State.takeInbox (s : State) (k : Inbox) : State := { s with cascade := { s.cascade with incoming := s.cascade.incoming.filter (fun e => e.1 != k) } }
def State.putInbox (s : State) (k : Inbox) (bs : List Byte) : State :=
  { s with cascade := { s.cascade with incoming := s.cascade.incoming.filter (fun e => e.1 != k) ++ [(k, bs)] } }
/-- Bytes are added to what has come under a key. -/
def State.addInbox (s : State) (k : Inbox) (bs : List Byte) : State := s.putInbox k ((s.inbox k).getD [] ++ bs)

/-- MSG_CRC: over the header with that field zero, and the payload (R392). -/
def msgCrc (hdr : Nat) (payload : List Byte) : Nat := crc32c (leBytes 32 (MsgHdr.msgCrc.set hdr 0) ++ payload)

/-- The header of a message of this package. -/
def State.msgHeader (s : State) (dst kind seq ack arg : Nat) (payload : List Byte) : Nat :=
  let h := [(MsgHdr.planEpoch, s.epoch), (MsgHdr.groupId, s.ch Ch.groupId), (MsgHdr.length, payload.length), (MsgHdr.ack, ack),
    (MsgHdr.seq, seq), (MsgHdr.dstPackage, dst), (MsgHdr.srcPackage, s.self), (MsgHdr.kind, kind), (MsgHdr.formatGen, 3),
    (MsgHdr.arg, arg)].foldl (fun v p => p.1.set v p.2) 0
  MsgHdr.msgCrc.set h (msgCrc h payload)

/-- A frame leaves by the cascade ports, with the address and the tag of the package's map record (R392, R395). -/
def State.transmit (s : State) (pkg : Nat) (f : Frame) : State :=
  let r := s.mapRecord pkg
  s.out (.message pkg ⟨mapMac r, mapTag r, s.ch Ch.ethertype, f⟩)

/-- A message to a package: numbered on the pair, sent, and kept until ACK covers it (R394). -/
def State.send (s : State) (dst kind arg : Nat) (payload : List Byte) : State :=
  let p := s.peer dst
  let seq := (p.txSeq + 1) % 65536
  let f : Frame := ⟨mapMac (s.mapRecord s.self), BitVec.ofNat 256 (s.msgHeader dst kind seq p.rxSeq arg payload), payload⟩
  (s.setPeer dst { p with txSeq := seq, unacked := p.unacked ++ [f] }).transmit dst f

end Sys2Proof.Machine
end

