-- ==== Sys2Proof/Machine/ChartAccess.lean ====
section
/-! DEFINITION. One Chart access: the checks of R483 in their order, the write rights of a path (R454), and the reply on each path (R455, R457, R460). -/

namespace Sys2Proof

def Path.isMctp : Path → Bool
  | .mctp => true
  | _ => false

/-- The value a request writes. -/
def Req.value (r : Req) : Nat := leNat r.data

end Sys2Proof

namespace Sys2Proof.Machine

/-- What a reply carries (R455). -/
structure ChReply where
  status : Nat
  total  : Nat
  gen    : Nat
  data   : List Byte
  deriving DecidableEq, Repr

/-- What an entry adds to the common checks of a write: check 8 (range), check 9 (state), check 10 (parameters), and the effect of an accepted write. -/
structure ChAct where
  range  : Bool
  state  : Bool
  params : Bool
  effect : State → State

/-- An index that R11 and R464 close: 0xD000 to 0xFFFF, but for locked test access with strap TEST high. -/
def chartClosed (index : Nat) : Bool := 0xD000 ≤ index && !(0xFF00 ≤ index && Config.strapTest)

/-- The path may write the entry (R454). -/
def State.pathMay (s : State) (p : Path) (index sub : Nat) : Bool :=
  match p with
  | .mailbox _ => true
  | .mctp =>
    (index == 0x1000 && sub == 6) || (index == 0x9180 && (sub == 1 || sub == 2))
    || (0xB100 ≤ index && index ≤ 0xB104 && (sub == 2 || sub == 4 || sub == 6 || sub == 7))
    || (index == 0xB010 && sub == 1) || (index == 0xB000 && sub == 3) || (index == 0x1110 && (sub == 5 || sub == 6))
  | .cascade =>
    s.ch Ch.remoteChart == 1
    && !((index == 0x1201 && (sub == 2 || sub == 3)) || (index == 0x1100 && sub == 3)
      || (index == 0xB020 && (sub == 3 || sub == 4)) || (index == 0xB010 && sub == 1))

/-- The status of a WRITE: the first check of R483 that fails, or OK. -/
def State.writeStatus (s : State) (index sub : Nat) (r : Req) (act : ChAct) : Nat :=
  if r.path.isMctp && s.ch Ch.mctpEid == 0 then Cs.eidUnset
  else if 256 < r.data.length then Cs.type
  else match (if chartClosed index then none else chartEntry index sub) with
  | none => Cs.noEntry
  | some e =>
    if e.acc = .ro ∨ e.acc = .const then Cs.access
    else if !s.pathMay r.path index sub then Cs.path
    else if r.offset ≠ 0 then Cs.segment
    else if r.data.length ≠ e.type.size then Cs.type
    else if !act.range || (e.type == .bool && 1 < leNat r.data) then Cs.range
    else if !act.state || (e.acc == .rws && !(s.inSetup || s.asleep)) then Cs.state
    else if !act.params then Cs.range
    else Cs.ok

/-- The mailbox window (R455). -/
def mailboxBase : Nat := 0x000FF00004000000
def mailboxSlot (k : Nat) : Nat := mailboxBase + 1024 * k

/-- The header of a request or of its response (R455); `state` is SLOT_STATE, 0 on MCTP (R457). -/
def chartHeader (op index sub : Nat) (r : Req) (rep : ChReply) (len state : Nat) : Nat :=
  [(MailboxHdr.entryGen, rep.gen), (MailboxHdr.total, rep.total), (MailboxHdr.offset, r.offset), (MailboxHdr.length, len),
   (MailboxHdr.status, rep.status), (MailboxHdr.seq, r.seq), (MailboxHdr.subindex, sub), (MailboxHdr.index, index),
   (MailboxHdr.op, op), (MailboxHdr.slotState, state)].foldl (fun v p => p.1.set v p.2) 0

/-- The reply is given on the path the request came by: the mailbox slot gets the response, its word last with SLOT_STATE 2 (R456) and zero in every RSVD bit of the header (R3); a request that came as CHART_REQUEST is answered by CHART_REPLY with the request's ARG (R393), its package and ARG standing above SEQ in `seq` (log entry 13, DESIGN CHOICE). -/
def State.reply (s : State) (op index sub : Nat) (r : Req) (rep : ChReply) : State :=
  let s := match r.path with
    | .mailbox k =>
      let s := s.store (mailboxSlot k + 64) (if op = 1 then rep.data else if op = 3 then rep.data else r.data)
      s.store (mailboxSlot k) (leBytes 64 (chartHeader op index sub r rep rep.data.length 2))
    | _ => s
  if r.path = .cascade ∧ 2 ^ 80 ≤ r.seq then
    s.send (r.seq / 2 ^ 80 - 1) Mk.chartReply (r.seq / 2 ^ 16 % 2 ^ 64) (leBytes 24 (chartHeader op index sub r rep rep.data.length 0) ++ rep.data)
  else s.out (.chartReply r.path r.seq rep.status rep.total rep.gen rep.data)

/-- A store that begins a mailbox request while the slot is not FREE is ignored and counted (R456). -/
def State.slotBusy (s : State) (p : Path) : Bool :=
  match p with
  | .mailbox k => s.fld (mailboxSlot k) MailboxHdr.slotState != 0 || 4 ≤ k
  | _ => false

/-- The reply to a WRITE, its effect, and PATH_REFUSALS for a write the path may not make (R454, R483). -/
def State.writeReply (s : State) (index sub : Nat) (r : Req) (act : ChAct) : State × ChReply :=
  let st := s.writeStatus index sub r act
  let size := match chartEntry index sub with
    | some e => e.type.size
    | none => 0
  let s := if st = Cs.ok then act.effect s else if st = Cs.path then s.countSticky Ch.pathRefusals else s
  let gen := match chartEntry index sub with
    | some e => if e.type.isBlob then s.entryGen.getD (index * 256 + sub) 0 else 0
    | none => 0
  (s, ⟨st, if st = Cs.noEntry ∨ st = Cs.eidUnset then 0 else size, gen, []⟩)

/-- A WRITE of an entry, from the request to the reply (R451, R456, R483). -/
def State.chartDo (s : State) (index sub : Nat) (r : Req) (act : ChAct) : State :=
  if s.slotBusy r.path then s.countSticky Ch.pathRefusals else
  let p := s.writeReply index sub r act
  p.1.reply 2 index sub r p.2

/-- A WRITE whose reply has to wait: its mailbox slot is BUSY meanwhile (R456). -/
def State.chartHold (s : State) (r : Req) : State :=
  match r.path with
  | .mailbox k => s.setFld (mailboxSlot k) MailboxHdr.slotState 1
  | _ => s

/-- The end of a WRITE that had to wait. -/
def State.chartEnd (s : State) (index sub : Nat) (r : Req) (act : ChAct) : State :=
  let p := s.writeReply index sub r act
  p.1.reply 2 index sub r p.2

/-- The act of a write that is refused with STATE. -/
def refusedAct : ChAct := { range := true, state := false, params := true, effect := id }

/-- An action entry: its ACTION field is [3:0] (BUOY_CONTROL has it at [47:44]), and the bits outside `used` are RSVD (R5). A row of the table is the write of its own action; the other values of the entry are not that row's happening. -/
def actionIs (r : Req) (f : Fld) (a : Nat) : Bool := f.get r.value == a

/-- Only bits of the given fields are set. -/
def onlyBits (v : Nat) (fs : List Fld) : Bool := v &&& ((2 ^ 128 - 1) ^^^ fieldMask fs) == 0

abbrev actF : Fld := ⟨3, 0⟩

/-- The value of an entry of selections, per path (R452): CTX_SELECT, ARM_CHANNEL, QUERY_KEY. -/
def pathNumber : Path → Nat
  | .mailbox k => k % 4
  | .mctp => 4
  | .cascade => 5

def State.selected (s : State) (p : Path) (key : Nat) : Nat := s.select.getD (key * 8 + pathNumber p) 0
def State.setSelected (s : State) (p : Path) (key v : Nat) : State := { s with select := s.select.put (key * 8 + pathNumber p) v }

end Sys2Proof.Machine
end

