-- ==== Sys2Proof/Machine/Buoys.lean ====
section
/-! DEFINITION. Buoys: binding, semaphores, barriers, owner loss (R277 to R303). -/

namespace Sys2Proof.Machine

abbrev Bk.semaphore : Nat := 1
abbrev Bk.barrier : Nat := 2
abbrev Bo.plan : Nat := 0
abbrev Bo.host : Nat := 1

/-- What a buoy operation came to: ended with a status and DETAIL, or waiting. -/
inductive BuoyEnd where
  | ended (status detail : Nat)
  | waits
  deriving DecidableEq, Repr

/-- The physical buoy and binding of a name in a context (R277). -/
def State.findBuoy (s : State) (ctx name : Nat) : Option (Nat × Buoy) :=
  s.buoys.find? (fun e => e.2.context == ctx && e.2.name == name)

def State.setBuoy (s : State) (phys : Nat) (b : Buoy) : State := { s with buoys := s.buoys.put phys b }

/-- The lowest physical buoy that is not bound (log entry 14, DESIGN CHOICE). -/
def State.freeBuoy (s : State) : Option Nat :=
  if 262144 ≤ s.buoys.length then none
  else (List.range (s.buoys.length + 1)).find? (fun k => (s.buoys.find k).isNone)

/-- A fresh binding (R280, R282). -/
def Buoy.bind (ctx name kind owner limit initial participants : Nat) : Buoy :=
  { context := ctx, name := name, kind := kind, owner := owner, limit := limit, initial := initial, participants := participants,
    count := if kind = Bk.semaphore then initial else 0, round := if kind = Bk.barrier then initial else 0,
    lost := false, entries := [], parked := [], waiters := [] }

/-- A command released from its wait: its own row ends it (log entry 15, DEDUCED). -/
def State.setStage (s : State) (tag : Nat) (st : CmdStage) (detail : Nat) : State :=
  { s with dispatched := s.dispatched.map (fun d => if d.tag = tag ∧ d.stage ≠ .resetEnded then { d with stage := st, detail := detail } else d) }

/-- The position of a package in this package's group, if its map record puts it there. -/
def State.memberAt (s : State) (pkg : Nat) : Option Nat :=
  let r := s.mapRecord pkg
  if s.ch Ch.groupId ≠ 0 ∧ mapGroup r = s.ch Ch.groupId then some (mapPosition r) else none

/-- A member of the group that has been declared lost: there is no one to answer (R301). -/
def State.memberOut (s : State) (pkg : Nat) : Bool := (s.memberAt pkg).any (fun p => bit (s.ch Ch.members) p && !bit (s.ch Ch.membersUp) p)

/-- A waiter or entry is released: a command is granted or has lost its owner, a remote request is answered (R298, R301, R394). A plan task acts at its own row. -/
def State.releaseWho (s : State) (w : Who) (status detail : Nat) : State :=
  match w with
  | .cmd tag => s.setStage tag (if status = St.success then .granted else .ownerLost) detail
  | .task _ => s
  | .remote pkg op => if s.memberOut pkg then s else s.send pkg Mk.buoyReply (op + status * 2 ^ 32) []
  | .gone => s

def State.releaseAll (s : State) (ws : List Waiter) (status detail : Nat) : State :=
  ws.foldl (fun s w => s.releaseWho w.who status detail) s

/-- A BUOY_ERROR: counted and reported; the command's DETAIL names the event (R292). `op`: 1 SIGNAL, 2 WAIT, 3 entry. -/
def State.buoyError (s : State) (phys ctx name cause op arg : Nat) : State × BuoyEnd :=
  let n := s.nextEvent
  ((s.countSticky Ch.buoyErrors).raise ⟨0x0501, phys, name + cause * 2 ^ 32 + op * 2 ^ 40, arg, some ctx, []⟩, .ended St.buoyError n)

/-- The waiters of a semaphore that can be served, in order of arrival: the units left, those released, those still waiting (R284, R285). A plan task takes its units at its own dispatch, all at once, and holds back what came after it. -/
def serveWaiters : Nat → List Waiter → Nat × List Waiter × List Waiter
  | c, [] => (c, [], [])
  | c, w :: ws =>
    match w.who with
    | .task _ => (c, [], w :: ws)
    | _ =>
      if w.count ≤ c then
        let r := serveWaiters (c - w.count) ws
        (r.1, w :: r.2.1, r.2.2)
      else (c, [], w :: ws)

/-- The context is being torn down (R466). -/
def State.tearing (s : State) (ctx : Nat) : Bool := (s.contexts.getD ctx ⟨0, 0, 0, 0⟩).state == 3

/-- A semaphore serves its waiters; one of a context that is being torn down releases none (R294, R303). -/
def State.serve (s : State) (phys : Nat) : State :=
  match s.buoys.find phys with
  | none => s
  | some b =>
    if s.tearing b.context then s else
    let r := serveWaiters b.count b.waiters
    (s.setBuoy phys { b with count := r.1, waiters := r.2.2 }).releaseAll r.2.1 St.success 0

/-- The Pilot translates a name, from its cache or by a miss that is counted; which of the two is a free value (R277, R279; log entry 72). -/
def State.translates (s : State) : State := (s.count Ch.cacheMisses 64 ((Config.freeWord s.freeCount).toNat % 2)).drew 1

/-- A buoy has been signalled while a late task waits (R89). -/
def State.noteSignal (s : State) (k : Nat) : State :=
  if s.plan.lateSeen.isEmpty ∨ s.plan.signalled.contains k then s
  else { s with plan := { s.plan with signalled := k :: s.plan.signalled } }

/-- A SIGNAL of `n` units (R284, R286, R287, R292, R295). -/
def State.signal (s : State) (ctx name n : Nat) : State × BuoyEnd :=
  if n = 0 then (s, .ended St.success 0) else
  let s := s.translates
  match s.findBuoy ctx name with
  | none => (s, .ended St.noObject 0)
  | some (k, b) =>
    if b.lost then (s, .ended St.ownerLost 0)
    else if b.kind ≠ Bk.semaphore then s.buoyError k ctx name 4 1 n
    else if b.limit < b.count + n then s.buoyError k ctx name 5 1 n
    else (((s.setBuoy k { b with count := b.count + n }).noteSignal k).serve k, .ended St.success 0)

/-- A WAIT of `n` units (R284 to R287, R292, R295). -/
def State.waitOn (s : State) (ctx name n : Nat) (who : Who) : State × BuoyEnd :=
  if n = 0 then (s, .ended St.success 0) else
  let s := s.translates
  match s.findBuoy ctx name with
  | none => (s, .ended St.noObject 0)
  | some (k, b) =>
    if b.lost then (s.countSticky Ch.ownerLostReleases, .ended St.ownerLost 0)
    else if b.kind ≠ Bk.semaphore then s.buoyError k ctx name 4 2 n
    else if b.limit < n then s.buoyError k ctx name 6 2 n
    else if b.waiters.isEmpty ∧ n ≤ b.count then (s.setBuoy k { b with count := b.count - n }, .ended St.success 0)
    else (s.setBuoy k { b with waiters := b.waiters ++ [⟨who, n⟩] }, .waits)

/-- A group-wide barrier, bound through BUOY_BIND on the group's master, waits while a plan is loaded for the epoch check before its first round of the epoch is released (R104, R300). -/
def State.epochHolds (s : State) (b : Buoy) : Bool :=
  s.ch Ch.groupId != 0 && s.isMaster && s.planLoaded && !s.plan.epochDone && b.owner != Bo.plan && b.entries.any (fun w => match w.who with | .remote _ _ => true | _ => false)

/-- The current round completes once it holds PARTICIPANTS entries: its entries are released, the parked ones become the next round's, which may complete at once (R290). -/
def State.roundComplete : Nat → State → Nat → State
  | 0, s, _ => s
  | fuel + 1, s, k =>
    match s.buoys.find k with
    | none => s
    | some b =>
      if b.kind = Bk.barrier ∧ b.participants ≤ b.entries.length ∧ !s.epochHolds b then
        let s := s.setBuoy k { b with round := (b.round + 1) % 2 ^ 32, entries := b.parked, parked := [] }
        State.roundComplete fuel (s.releaseAll b.entries St.success 0) k
      else s

/-- An entry into round `e` of a barrier (R289, R290, R292, R295). -/
def State.enterBarrier (s : State) (ctx name e : Nat) (who : Who) : State × BuoyEnd :=
  let s := s.translates
  match s.findBuoy ctx name with
  | none => (s, .ended St.noObject 0)
  | some (k, b) =>
    let d := (e + 2 ^ 32 - b.round) % 2 ^ 32
    if b.lost then (s.countSticky Ch.ownerLostReleases, .ended St.ownerLost 0)
    else if b.kind ≠ Bk.barrier then s.buoyError k ctx name 4 3 e
    else if d = 0 then
      if b.participants ≤ b.entries.length then s.buoyError k ctx name 3 3 e
      else (State.roundComplete 3 (s.setBuoy k { b with entries := b.entries ++ [⟨who, 1⟩] }) k, .waits)
    else if d = 1 then
      if b.participants ≤ b.parked.length then s.buoyError k ctx name 3 3 e
      else ((s.setBuoy k { b with parked := b.parked ++ [⟨who, 1⟩] }).count Ch.parkedEntries 64, .waits)
    else s.buoyError k ctx name (if d < 2 ^ 31 then 1 else 2) 3 e

/-- The plan tasks among waiters and entries. -/
def tasksOf (ws : List Waiter) : List TaskRef := ws.filterMap (fun w => match w.who with | .task x => some x | _ => none)

/-- The owner of one buoy is lost: every waiter and entry is released with OWNER_LOST (plan tasks too, unless `cmdsOnly`), counted, and one event reports them (R293, R294). The answer names the plan tasks whose groups are to be aborted. -/
def State.ownerLost (s : State) (k row : Nat) (lose cmdsOnly : Bool) : State × List TaskRef :=
  match s.buoys.find k with
  | none => (s, [])
  | some b =>
    let keep := fun (w : Waiter) => cmdsOnly && (match w.who with | .task _ => true | _ => false)
    let gone := b.waiters.filter (fun w => !keep w) ++ b.entries.filter (fun w => !keep w) ++ b.parked.filter (fun w => !keep w)
    let n := (gone.filter (fun w => w.who != Who.gone)).length
    let s := s.setBuoy k { b with waiters := b.waiters.filter keep, entries := b.entries.filter keep, parked := b.parked.filter keep,
                                  lost := b.lost || lose }
    if n = 0 then (s, []) else
    let ev := s.nextEvent
    let s := (s.countSticky Ch.ownerLostReleases n).raise ⟨0x0502, k, b.name + row * 2 ^ 32, n, some b.context, []⟩
    (s.releaseAll gone St.ownerLost ev, tasksOf gone)

/-- Owner loss of every buoy that satisfies a test, in ascending physical number. -/
def State.ownersLost (s : State) (p : Buoy → Bool) (row : Nat) (lose cmdsOnly : Bool) : State × List TaskRef :=
  (s.buoys.filter (fun e => p e.2)).foldl (fun a e =>
    let r := a.1.ownerLost e.1 row lose cmdsOnly
    (r.1, a.2 ++ r.2)) (s, [])

/-- The names that a loaded plan uses are those of its edges and of START_BUOY and END_BUOY (R282). -/
def State.edgeCount (s : State) : Nat := s.planHdr PlanHdr.edgeCount

/-! ### BUOY_BIND, UNBIND, RESET (R281, R283) -/

/-- BUOY_BIND: refused with an access error for each case of R281; the field cases and the name's state are told apart as R446 does. -/
def bindAct (s : State) (v : Nat) : ChAct :=
  let kind := BindRec.kind.get v
  let owner := BindRec.owner.get v
  let ctx := BindRec.context.get v
  let name := BindRec.name.get v
  let limit := BindRec.limit.get v
  let init := BindRec.initial.get v
  let parts := BindRec.participants.get v
  { range := (kind == 1 || kind == 2) && owner != 0
    state := (s.contexts.getD ctx ⟨0, 0, 0, 0⟩).state != 0 && (s.findBuoy ctx name).isNone && s.freeBuoy.isSome
    params := if kind = Bk.semaphore then limit != 0 && decide (init ≤ limit) && parts == 0 else limit == 0 && parts != 0
    effect := fun s => match s.freeBuoy with
      | some k => s.setBuoy k (Buoy.bind ctx name kind owner limit init parts)
      | none => s }

/-- BUOY_BIND (R281). -/
def execBuoyBind (r : Req) (s : State) : Host.Outcome State Fault Refusal :=
  .next (s.chartDo 0x6001 0 r (bindAct s r.value))

/-- The fields of BUOY_CONTROL (R279). -/
abbrev BuoyCtl.name : Fld := ⟨31, 0⟩
abbrev BuoyCtl.context : Fld := ⟨43, 32⟩
abbrev BuoyCtl.action : Fld := ⟨47, 44⟩

/-- A name that a loaded plan uses: in an edge of a task of the context that names this package (R298), or as START_BUOY or END_BUOY in PLAN_CONTEXT (R282, R283). -/
def State.planUsesName (s : State) (ctx name : Nat) : Bool :=
  match s.plan.tables with
  | none => false
  | some t =>
    (s.planHdr PlanHdr.planContext == ctx && (s.planHdr PlanHdr.startBuoy == name || s.planHdr PlanHdr.endBuoy == name))
    || (List.range (s.planHdr PlanHdr.taskCount)).any (fun i =>
        let tb := t.tasks + 64 * i
        s.fld tb TaskRec.context == ctx &&
        ((List.range (s.fld tb TaskRec.waitCount)).map (· + s.fld tb TaskRec.waitFirst)
          ++ (List.range (s.fld tb TaskRec.signalCount)).map (· + s.fld tb TaskRec.signalFirst)).any (fun e =>
            (s.fld (t.edges + 16 * e) EdgeRec.remote == 0 || s.fld (t.edges + 16 * e) EdgeRec.package == s.self) && s.fld (t.edges + 16 * e) EdgeRec.buoy == name))

/-- A command of queue `q` signals or waits on a name that a RUNNING plan uses, other than START_BUOY and END_BUOY: it is reported (R288). -/
def State.meetsPlan (s : State) (q ctx name : Nat) : State :=
  let ends := s.planHdr PlanHdr.planContext == ctx && (name == s.planHdr PlanHdr.startBuoy || name == s.planHdr PlanHdr.endBuoy)
  if s.ch Ch.planState = 3 ∧ s.planUsesName ctx name ∧ !ends then
    s.raise ⟨0x0A06, ((s.findBuoy ctx name).map Prod.fst).getD 0xFFFFFFFF, name, q, some ctx, []⟩
  else s

/-- UNBIND and RESET are refused while the buoy has a waiter or a parked entry, for an owner PLAN, and for a name that a loaded plan uses (R283). -/
def buoyCtlAct (s : State) (v : Nat) (effect : Nat → Buoy → State → State) : ChAct :=
  let ctx := BuoyCtl.context.get v
  let name := BuoyCtl.name.get v
  { range := onlyBits v [BuoyCtl.name, BuoyCtl.context, BuoyCtl.action]
    state := match s.findBuoy ctx name with
      | none => false
      | some (_, b) => b.waiters.isEmpty && b.parked.isEmpty && b.owner != Bo.plan && !(s.planLoaded && s.planUsesName ctx name)
    params := true
    effect := fun s => match s.findBuoy ctx name with
      | none => s
      | some (k, b) => effect k b s }

/-- The entries of a round that UNBIND or RESET discards end with their buoy: none is left waiting (log entry 16, DEDUCED). -/
def discardEntries (b : Buoy) (s : State) : State := s.releaseAll b.entries St.ownerLost 0

/-- UNBIND returns the buoy to the free pool (R283). -/
def execUnbind (r : Req) (s : State) : Host.Outcome State Fault Refusal :=
  if actionIs r BuoyCtl.action 1 then
    .next (s.chartDo 0x6002 0 r (buoyCtlAct s r.value (fun k b s => discardEntries b { s with buoys := s.buoys.erase k })))
  else .next s

/-- RESET: a semaphore's count becomes INITIAL, a barrier's current entries are discarded and its round kept; LOST is cleared (R283). -/
def resetBuoy (b : Buoy) : Buoy :=
  if b.kind = Bk.semaphore then { b with count := b.initial, lost := false } else { b with entries := [], lost := false }

/-- RESET of a buoy (R283). -/
def execBuoyReset (r : Req) (s : State) : Host.Outcome State Fault Refusal :=
  if actionIs r BuoyCtl.action 2 then
    .next (s.chartDo 0x6002 0 r (buoyCtlAct s r.value (fun k b s => discardEntries b (s.setBuoy k (resetBuoy b)))))
  else .next s

end Sys2Proof.Machine
end

