-- ==== Sys2Proof/Machine/Queues.lean ====
section
/-! DEFINITION. Tide queues: descriptors, doorbells, ENABLE and DISABLE, and the completion of a command (R110 to R124, R136 to R138). -/

namespace Sys2Proof.Machine

def State.q (s : State) (q : Nat) (f : Fld) : Nat := s.fld (s.queueBase q) f

def State.setQ (s : State) (q : Nat) (f : Fld) (v : Nat) : State := s.setFld (s.queueBase q) f v

def State.ringSize (s : State) (q : Nat) : Nat := 2 ^ s.q q QueueDesc.entriesLog2

/-- The commands of a queue that have been copied and not completed. -/
def State.outstanding (s : State) (q : Nat) : List Dispatched := s.dispatched.filter (fun d => d.queue == q)

/-- A queue enters ERROR with a cause, and reports it (R115, R119, R120, R141). -/
def State.queueError (s : State) (q cause : Nat) : State :=
  let s := (s.setQ q QueueDesc.state Qs.error).setQ q QueueDesc.errorCause cause
  s.raise ⟨0x0B05, q, cause, s.q q QueueDesc.sqHead, some (s.q q QueueDesc.context), []⟩

/-- A completion slot can be reserved (R123). -/
def State.slotFree (s : State) (q : Nat) : Bool :=
  decide ((s.q q QueueDesc.cqTail + 65536 - s.q q QueueDesc.cqHead) % 65536 + (s.outstanding q).length < s.ringSize q)

/-- The completion record (R138). -/
def complRecord (phase detail queue ctx status opcode seq : Nat) : Nat :=
  [(ComplRec.phase, phase), (ComplRec.detail, detail), (ComplRec.queue, queue), (ComplRec.context, ctx),
   (ComplRec.status, status), (ComplRec.opcode, opcode), (ComplRec.sequence, seq)].foldl (fun v p => p.1.set v p.2) 0

/-- The record is written to slot CQ_TAIL and CQ_TAIL advances; a write that faults (`m`), or a slot in a failing sector, loses the record and the queue enters ERROR with cause 4 (R115, R138, R141). The loss is counted in EVENTS_LOST (log entry 88, DESIGN CHOICE). -/
def State.writeRecord (s : State) (m : MemResult) (q w status detail : Nat) : State :=
  let tail := s.q q QueueDesc.cqTail
  let size := s.ringSize q
  let a := s.q q QueueDesc.cqBase + 16 * (tail % size)
  let rec_ := complRecord (if tail / size % 2 = 0 then 1 else 0) detail q (s.q q QueueDesc.context) status
    (cmdGet w Cmd.opcode) (cmdGet w Cmd.sequence)
  let bad := m != .ok || (s.failing a 16).isSome
  let s := if bad then s.countSticky Ch.eventsLost else s.store a (leBytes 16 rec_)
  let s := s.setQ q QueueDesc.cqTail ((tail + 1) % 65536)
  if bad then s.queueError q 4 else s

/-- The completion actions of a command in the order of R136, with R137. The reservation of its slot has been given up. -/
def State.finish (s : State) (m : MemResult) (q w status detail : Nat) : State :=
  let ok := status = St.success
  let ctx := s.q q QueueDesc.context
  let s := if ok ∧ cmdGet w Cmd.signal = 1 ∧ cmdGet w Cmd.compCount ≠ 0 then
      ((s.meetsPlan q ctx (cmdGet w Cmd.compBuoy)).signal ctx (cmdGet w Cmd.compBuoy) (cmdGet w Cmd.compCount)).1 else s
  let s := if ok ∧ cmdGet w Cmd.noRecord = 1 then s else s.writeRecord m q w status detail
  let s := if s.q q QueueDesc.intEnable = 1 ∧ (cmdGet w Cmd.interrupt = 1 ∨ ¬ ok) then s.out (.interrupt (s.q q QueueDesc.intVector)) else s
  if ok then s else
    s.raise ⟨0x0B04, q, if detailIsEvent status then detail else 0,
      cmdGet w Cmd.sequence + status * 2 ^ 16 + cmdGet w Cmd.opcode * 2 ^ 24, some (s.q q QueueDesc.context), []⟩

/-- The command in the slot that SQ_HEAD names. -/
def State.headCommand (s : State) (q : Nat) : Nat :=
  s.rdNat (s.q q QueueDesc.sqBase + 64 * (s.q q QueueDesc.sqHead % s.ringSize q)) 64

/-- A record that Charov is about to read lies in a failing sector: the read fault is reported (R484). -/
def State.readFault (s : State) (a n : Nat) (ctx : Option Nat) : State :=
  match s.failing a n with
  | some k => s.sectorDetected k 0xFFFFFFFF 0 ctx
  | none => s

/-- A slot read by a draining queue lies in a failing sector: reported, with cause 3, and the drain goes on with the bytes as they stand (log entry 89, DESIGN CHOICE). -/
def State.drainFault (s : State) (q : Nat) : State :=
  let a := s.q q QueueDesc.sqBase + 64 * (s.q q QueueDesc.sqHead % s.ringSize q)
  if (s.failing a 64).isNone then s else
  let s := (s.readFault a 64 (some (s.q q QueueDesc.context))).setQ q QueueDesc.errorCause 3
  s.raise ⟨0x0B05, q, 3, s.q q QueueDesc.sqHead, some (s.q q QueueDesc.context), []⟩

/-- A DRAINING queue completes the commands it has not read with FLUSHED, as completion slots allow, and becomes DISABLED once nothing of it remains (R114). -/
def State.drain : Nat → State → Nat → State
  | 0, s, _ => s
  | fuel + 1, s, q =>
    if s.queueState q ≠ Qs.draining then s
    else if s.q q QueueDesc.sqHead ≠ s.q q QueueDesc.sqTail then
      if s.slotFree q then
        let w := s.headCommand q
        let s := s.drainFault q
        let s := s.setQ q QueueDesc.sqHead ((s.q q QueueDesc.sqHead + 1) % 65536)
        State.drain fuel (s.finish .ok q w St.flushed 0) q
      else s
    else if (s.outstanding q).isEmpty then s.setQ q QueueDesc.state Qs.disabled
    else s

/-- Enough rounds for every slot of the largest ring. -/
def State.drainQueue (s : State) (q : Nat) : State := State.drain 32770 s q

/-- A copied command ends: its completion actions, then the drain of its queue. -/
def State.complete (s : State) (d : Dispatched) (status detail : Nat) : State :=
  let s := { s with dispatched := s.dispatched.filter (fun x => x.tag != d.tag) }
  (s.finish d.slot d.queue d.word status detail).drainQueue d.queue

/-- The dispatched command with a tag, if its opcode is the one asked. -/
def State.cmd (s : State) (tag op : Nat) : Option Dispatched :=
  s.dispatched.find? (fun d => d.tag == tag && cmdGet d.word Cmd.opcode == op && d.stage != .resetEnded)

/-- The context of a dispatched command. -/
def State.cmdContext (s : State) (d : Dispatched) : Nat := s.q d.queue QueueDesc.context

/-- The commands that a FENCE waits for: those of its queue, or of its context, that were dispatched before it (R128). -/
def State.fenced (s : State) (d : Dispatched) : List Dispatched :=
  s.dispatched.filter (fun e => decide (e.tag < d.tag)
    && (if cmdGet d.word CmdFence.scope = 1 then s.cmdContext e == s.cmdContext d else e.queue == d.queue))

/-! ### ENABLE and DISABLE -/

abbrev QueueCtl.queue : Fld := ⟨51, 32⟩

/-- The context is one that work can be bound to: ACTIVE or PREEMPTED. -/
def State.contextState (s : State) (c : Nat) : Nat := (s.contexts.getD c ⟨0, 0, 0, 0⟩).state
def State.contextExists (s : State) (c : Nat) : Bool := s.contextState c == 1 || s.contextState c == 2

/-- The descriptor passes the checks of R113. -/
def State.queueValid (s : State) (q : Nat) : Bool :=
  let w := s.rdNat (s.queueBase q) 64
  s.contextExists (QueueDesc.context.get w)
  && decide (4 ≤ QueueDesc.entriesLog2.get w ∧ QueueDesc.entriesLog2.get w ≤ 15)
  && QueueDesc.sqBase.get w != 0 && QueueDesc.cqBase.get w != 0
  && QueueDesc.sqBase.get w % 4096 == 0 && QueueDesc.cqBase.get w % 4096 == 0
  && QueueDesc.urgencyCap.get w != 3 && QueueDesc.rsvd.all (fun f => f.get w == 0)

/-- The five C fields at ENABLE: indices zero, cause 0, ENABLED (R113). -/
def State.enableQueue (s : State) (q : Nat) : State :=
  s.setFlds (s.queueBase q) [(QueueDesc.sqHead, 0), (QueueDesc.sqTail, 0), (QueueDesc.cqTail, 0), (QueueDesc.cqHead, 0),
    (QueueDesc.errorCause, 0), (QueueDesc.state, Qs.enabled)]

/-- ENABLE (R113). A descriptor that fails a check leaves ERROR_CAUSE 5 and is reported; one that cannot be read is refused with STATE (log entry 17, DEDUCED). -/
def execQueueEnable (r : Req) (s : State) : Host.Outcome State Fault Refusal :=
  if !actionIs r actF 1 then .next s else
  let q := QueueCtl.queue.get r.value
  let base := s.queueBase q
  let act : ChAct :=
    { range := onlyBits r.value [QueueCtl.queue, actF] && decide (q < s.ch Ch.qtableCount)
      state := s.queueState q == Qs.disabled && (s.failing base 64).isNone
      params := s.queueValid q
      effect := fun s => (s.enableQueue q).wake }
  let st := s.writeStatus 0x1121 1 r act
  let s := if s.slotBusy r.path then s
    else if st = Cs.state ∧ s.queueState q = Qs.disabled then s.readFault base 64 none
    else if st = Cs.range ∧ act.range ∧ act.state then
      (s.setQ q QueueDesc.errorCause 5).raise ⟨0x0B05, q, 5, s.q q QueueDesc.sqHead, none, []⟩
    else s
  .next (s.chartDo 0x1121 1 r act)

/-- DISABLE (R114). -/
def execQueueDisable (r : Req) (s : State) : Host.Outcome State Fault Refusal :=
  if !actionIs r actF 2 then .next s else
  let q := QueueCtl.queue.get r.value
  .next (s.chartDo 0x1121 1 r
    { range := onlyBits r.value [QueueCtl.queue, actF] && decide (q < s.ch Ch.qtableCount)
      state := s.queueState q == Qs.enabled || s.queueState q == Qs.error
      params := true
      effect := fun s => ((s.setQ q QueueDesc.state Qs.draining).drainQueue q).wake })

/-! ### Doorbells -/

def originCode : Origin → Nat
  | .serverCores => 0
  | .die0 => 1
  | .die1 => 2
  | .groupMaster => 3

/-- The cause for which a doorbell is ignored, 0 for none (R117, R118). -/
def State.doorbellFault (s : State) (src : Origin) (w width : Nat) (aligned : Bool) : Nat :=
  let q := DoorbellWord.queue.get w
  if width ≠ 8 ∨ !aligned then 1
  else if !(DoorbellWord.rsvd.all (fun f => f.get w == 0)) then 2
  else if s.ch Ch.qtableCount ≤ q then 3
  else if s.q q QueueDesc.origin ≠ originCode src then 4
  else if s.queueState q ≠ Qs.enabled then 5
  else 0

/-- A doorbell is ignored, counted and reported (R117, R118). -/
def State.ignoreDoorbell (s : State) (w cause : Nat) : State :=
  let q := DoorbellWord.queue.get w
  let obj := if cause = 1 ∨ cause = 3 then 0xFFFFFFFF else q
  (s.countSticky Ch.doorbellsIgnored).raise ⟨0x0B01, obj, w, cause, none, []⟩

/-- Submission doorbell (R117 to R119). -/
def execSubmissionDoorbell (src : Origin) (word : BitVec 64) (width : Nat) (aligned : Bool) (s : State) : Host.Outcome State Fault Refusal :=
  let w := word.toNat
  if DoorbellWord.kind.get w ≠ 0 then .next s else
  let c := s.doorbellFault src w width aligned
  if c ≠ 0 then .next (s.ignoreDoorbell w c) else
  let q := DoorbellWord.queue.get w
  let i := DoorbellWord.index.get w
  if s.ringSize q < (i + 65536 - s.q q QueueDesc.sqHead) % 65536 then .next ((s.queueError q 1).wake)
  else .next ((s.setQ q QueueDesc.sqTail i).wake)

/-- Completion doorbell (R117, R118, R120). -/
def execCompletionDoorbell (src : Origin) (word : BitVec 64) (width : Nat) (aligned : Bool) (s : State) : Host.Outcome State Fault Refusal :=
  let w := word.toNat
  if DoorbellWord.kind.get w ≠ 1 then .next s else
  let c := s.doorbellFault src w width aligned
  if c ≠ 0 then .next (s.ignoreDoorbell w c) else
  let q := DoorbellWord.queue.get w
  let i := DoorbellWord.index.get w
  let h := s.q q QueueDesc.cqHead
  if (s.q q QueueDesc.cqTail + 65536 - h) % 65536 < (i + 65536 - h) % 65536 then .next ((s.queueError q 2).wake)
  else .next ((s.setQ q QueueDesc.cqHead i).wake)

end Sys2Proof.Machine
end

