-- ==== Sys2Proof/Machine/Streams.lean ====
section
/-! DEFINITION. Streams: the stream record (R42), sizes (R46, R225), the lifecycle (R50 to R60), the charge ledger (R61 to R65), places in a Harbour region (R188), and the plan tables they are read from. -/

namespace Sys2Proof.Machine

/-! ### Classes, places, states (R33, R34, R49) -/
abbrev Cl.drop : Nat := 1
abbrev Cl.deriv : Nat := 2
abbrev Cl.proj : Nat := 3
abbrev Cl.lossy : Nat := 4
abbrev Cl.exact : Nat := 5
abbrev Cl.raw : Nat := 6
abbrev Cl.regen : Nat := 7
abbrev Pc.none : Nat := 0
abbrev Pc.quay : Nat := 1
abbrev Pc.harbour : Nat := 2
abbrev Pc.reef : Nat := 3
abbrev Ss.unborn : Nat := 0
abbrev Ss.filling : Nat := 1
abbrev Ss.held : Nat := 2
abbrev Ss.serving : Nat := 3
abbrev Ss.released : Nat := 4
abbrev Ss.faulted : Nat := 5
abbrev Ss.aborted : Nat := 6
abbrev Rs.none : Nat := 0
abbrev Rs.quay : Nat := 1
abbrev Rs.harbour : Nat := 2
abbrev Rs.toReef : Nat := 3
abbrev Rs.reef : Nat := 4
abbrev Rs.toHarbour : Nat := 5

/-- No stream, task, shard, buoy or slip set. -/
abbrev noRef : Nat := 0xFFFFFFFF

/-! ### Sizes, from a stream record as one number -/

def elemBytes (et : Nat) : Nat := if et = 3 then 4 else if et = 4 then 1 else 2

/-- Bits of a code of a form (R38). -/
def formBits (form : Nat) : Nat :=
  if form = 0 ∨ form = 0x11 then 0 else if form ≤ 3 then 1 else if form = 5 ∨ form = 7 then 8 else 4

def recElems (rec : Nat) : Nat := StreamRec.byteLength.get rec / elemBytes (StreamRec.elemType.get rec)

/-- The number of form codes: one for each element, or for each window of MAXPOOL_IDX4 (R46). -/
def recCodes (rec : Nat) : Nat :=
  if StreamRec.form.get rec = 0x10 then ceilDiv (recElems rec) (StreamRec.formParam.get rec) else recElems rec

/-- The bytes of the stored representation before coding (R46), for a class that may have been switched (R63). -/
def recStoredBytes (cls rec : Nat) : Nat :=
  if cls = Cl.drop ∨ cls = Cl.regen then 0
  else if cls = Cl.deriv then ceilDiv (recCodes rec * formBits (StreamRec.form.get rec)) 8
  else if cls = Cl.proj then recElems rec / StreamRec.formParam.get rec * StreamRec.rank.get rec * 2
  else StreamRec.byteLength.get rec

def recTiles (cls rec : Nat) : Nat := ceilDiv (recStoredBytes cls rec) 4096

/-- The tiles of the tensor as produced, by which tasks and commands name ranges of a REGEN or DROP stream. -/
def recTensorTiles (rec : Nat) : Nat := ceilDiv (StreamRec.byteLength.get rec) 4096

/-- Only DERIV, PROJ and EXACT streams have an index table (R46). -/
def hasIndex (cls : Nat) : Bool := cls == Cl.deriv || cls == Cl.proj || cls == Cl.exact

/-- The coder element kind (R190). -/
def coderKind (cls et : Nat) : Nat := if cls = Cl.deriv then 4 else if cls = Cl.proj then 1 else et

/-- Granules of a fixed-rate block (R225). -/
def fixedGranules (rate : Nat) : Nat := 128 / 2 ^ rate

/-- RECORD_BYTES of a codebook and envelope record (R231). -/
def recordBytes (cb env period : Nat) : Nat :=
  roundUp (64 + 16 * (if cb = 1 then 4096 else 256) + 2 * period * (if env = 1 then 4 else 1)) 32

/-! ### The installed tables -/

def State.streamCount (s : State) : Nat := s.planHdr PlanHdr.streamCount
def State.taskCount (s : State) : Nat := s.planHdr PlanHdr.taskCount
def State.shardCount (s : State) : Nat := s.planHdr PlanHdr.shardCount

def State.tables (s : State) : Tables := s.plan.tables.getD ⟨0, 0, 0, 0, 0, 0⟩

def State.streamBase (s : State) (n : Nat) : Nat := s.tables.streams + 64 * n
def State.streamRec (s : State) (n : Nat) : Nat := s.rdNat (s.streamBase n) 64
def State.sf (s : State) (n : Nat) (f : Fld) : Nat := s.fld (s.streamBase n) f
def State.setSf (s : State) (n : Nat) (f : Fld) (v : Nat) : State := s.setFld (s.streamBase n) f v

def State.tf (s : State) (t : Nat) (f : Fld) : Nat := s.fld (s.tables.tasks + 64 * t) f
def State.shf (s : State) (k : Nat) (f : Fld) : Nat := s.fld (s.tables.shards + 32 * k) f
def State.edf (s : State) (e : Nat) (f : Fld) : Nat := s.fld (s.tables.edges + 16 * e) f

def StreamAux.fresh : StreamAux :=
  { fallback := 0, fetches := 0, pins := 0, bound := 0, gens := [], nextTile := 0, written := 0, offsets := [], coded := [], heldRec := 0, recSize := 0,
    pass := none, armed := none, discard := false, staged := [], bornStep := 0, copySize := 0, harbour := 0, reefDone := false, reefRec := [], taken := [] }

def State.aux (s : State) (n : Nat) : StreamAux := s.streams.getD n StreamAux.fresh
def State.setAux (s : State) (n : Nat) (a : StreamAux) : State := { s with streams := s.streams.put n a }
def State.modAux (s : State) (n : Nat) (f : StreamAux → StreamAux) : State := s.setAux n (f (s.aux n))

/-- The class in force: LOSSY once R63 has switched the stream. -/
def State.cls (s : State) (n : Nat) : Nat := if (s.aux n).fallback ≠ 0 then Cl.lossy else s.sf n StreamRec.classF
def State.rate (s : State) (n : Nat) : Nat :=
  if (s.aux n).fallback ≠ 0 then (s.aux n).fallback else s.sf n StreamRec.lossyRate
def State.tiles (s : State) (n : Nat) : Nat := recTiles (s.cls n) (s.streamRec n)
/-- The tiles a range of the stream is checked against: a REGEN stream delivers the tensor. -/
def State.rangeTiles (s : State) (n : Nat) : Nat :=
  let c := s.cls n
  if c = Cl.drop ∨ c = Cl.regen then recTensorTiles (s.streamRec n) else s.tiles n
def State.stateOf (s : State) (n : Nat) : Nat := s.sf n StreamRec.state
def State.residence (s : State) (n : Nat) : Nat := s.sf n StreamRec.residence

/-- The record's size in granules: of the held record, or of the one the build entries would give (R226, R234, R237). -/
def State.recGranules (s : State) (n : Nat) : Nat :=
  let a := s.aux n
  (if a.heldRec ≠ 0 ∧ !(a.pass.any (fun p => p.kind == 1)) then a.recSize
   else recordBytes (s.sf n StreamRec.lossyCb) (s.sf n StreamRec.lossyEnv) (s.ch Ch.frPeriod)) / 32

/-- The reservation of a stream in granules, as a class and rate: while it fills, with the record copy made for it (R45, R61, R225, R226). -/
def State.reservationAs (s : State) (n cls rate : Nat) : Nat :=
  let t := recTiles cls (s.streamRec n)
  if cls = Cl.lossy then (if t = 0 then 0 else t * fixedGranules rate + (if s.stateOf n = Ss.filling then (s.aux n).copySize else s.recGranules n))
  else 128 * t + (if hasIndex cls then ceilDiv t 4 else 0)

def State.reservation (s : State) (n : Nat) : Nat := s.reservationAs n (s.cls n) (s.rate n)

/-- G_SEG: the granules each segment reserves (R185, R225). -/
def State.segGranules (s : State) (n : Nat) : Nat :=
  let t := ceilDiv (s.tiles n) 20
  if s.cls n = Cl.lossy then fixedGranules (s.rate n) * t + (s.aux n).copySize else 128 * t

/-- The first byte of segment `h` (R185). -/
def State.segment (s : State) (n h : Nat) : Nat :=
  if s.residence n = Rs.reef ∨ s.residence n = Rs.toHarbour then s.sf n StreamRec.dataBase + h * 32 * s.segGranules n
  else (if s.residence n = Rs.toReef then (s.aux n).harbour else s.sf n StreamRec.dataBase) + h * 2 ^ 38

/-! ### Places in a region (R188; log entry 18, DESIGN CHOICE) -/

/-- The first tile of segment `h` of a stream whose block lies in a sector `o` bytes above the segment's base (R186, R212, R225). -/
def State.tileInSector (s : State) (n h o : Nat) : Option Nat :=
  let c := s.cls n
  let ts := (List.range (ceilDiv (s.tiles n) 20)).map (fun j => 20 * j + h)
  if hasIndex c then ts.find? (fun t =>
    let e := s.rdNat (s.sf n StreamRec.indexBase + 8 * t) 8
    let b := 32 * IndexEnt.offset.get e
    decide (t < s.tiles n) && IndexEnt.valid.get e == 1 && overlap o 256 b (32 * (IndexEnt.lenM1.get e + 1)))
  else
    let size := if c = Cl.lossy then 32 * fixedGranules (s.rate n) else 4096
    (some (20 * (o / size) + h)).filter (fun t => decide (t < s.tiles n))

/-- The stream and tile of a sector in a stream's data area or index table: of the data area the first tile with bytes in the sector, 0 where there is none; of the index table the first of its entries (R218; log entry 83, DEDUCED). -/
def State.sectorOwner (s : State) (sec : Nat) : Option (Nat × Nat) :=
  let a := 256 * sec
  let here := fun (n : Nat) => s.stateOf n != Ss.unborn && s.stateOf n != Ss.released
  (List.range s.streamCount).findSome? (fun n =>
    if !here n then none
    else if hasIndex (s.cls n) ∧ s.sf n StreamRec.indexBase ≠ 0 ∧ overlap a 256 (s.sf n StreamRec.indexBase) (8 * s.tiles n) then
      some (n, (a - s.sf n StreamRec.indexBase) / 8)
    else if s.residence n = Rs.harbour ∨ s.residence n = Rs.toReef then
      let h := a / 2 ^ 38
      if h < 20 ∧ overlap a 256 (s.segment n h) (32 * s.segGranules n) then
        match s.tileInSector n h (a - s.segment n h) with
        | some t => some (n, t)
        | none => if s.stateOf n = Ss.filling ∨ (s.cls n = Cl.lossy ∧ h = 0) then some (n, 0) else none
      else none
    else none)

/-- SECTOR_DETECTED for a sector that anything else than the delivery of a stream's tile has read (R218). -/
def State.sectorFound (s : State) (sec : Nat) (ctx : Option Nat) : State :=
  match s.sectorOwner sec with
  | some (n, t) => s.sectorDetected sec n t (match ctx with | some c => some c | none => some (s.sf n StreamRec.context))
  | none => s.sectorDetected sec noRef 0 ctx

/-- The part of a piece of a set's copy that page `q` of the copy holds: its address and bytes. -/
def pieceIn (x : Nat × Nat × Nat × Bool) (q : Nat) : Nat × Nat :=
  let lo := max x.1 (65536 * q)
  let hi := min (x.1 + x.2.2.1) (65536 * (q + 1))
  (x.2.1 + (lo - x.1), hi - lo)

/-- Where a piece of a set's copy that lies in the Reef has its addresses: above those of memory. -/
def reefMark : Nat := 2 ^ 60

/-- The 64 KiB pages that a range of bytes touches, as a range. -/
def wholePages (a n : Nat) : Nat × Nat := if n = 0 then (a, 0) else (a / 65536 * 65536, ((a + n - 1) / 65536 + 1 - a / 65536) * 65536)

/-- Ranges of a region's stacks that uncopied pages of a stream item keep (R366). -/
def State.protectedPages (s : State) (region : Nat) : List (Nat × Nat × Nat) :=
  s.sets.flatMap (fun e => e.2.pages.flatMap (fun q => (e.2.pieces.filter (fun x => x.2.2.2 && (pieceIn x q).2 != 0)).map (fun x =>
    let r := wholePages (pieceIn x q).1 (pieceIn x q).2
    (region, r.1 % 2 ^ 38, r.2))))

/-- The lowest 4 KiB-aligned range of `bytes` that is free on all 20 stacks. -/
def State.placeFrom (s : State) (low region bytes : Nat) : Option Nat :=
  let used := s.allocs.filter (fun e => e.1 == region) ++ s.protectedPages region
  let base := s.regionBase region
  let free := fun a => decide (low ≤ a ∧ a + bytes ≤ base + s.stackBytes region) && used.all (fun e => !overlap a bytes e.2.1 e.2.2)
  let starts := max base low :: used.map (fun e => roundUp (e.2.1 + e.2.2) 4096)
  if s.regionState region = 0 then none
  else (starts.filter free).foldl (fun m a => match m with | none => some a | some b => some (min a b)) none

def State.place (s : State) (region bytes : Nat) : Option Nat := s.placeFrom 0 region bytes

/-- A place for a table: address 0 says that there is none, so no table lies in the first 4 KiB of stack 0. -/
def State.placeTable (s : State) (region bytes : Nat) : Option Nat := s.placeFrom 4096 region bytes

def State.take (s : State) (region base bytes : Nat) : State :=
  if bytes = 0 then s else { s with allocs := s.allocs ++ [(region, base, bytes)] }

def State.give (s : State) (region base : Nat) : State :=
  { s with allocs := s.allocs.filter (fun e => !(e.1 == region && e.2.1 == base)) }

/-- An allocation cut to `bytes`. -/
def State.shrink (s : State) (region base bytes : Nat) : State :=
  { s with allocs := s.allocs.filterMap (fun e =>
      if e.1 = region ∧ e.2.1 = base then (if bytes = 0 then none else some (region, base, min bytes e.2.2)) else some e) }

/-! ### Generations a stream refers to (R205) -/

/-- A set that is kept: one whose record is COMPLETE (R205, R365). -/
def State.setRefs (s : State) (g : Nat) : Nat := (s.sets.filter (fun e => e.2.gens.contains g)).length

/-- REFS: the four kinds of reference, each counted for itself (R205). -/
def State.genRefs (s : State) (sl : GenSlot) : Nat :=
  let mine := s.streams.filter (fun e => decide (e.1 < s.streamCount))
  (if sl.scope = 0 ∧ sl.state = 2 ∧ sl.stream < s.streamCount then 1 else 0)
  + (mine.filter (fun e => e.2.bound == sl.gen && s.stateOf e.1 == Ss.filling)).length
  + (mine.filter (fun e => e.2.gens.contains sl.gen && s.stateOf e.1 != Ss.released && s.stateOf e.1 != Ss.unborn)).length
  + s.setRefs sl.gen

/-- RETIRING generations without a reference become FREE (R205). -/
def State.settleGens (s : State) : State :=
  s.setGens (s.skerry.gens.map (fun (sl : GenSlot) => if sl.state = 3 ∧ s.genRefs sl = 0 then GenSlot.reset else sl))

/-! ### The lifecycle (R50) -/

/-- The sources of a REGEN stream that its HELD state pins. -/
def State.sourcesOf (s : State) (n : Nat) : List Nat :=
  [s.sf n StreamRec.sourceA, s.sf n StreamRec.sourceB].filter (fun x => x != noRef && decide (x < s.streamCount))

/-- A slot of a Quay's held pool that a QUAY stream uses is returned. -/
def State.freeHeldTiles (s : State) (n : Nat) : State :=
  { s with quays := s.quays.map (fun q => { q with held := q.held.filter (fun e => e.1 / 2 ^ 20 != n) }) }

/-- A block of an extent (first byte, bytes) lies in logical band `lb` of the module at position `i` of the `k` modules of the set (R328). -/
def holdsBlock (k i lb : Nat) (e : Nat × Nat) : Bool :=
  let lo := max (e.1 / 4096) (16384 * k * lb)
  let hi := min (ceilDiv (e.1 + e.2) 4096) (16384 * k * (lb + 1))
  decide (lo + (i + k - lo % k) % k < hi)

/-- A module of the set holds blocks of a stream's extents (R59, R328). -/
def State.onModule (s : State) (n m : Nat) : Bool :=
  let set := (List.range 16).filter (bit (s.ch Ch.reefSet))
  let k := set.length
  let base := s.sf n StreamRec.dataBase
  set.contains m && s.allocs.any (fun e => e.1 == 256 && decide (e.2.1 < 2 ^ 47 ∧ base / 4096 * 4096 ≤ e.2.1 ∧ e.2.1 < base + 640 * s.segGranules n)
    && (let lo := e.2.1 / 4096; decide (lo + (set.idxOf m + k - lo % k) % k < ceilDiv (e.2.1 + e.2.2) 4096)))

/-- Logical bands of the plan area that hold no allocated block return their physical bands to FREE (R345). -/
def State.freePlanBands (s : State) : State :=
  let set := (List.range 16).filter (bit (s.ch Ch.reefSet))
  let k := set.length
  let used := (s.allocs.filter (fun e => e.1 == 256 && decide (e.2.1 < 2 ^ 47))).map Prod.snd
  let loose := fun (i : Nat) (r : Nat) =>
    let lb := BandRec.logical.get r
    BandRec.state.get r == 1 && decide (s.ch Ch.swBytes ≤ 4096 * 16384 * k * lb) && !used.any (holdsBlock k i lb)
  set.foldl (fun (s : State) m =>
    match s.ports.find m with
    | none => s
    | some q =>
      let bands := q.bands.map (fun b => if loose (set.idxOf m) b.2 then (b.1, BandRec.logical.set (BandRec.state.set b.2 0) 0x3FFFF) else b)
      if bands = q.bands then s else ({ s with ports := s.ports.put m { q with bands := bands } } : State).blobChanged (Ch.bandRecords + 256 * m)) s

/-- The Reef extent of a stream leaves the allocations. -/
def State.dropExtent (s : State) (n : Nat) : State :=
  let base := s.sf n StreamRec.dataBase
  let size := 640 * s.segGranules n
  { s with allocs := s.allocs.filter (fun e => !(e.1 == 256 && decide (base / 4096 * 4096 ≤ e.2.1 ∧ e.2.1 < base + size))) }

/-- The Reef extent of a stream is free, and its bands where nothing else holds them (R345, R351). -/
def State.giveReef (s : State) (n : Nat) : State := (s.dropExtent n).freePlanBands

/-- Storage and index table returned (R50, R188). A Reef extent of the plan area is one of region 256 (R351). -/
def State.giveStorage (s : State) (n : Nat) : State :=
  let rg := s.sf n StreamRec.region
  let s := s.freeHeldTiles n
  let s := if s.residence n = Rs.reef ∨ s.residence n = Rs.toHarbour ∨ s.residence n = Rs.toReef
    then s.giveReef n else s
  let s := if s.residence n = Rs.harbour then s.give rg (s.sf n StreamRec.dataBase) else if s.residence n = Rs.toReef then s.give rg (s.aux n).harbour else s
  if s.sf n StreamRec.indexBase = 0 then s else s.give rg (s.sf n StreamRec.indexBase)

/-- The address of a LOSSY stream's record copy (R225). -/
def State.recordAddr (s : State) (n : Nat) : Nat :=
  s.segment n 0 + 32 * fixedGranules (s.rate n) * ceilDiv (s.tiles n) 20

/-- Once every Reef write response of a stream has returned and no fetch reads the Harbour copy, the copy is released and the stream is in the REEF; the whole free blocks of each segment are returned (R51, R54, R351). -/
def State.reefWritten (s : State) (n : Nat) : State :=
  if s.residence n ≠ Rs.toReef ∨ !(s.aux n).reefDone ∨ (s.aux n).fetches ≠ 0 then s else
  let rg := s.sf n StreamRec.region
  let copy := if s.cls n = Cl.lossy then s.rd (s.recordAddr n) (32 * (s.aux n).copySize) else []
  let base := s.sf n StreamRec.dataBase
  let seg := 32 * s.segGranules n
  let used := (List.range 20).filterMap (fun h =>
    let u := 32 * (s.aux n).offsets.getD h 0 + (if h = 0 ∧ s.cls n = Cl.lossy then 32 * (s.aux n).copySize else 0)
    let lo := (base + h * seg) / 4096 * 4096
    if u = 0 then none else some (256, lo, roundUp (base + h * seg + u) 4096 - lo))
  let s := (s.give rg (s.aux n).harbour).dropExtent n
  let s : State := { s with allocs := s.allocs ++ used }
  let s := s.freePlanBands
  (s.modAux n (fun a => { a with reefDone := false, reefRec := copy })).setSf n StreamRec.residence Rs.reef

/-- RELEASED: storage returned, sources unpinned; a source whose last pin is removed may be released in turn (R50). -/
def State.releaseStream : Nat → State → Nat → State
  | 0, s, _ => s
  | fuel + 1, s, n =>
    let pinned := s.cls n == Cl.regen && s.stateOf n != Ss.unborn && s.stateOf n != Ss.released
    let s := ((s.giveStorage n).setSf n StreamRec.state Ss.released).setSf n StreamRec.residence Rs.none
    let s := s.modAux n (fun a => { a with fetches := 0, gens := [], bound := 0, staged := [], discard := false })
    let s := if pinned then (s.sourcesOf n).foldl (fun s m =>
        let s := s.modAux m (fun a => { a with pins := a.pins - 1 })
        if (s.aux m).pins = 0 ∧ s.sf m StreamRec.remaining = 0 ∧ (s.aux m).fetches = 0 ∧ s.stateOf m = Ss.held
        then State.releaseStream fuel s m else s) s else s
    s.settleGens

def State.release (s : State) (n : Nat) : State := State.releaseStream 6 s n

/-- What follows once no fetch is in progress: RELEASED when nothing needs the stream, HELD otherwise (R50, R52). -/
def State.settleStream (s : State) (n : Nat) : State :=
  let a := s.aux n
  if (s.stateOf n = Ss.held ∨ s.stateOf n = Ss.serving) ∧ a.fetches = 0 then
    if a.discard ∨ (s.sf n StreamRec.remaining = 0 ∧ a.pins = 0) then s.release n
    else s.setSf n StreamRec.state Ss.held
  else s

/-- A consumer fetch starts (R50). -/
def State.fetchStarts (s : State) (n : Nat) : State :=
  let s := s.modAux n (fun a => { a with fetches := a.fetches + 1 })
  if s.stateOf n = Ss.held then s.setSf n StreamRec.state Ss.serving else s

/-- A fetch in progress ends. -/
def State.fetchEnds (s : State) (n : Nat) : State :=
  ((s.modAux n (fun a => { a with fetches := a.fetches - 1 })).reefWritten n).settleStream n

/-- A consumer task completes and releases the stream once. -/
def State.consumerDone (s : State) (n : Nat) : State :=
  let r := s.sf n StreamRec.remaining
  if r = 0 ∨ s.stateOf n = Ss.released ∨ s.stateOf n = Ss.unborn then s
  else (s.setSf n StreamRec.remaining (r - 1)).settleStream n

/-- A fetch of the stream is accepted (R52, R55). -/
def State.fetchable (s : State) (n : Nat) : Bool :=
  (s.stateOf n == Ss.held || (s.stateOf n == Ss.serving && !(s.aux n).discard)) && s.cls n != Cl.drop

/-- The first pass of a stream is gone: a slot it builds in is FREE again, and it waits for none; one armed behind it takes its place (R202, R209). -/
def State.dropPass (s : State) (n : Nat) : State :=
  match (s.aux n).pass with
  | none => s
  | some p =>
    let s := s.modAux n (fun a => { a with pass := a.armed, armed := none })
    let sl := s.skerry.slotWait.filter (fun w => !(w == SlotWaiter.pass n))
    let gens := match p.slot with | some k => s.skerry.gens.set k GenSlot.reset | none => s.skerry.gens
    ({ s with skerry := { s.skerry with slotWait := sl } } : State).setGens gens

/-- The commands behind the passes of a stream: the one that runs or is armed, and the one armed behind it. -/
def State.passCmds (s : State) (n : Nat) : List Dispatched :=
  ((s.aux n).pass.toList ++ (s.aux n).armed.toList).filterMap (fun p => p.cmd.bind (fun tag => s.dispatched.find? (fun d => d.tag == tag)))

/-- The first passes of a stream that is aborted or discarded before sampling ends are over, and their commands end GROUP_ABORTED; `ev` is the event that reports it (R202, R220, R243). -/
def State.endPass (s : State) (n ev : Nat) : State :=
  let cmds := s.passCmds n
  cmds.foldl (fun (s : State) d => s.complete d St.groupAborted ev) ((s.dropPass n).dropPass n)

/-- FILLING, HELD or SERVING becomes ABORTED; storage and charge are kept, tiles not yet coded are gone (R50, R57, R60). -/
def State.abortStream (s : State) (n : Nat) : State :=
  let st := s.stateOf n
  if st = Ss.filling ∨ st = Ss.held ∨ st = Ss.serving then
    let s := s.endPass n (s.nextEvent - 1)
    let s : State := { s with skerry := { s.skerry with ingest := s.skerry.ingest.filter (fun i => i.stream != n) } }
    ((s.modAux n (fun a => { a with fetches := 0, taken := [], bound := 0 })).setSf n StreamRec.state Ss.aborted).settleGens
  else s

/-- The C fields as after PLAN_LOAD (R43, R50): UNBORN. -/
def State.bornAgain (s : State) (n : Nat) : State :=
  let s := s.setFlds (s.streamBase n) [(StreamRec.dataBase, 0), (StreamRec.indexBase, 0), (StreamRec.storedGranules, 0),
    (StreamRec.remaining, s.sf n StreamRec.consumers), (StreamRec.state, Ss.unborn), (StreamRec.residence, Rs.none)]
  s.modAux n (fun a => { a with fallback := 0, fetches := 0, bound := 0, gens := [], nextTile := 0, written := 0, offsets := [], coded := [], discard := false,
                                staged := [], copySize := 0, harbour := 0, reefDone := false, reefRec := [], taken := [] })

/-! ### The ledger (R61, R62) -/

/-- The tasks of a kind that name a stream. -/
def State.tasksWhere (s : State) (p : Nat → Bool) : List Nat := (List.range s.taskCount).filter p

/-- A REDUCE task reads its sources in stored mode (R269). -/
def State.storedMode (s : State) (n : Nat) : Bool := s.sf n StreamRec.sourceA != noRef

/-- The producing task of a stream (R75), or the EXCHANGE that receives it (R404). -/
def State.producer (s : State) (n : Nat) : Option Nat :=
  let k := if s.sf n StreamRec.classF = Cl.deriv ∨ s.sf n StreamRec.classF = Cl.proj then 3 else 2
  (List.range s.taskCount).find? (fun t => s.tf t TaskRec.stream == n
    && (s.tf t TaskRec.taskKind == k || (s.tf t TaskRec.taskKind == 12 && decide (2 ^ 31 ≤ s.tf t TaskRec.streamB))))

/-- A task consumes a stream (R75). -/
def State.consumes (s : State) (t n : Nat) : Bool :=
  let k := s.tf t TaskRec.taskKind
  let m := s.tf t TaskRec.stream
  ((k == 6 || k == 7) && m == n)
  || (k == 3 && decide (m < s.streamCount) && s.storedMode m && (s.sf m StreamRec.sourceA == n || s.sf m StreamRec.sourceB == n))

def State.lastConsumer (s : State) (n : Nat) : Option Nat := (s.tasksWhere (fun t => s.consumes t n)).getLast?

/-- The stream is charged at task `t`: produced earlier, and its last consumer does not come earlier (R61). -/
def State.chargedAt (s : State) (t n : Nat) : Bool :=
  match s.producer n, s.lastConsumer n with
  | some p, some c => decide (p < t ∧ t ≤ c)
  | _, _ => false

/-- The charge of a stream in a step, in granules (R46, R57, R61): a stream that never became HELD keeps its reservation, and one that has gone to the Reef its charge (log entry 44, DEDUCED). -/
def State.charge (s : State) (step n : Nat) : Nat :=
  let st := s.stateOf n
  if (s.aux n).bornStep = step + 1 ∧ st ≠ Ss.unborn ∧ st ≠ Ss.filling ∧ !(st == Ss.aborted && s.sf n StreamRec.storedGranules == 0) then s.sf n StreamRec.storedGranules
  else if (s.aux n).bornStep = step + 1 then s.reservation n
  else s.reservationAs n (s.sf n StreamRec.classF) (s.sf n StreamRec.lossyRate)

/-- A stream is charged to its region: one with a stored representation that is not placed in a Quay (R46). -/
def State.regionCharged (s : State) (r n : Nat) : Bool :=
  s.sf n StreamRec.region == r && s.sf n StreamRec.place != Pc.quay
    && s.sf n StreamRec.classF != Cl.drop && s.sf n StreamRec.classF != Cl.regen

/-- The ledger of a region at a task, in granules. -/
def State.ledger (s : State) (step t r : Nat) : Nat :=
  ((List.range s.streamCount).filter (fun n => s.regionCharged r n && s.chargedAt t n)).foldl (fun a n => a + s.charge step n) 0

/-- Every stream of the region whose release the ledger credits at the task has released its storage (R62). -/
def State.creditsPaid (s : State) (step t r : Nat) : Bool :=
  (List.range s.streamCount).all (fun n =>
    !s.regionCharged r n || s.chargedAt t n || s.producer n == some t ||
    (let gone := s.stateOf n == Ss.released || s.stateOf n == Ss.unborn
     match s.producer n with
     | some p => if p < t then gone && (s.aux n).bornStep == step + 1 else gone || (s.aux n).bornStep == step + 1
     | none => true))

/-! ### Entering FILLING (R50, R56, R61 to R65) -/

/-- The rate R63 takes: the lowest allowed at which the reservation fits. -/
def State.fallbackRate (s : State) (n room : Nat) : Option Nat :=
  ([1, 2, 3].filter (fun r => decide (r ≤ s.sf n StreamRec.fallback))).find? (fun r => decide (32 * s.reservationAs n Cl.lossy r ≤ room))

/-- The stream binds to its own CURRENT generation, or to the DEFAULT of its kind (R204). -/
def State.bindGen (s : State) (n : Nat) : Nat :=
  let kind := coderKind (s.cls n) (s.sf n StreamRec.elemType)
  match s.skerry.gens.find? (fun g => g.state == 2 && g.scope == 0 && g.stream == n) with
  | some g => g.gen
  | none => match s.skerry.gens.find? (fun g => g.state == 2 && g.scope == 1 && g.kind == kind) with
    | some g => g.gen
    | none => 0

/-- A stream enters FILLING at a task with a switch decided (R63) and its storage placed (R65, R185, R188, R212), or the placement fails. -/
def State.placeStream (s : State) (n step : Nat) : Option State :=
  let rg := s.sf n StreamRec.region
  let s := s.modAux n (fun a => { a with copySize := if s.cls n = Cl.lossy ∧ s.tiles n ≠ 0 then s.recGranules n else 0, bornStep := step + 1 })
  let bytes := 32 * s.segGranules n
  let ix := if hasIndex (s.cls n) then 8 * s.tiles n else 0
  let quay := s.sf n StreamRec.place == Pc.quay
  if quay then
    some (((s.modAux n (fun a => { a with bound := s.bindGen n })).setSf n StreamRec.state Ss.filling).setSf n StreamRec.residence Rs.quay)
  else
  match (if bytes = 0 then some 0 else s.place rg bytes) with
  | none => none
  | some d =>
    let s := s.take rg d bytes
    match (if ix = 0 then some 0 else s.placeTable rg ix) with
    | none => none
    | some i =>
      let s := s.take rg i ix
      let s := s.store i (List.replicate ix 0)
      let s := s.modAux n (fun a => { a with bound := s.bindGen n })
      some (s.setFlds (s.streamBase n) [(StreamRec.dataBase, d), (StreamRec.indexBase, i), (StreamRec.state, Ss.filling),
        (StreamRec.residence, if bytes = 0 then Rs.none else Rs.harbour)])

/-- What came of starting a stream's production. -/
inductive Started where
  | waits
  | failed (s : State)
  | filling (s : State)

/-- Production of a stored stream starts at task `t` of a step: the reservation is checked on top of the ledger, with the switch of R63, and placed; failure is CAPACITY with its event (R65). -/
def State.startStream (s : State) (n step t : Nat) : Started :=
  let rg := s.sf n StreamRec.region
  let ctx := some (s.sf n StreamRec.context)
  let s := (s.bornAgain n).modAux n (fun a => { a with bornStep := step + 1 })
  let room := s.ch (Ch.chargeLimit + 256 * rg) - 32 * s.ledger step t rg
  let fits := s.sf n StreamRec.place == Pc.quay || decide (32 * s.reservation n ≤ room)
  let s := if fits ∨ s.sf n StreamRec.fallback = 0 then s else
    match s.fallbackRate n room with
    | some r => ((s.modAux n (fun a => { a with fallback := r })).countSticky Ch.fallbacks).raise ⟨0x0201, n, r, rg, ctx, []⟩
    | none => s
  let fits := s.sf n StreamRec.place == Pc.quay || decide (32 * s.reservation n ≤ room)
  let failed := fun (s : State) =>
    Started.failed ((s.setSf n StreamRec.state Ss.aborted).raise ⟨0x0304, n, s.reservation n, rg, ctx, []⟩)
  if !fits then failed s else
  match s.placeStream n step with
  | some s => .filling s
  | none => failed s

/-- REGION's charge and granules once the last tile is stored: STORED_GRANULES, the freed rest of each segment, HELD (R50, R188, R225). -/
def State.streamHeld (s : State) (n : Nat) : State :=
  let t := s.tiles n
  let a := s.aux n
  let rg := s.sf n StreamRec.region
  let lens := (a.offsets.vals).foldl (· + ·) 0
  let c := s.cls n
  let stored := if t = 0 then 0 else if c = Cl.lossy then t * fixedGranules (s.rate n) + a.copySize
    else if s.sf n StreamRec.place = Pc.quay then 128 * t
    else lens + (if hasIndex c then ceilDiv t 4 else 0)
  let seg0 := fixedGranules (s.rate n) * ceilDiv t 20 + a.copySize
  let used := if c = Cl.lossy then 32 * (if t = 0 then 0 else seg0) else 32 * (a.offsets.vals.foldl max 0)
  let s := if s.sf n StreamRec.place = Pc.quay then s else s.shrink rg (s.sf n StreamRec.dataBase) used
  let s := (s.setSf n StreamRec.storedGranules stored).setSf n StreamRec.state Ss.held
  (s.modAux n (fun a => { a with bound := 0 })).settleGens

/-- A REGEN stream whose production completes is HELD, its sources pinned (R50). -/
def State.regenHeld (s : State) (n : Nat) : State :=
  (s.sourcesOf n).foldl (fun (s : State) m => s.modAux m (fun a => { a with pins := a.pins + 1 })) (s.setSf n StreamRec.state Ss.held)

/-- Bytes of a layer or stream Soundings record counted, saturating (R480). -/
def State.sound (s : State) (base size idx : Nat) (f : Fld) (n : Nat := 1) : State :=
  if base = 0 then s else
  let a := base + size * idx
  s.setFld a f (min (s.fld a f + n) (2 ^ f.width - 1))

def State.soundLayer (s : State) (layer : Nat) (f : Fld) (n : Nat := 1) : State := s.sound (s.ch Ch.layerSndBase) 16 layer f n
def State.soundStream (s : State) (n : Nat) (f : Fld) (k : Nat := 1) : State := s.sound (s.ch Ch.streamSndBase) 16 n f k

end Sys2Proof.Machine
end

