-- ==== Sys2Proof/Machine/Plan.lean ====
section
/-! DEFINITION. The plan in execution: queues of tasks, edges, weight pins, slips, aborts of groups, the ends of tasks and of the plan (R74 to R103). -/

namespace Sys2Proof.Machine

/-! ### Task kinds and states (R72, R77) -/
abbrev Tk.compute : Nat := 1
abbrev Tk.stow : Nat := 2
abbrev Tk.reduce : Nat := 3
abbrev Tk.reefWrite : Nat := 4
abbrev Tk.prefetch : Nat := 5
abbrev Tk.feed : Nat := 6
abbrev Tk.recompute : Nat := 7
abbrev Tk.update : Nat := 8
abbrev Tk.discard : Nat := 9
abbrev Tk.snapshot : Nat := 10
abbrev Tk.digest : Nat := 11
abbrev Tk.exchange : Nat := 12
abbrev Tk.barrier : Nat := 13
abbrev Ts.pending : Nat := 0
abbrev Ts.running : Nat := 1
abbrev Ts.done : Nat := 2
abbrev Ts.aborted : Nat := 3
abbrev Ts.notRun : Nat := 4

def State.stepOf (s : State) (k : Nat) : Option Step := s.plan.steps.find? (fun st => st.num == k)

def State.taskState (s : State) (x : TaskRef) : Nat :=
  match s.stepOf x.step with
  | some st => st.tasks.getD x.task Ts.pending
  | none => Ts.pending

/-- TASK_STATE of a task, in its step and in its record (R71, R77). -/
def State.setTask (s : State) (x : TaskRef) (v : Nat) : State :=
  let steps := s.plan.steps.map (fun (st : Step) => if st.num = x.step then { st with tasks := st.tasks.put x.task v } else st)
  let s' : State := { s with plan := { s.plan with steps := steps } }
  s'.setFld (s.tables.tasks + 64 * x.task) TaskRec.taskState v

def State.run (s : State) (x : TaskRef) : Option TaskRun := s.plan.runs.find? (fun r => r.ref == x)

def State.modRun (s : State) (x : TaskRef) (f : TaskRun → TaskRun) : State :=
  { s with plan := { s.plan with runs := s.plan.runs.map (fun r => if r.ref = x then f r else r) } }

def State.dropRun (s : State) (x : TaskRef) : State :=
  { s with plan := { s.plan with runs := s.plan.runs.filter (fun r => r.ref != x) } }

/-- The engine of a REDUCE that is over is idle (R245, R251). -/
def State.reduceOver (s : State) (x : TaskRef) : State :=
  let e := s.tf x.task TaskRec.execIndex
  if s.tf x.task TaskRec.taskKind = Tk.reduce ∧ s.ch (Ch.engineState + 256 * e) = 1 then s.setCh (Ch.engineState + 256 * e) 0 else s

/-- The work of a task is done: what is left is its completion. -/
def State.finishRun (s : State) (x : TaskRef) : State := (s.reduceOver x).modRun x (fun r => { r with finished := true })

/-- The tasks of the steps in flight in plan order (R74, R83). -/
def State.inOrder (s : State) : List TaskRef :=
  s.plan.steps.flatMap (fun st => (List.range s.taskCount).map (fun t => TaskRef.mk st.num t))

def State.execKind (s : State) (t : Nat) : Nat := s.tf t TaskRec.execKind
def State.execIndex (s : State) (t : Nat) : Nat := s.tf t TaskRec.execIndex
def State.sameExec (s : State) (t u : Nat) : Bool := s.execKind t == s.execKind u && s.execIndex t == s.execIndex u

/-- The task at the head of an executor's queue: the first that has not ended, a suspended one among them (R85, R90); a Quay carries several tasks at once, so those that run do not hold it (R74, R172; log entry 19, DEDUCED). -/
def State.headOf (s : State) (t : Nat) : Option TaskRef :=
  s.inOrder.find? (fun y => s.sameExec y.task t && (s.taskState y == Ts.pending || (s.execKind t != 2 && s.taskState y == Ts.running)))

/-- An alternative is running on the executor (R91). -/
def State.slipRuns (s : State) (t : Nat) : Bool := s.plan.runs.any (fun r => s.sameExec r.ref.task t && r.slipOf.isSome)

/-- Tasks may be dispatched: the plan is LOADED or RUNNING, and after an abort only under ABORT_SCOPE 1 (R102). -/
def State.planRuns (s : State) : Bool := s.ch Ch.planState == Pl.running && (!s.plan.stopping || s.planHdr PlanHdr.abortScope == 1)

/-- The task can be dispatched as far as its queue is concerned. -/
def State.atHead (s : State) (x : TaskRef) : Bool :=
  s.planRuns && s.taskState x == Ts.pending && s.headOf x.task == some x && !s.slipRuns x.task && !s.paused (s.tf x.task TaskRec.urgency)

/-! ### Remote buoy operations (R298; log entry 13, DESIGN CHOICE) -/

/-- The payload of a BUOY_OP: name, round or count, context, operation (1 SIGNAL, 2 WAIT, 3 entry). ARG is the issuer's number for the operation. -/
def buoyOpPayload (name n ctx op : Nat) : List Byte := leBytes 4 name ++ leBytes 4 n ++ leBytes 2 ctx ++ leBytes 2 op

/-- A buoy operation is sent to another package and stays pending here until its reply. -/
def State.sendBuoyOp (s : State) (pkg op ctx name n : Nat) (who : Who) (edge : Nat) : State :=
  let id := s.cascade.nextOp
  let s : State := { s with cascade := { s.cascade with nextOp := (id + 1) % 2 ^ 32, ops := s.cascade.ops ++ [⟨id, pkg, who, op, edge, n⟩] } }
  s.send pkg Mk.buoyOp id (buoyOpPayload name n ctx op)

/-! ### Wait edges -/

def State.waitEdges (s : State) (t : Nat) : List Nat := (List.range (s.tf t TaskRec.waitCount)).map (· + s.tf t TaskRec.waitFirst)
def State.signalEdges (s : State) (t : Nat) : List Nat := (List.range (s.tf t TaskRec.signalCount)).map (· + s.tf t TaskRec.signalFirst)

/-- The edge's buoy is on another package; an edge that names this one is local (R298). -/
def State.isRemoteEdge (s : State) (e : Nat) : Bool := s.edf e EdgeRec.remote == 1 && s.edf e EdgeRec.package != s.self

def State.arrival (s : State) (x : TaskRef) : Option Arrival := s.plan.arrived.find? (fun a => a.ref == x)

def State.setArrival (s : State) (a : Arrival) : State :=
  { s with plan := { s.plan with arrived := a :: s.plan.arrived.filter (fun b => b.ref != a.ref) } }

/-- The next round of a BARRIER edge, which then has entered once more (R291). -/
def State.nextRound (s : State) (e : Nat) : Nat × State :=
  let r := s.plan.rounds.getD e 0
  (r, { s with plan := { s.plan with rounds := s.plan.rounds.put e ((r + 1) % 2 ^ 32) } })

/-- One wait edge is entered as the task reaches the head of its queue: a cause where the task cannot wait on it (R284, R286, R289, R292, R295). -/
def State.enterEdge (s : State) (x : TaskRef) (e : Nat) : State × Option Nat :=
  let ctx := s.tf x.task TaskRec.context
  let name := s.edf e EdgeRec.buoy
  let n := s.edf e EdgeRec.count
  let barrier := s.edf e EdgeRec.edgeKind == 3
  if n = 0 then (s, none)
  else if s.isRemoteEdge e then
    let p := if barrier then s.nextRound e else (n, s)
    ((p.2.setArrival (match s.arrival x with | some a => { a with remote := a.remote.put e false } | none => ⟨x, [(e, false)]⟩)).sendBuoyOp
      (s.edf e EdgeRec.package) (if barrier then 3 else 2) ctx name p.1 (.task x) e, none)
  else if barrier then
    let p := s.nextRound e
    match p.2.enterBarrier ctx name p.1 (.task x) with
    | (s, .waits) => (s, none)
    | (s, .ended st _) => (s, some st)
  else match s.findBuoy ctx name with
    | none => (s, some St.noObject)
    | some (k, b) =>
      if b.lost then (s.countSticky Ch.ownerLostReleases, some St.ownerLost)
      else if b.kind ≠ Bk.semaphore then ((s.buoyError k ctx name 4 2 n).1, some St.buoyError)
      else if b.limit < n then ((s.buoyError k ctx name 6 2 n).1, some St.buoyError)
      else (s.setBuoy k { b with waiters := b.waiters ++ [⟨.task x, n⟩] }, none)

/-- The task reaches the head of its queue: it enters each of its wait edges once, in order, up to the first that fails. -/
def State.arrive (s : State) (x : TaskRef) : State × Option Nat :=
  if (s.arrival x).isSome then (s, none) else
  (s.waitEdges x.task).foldl (fun p e => match p.2 with | some c => (p.1, some c) | none => p.1.enterEdge x e) (s.setArrival ⟨x, []⟩, none)

/-- The leading waiters of a semaphore that are one task's. -/
def leadingUnits (x : TaskRef) : List Waiter → Nat
  | [] => 0
  | w :: ws => if w.who = .task x then w.count + leadingUnits x ws else 0

def waitsOn (x : TaskRef) (ws : List Waiter) : Bool := ws.any (fun w => w.who == .task x)

/-- Every edge entered is satisfied: at each semaphore the task stands first and the units suffice, its rounds are complete, its remote waits are answered (R284, R285, R291). -/
def State.edgesMet (s : State) (x : TaskRef) : Bool :=
  (match s.arrival x with
   | none => false
   | some a => a.remote.all (fun e => e.2))
  && s.buoys.all (fun e =>
    !(waitsOn x e.2.entries || waitsOn x e.2.parked) &&
    (!waitsOn x e.2.waiters
      || (!waitsOn x (e.2.waiters.dropWhile (fun w => w.who == .task x)) && decide (leadingUnits x e.2.waiters ≤ e.2.count))))

/-- The units of all the task's edges are taken in one step, and those behind it are served (R284). -/
def State.takeEdges (s : State) (x : TaskRef) : State :=
  let s : State := { s with plan := { s.plan with arrived := s.plan.arrived.filter (fun a => a.ref != x) } }
  (s.buoys.filter (fun e => waitsOn x e.2.waiters)).foldl (fun (s : State) (e : Nat × Buoy) =>
    (s.setBuoy e.1 { e.2 with count := e.2.count - leadingUnits x e.2.waiters, waiters := e.2.waiters.filter (fun w => !(w.who == Who.task x)) }).serve e.1) s

/-- A task that ends without being dispatched leaves the semaphores it waits on. -/
def State.leaveEdges (s : State) (x : TaskRef) : State :=
  let s : State := { s with plan := { s.plan with arrived := s.plan.arrived.filter (fun a => a.ref != x) }, cascade := { s.cascade with ops := s.cascade.ops.filter (fun o => !(o.who == Who.task x)) } }
  (s.buoys.filter (fun e => waitsOn x e.2.waiters)).foldl (fun (s : State) (e : Nat × Buoy) =>
    (s.setBuoy e.1 { e.2 with waiters := e.2.waiters.filter (fun w => !(w.who == Who.task x)) }).serve e.1) s

/-! ### Weight versions (R93 to R96) -/

/-- A task writes a version: an UPDATE, or the EXCHANGE that fetches one (R317). -/
def State.writesVersion (s : State) (t : Nat) : Bool :=
  s.tf t TaskRec.taskKind == Tk.update
  || (s.tf t TaskRec.taskKind == Tk.exchange && s.tf t TaskRec.phase == 2 && s.tf t TaskRec.stream == noRef && s.tf t TaskRec.shard != noRef)

def State.updates (s : State) (t k : Nat) : Bool := s.writesVersion t && s.tf t TaskRec.shard == k

/-- U_t: UPDATE tasks on the shard that precede task `t` of a step, over every step since the load (R94), and before it where a REPLACE kept the count (R101). -/
def State.updatesBefore (s : State) (x : TaskRef) (k : Nat) : Nat :=
  s.plan.baseUpdates.getD k 0 + x.step * (s.tasksWhere (fun t => s.updates t k)).length
    + (s.tasksWhere (fun t => s.updates t k && decide (t < x.task))).length

/-- The version a task pins, modulo 65,536. -/
def State.pinned (s : State) (x : TaskRef) : Option (Nat × Nat) :=
  let k := s.tf x.task TaskRec.shard
  if k = noRef ∨ s.writesVersion x.task then none
  else some (k, (s.updatesBefore x k - s.tf x.task TaskRec.versionLag) % 65536)

/-- Version `v` of the shard has been written. -/
def State.written (s : State) (k v : Nat) : Bool := decide ((s.shf k ShardRec.currentVersion + 65536 - v) % 65536 < 32768)

def State.versionReady (s : State) (x : TaskRef) : Bool :=
  match s.pinned x with
  | none => true
  | some (k, v) => s.written k v

/-- The address of a version's slot (R93, R95). -/
def State.slotBase (s : State) (k v : Nat) : Nat :=
  s.shf k ShardRec.base + v % s.shf k ShardRec.slots * s.shf k ShardRec.slotBytes

def ShardAux.fresh : ShardAux := ⟨[], [], [], [], 0, [], false, false, none, 0⟩
def State.shard (s : State) (k : Nat) : ShardAux := s.shards.getD k ShardAux.fresh
def State.modShard (s : State) (k : Nat) (f : ShardAux → ShardAux) : State := { s with shards := s.shards.put k (f (s.shard k)) }

/-- An EXPORT of a shard under way, whose detail is the version it exports plus 1 (R322). -/
def Dispatched.exportsVersion (d : Dispatched) (k v : Nat) : Bool :=
  cmdGet d.word Cmd.opcode == Op.exportC && cmdGet d.word CmdExport.objectKind == 1 && cmdGet d.word CmdExport.object == k && d.stage == .underway && d.detail == v + 1

/-- A version is pinned, by a task that runs or by a command. -/
def State.isPinned (s : State) (k v : Nat) : Bool :=
  s.plan.runs.any (fun r => r.pinShard == some (k, v)) || (s.shard k).pins.contains v || s.dispatched.any (fun d => d.exportsVersion k v)

def State.optBase (s : State) (k : Nat) : Nat := s.ch Ch.ostateBase + 128 * k
/-- The state record with a SHARD_ID. -/
def State.optOf (s : State) (shardId : Nat) : Option Nat :=
  ((List.range (s.ch Ch.ostateCount)).find? (fun k => s.fld (s.optBase k) OptRec.shardId == shardId)).map s.optBase
/-- The state record of a shard of the plan, as an address. -/
def State.shardOpt (s : State) (k : Nat) : Option Nat := s.optOf (s.shf k ShardRec.shardId)

/-! ### Failed stacks (R31) -/

/-- The stacks that have failed. -/
def State.lostStacks (s : State) : List Nat := (List.range 20).filter (fun n => s.ch (Ch.sliceState + 256 * n) == 1)

/-- A stream has bytes on stack `h`, or will have when it is stored next: a tile of that stack's Skerry, or with LOSSY its record (R31, R185, R220, R243). -/
def State.streamOn (s : State) (n h : Nat) : Bool :=
  let r := s.residence n
  let unstored := s.stateOf n == Ss.unborn || s.stateOf n == Ss.released
  let here := if unstored then s.sf n StreamRec.place == Pc.harbour || s.sf n StreamRec.place == Pc.reef else r != Rs.none && r != Rs.quay
  here && (s.cls n == Cl.lossy || decide (h < s.tiles n))

/-- A task addresses stack `h`: through its streams, the version slots of its shard, or the optimiser state it updates; or it is assigned to an engine of that stack (R31). -/
def State.taskOn (s : State) (t h : Nat) : Bool :=
  let k := s.tf t TaskRec.taskKind
  let n := s.tf t TaskRec.stream
  let m := s.tf t TaskRec.shard
  (s.execKind t == 3 && s.execIndex t / 2 == h)
  || (k != Tk.compute && k != Tk.discard && k != Tk.snapshot && k != Tk.barrier && n != noRef && decide (n < s.streamCount) && (s.streamOn n h || (s.sourcesOf n).any (fun a => s.streamOn a h && s.storedMode n)))
  || (m != noRef && decide (m < s.shardCount) && (k == Tk.feed || k == Tk.update || k == Tk.digest || k == Tk.exchange)
      && (s.shf m ShardRec.base / 2 ^ 38 == h
        || (k == Tk.update && (match s.shardOpt m with | some a => s.fld a OptRec.accBase / 2 ^ 38 == h || s.fld a OptRec.stageBase / 2 ^ 38 == h || (s.fld a OptRec.statePlace == 2 && s.fld a OptRec.stateBase / 2 ^ 38 == h) | none => false))))

/-! ### First input tiles and slips (R88 to R92) -/

/-- The first tile of a stream could be delivered: it is produced, and on the Reef it is staged (log entry 20, DEDUCED). -/
def State.tileThere (s : State) (n tile : Nat) : Bool :=
  s.fetchable n && (!(s.residence n == Rs.reef || s.residence n == Rs.toHarbour) || ((s.aux n).staged.find tile).isSome)

/-- The FEED of a stream in a step. -/
def State.feedOf (s : State) (x : TaskRef) (n : Nat) : Option TaskRef :=
  ((List.range s.taskCount).find? (fun t => s.tf t TaskRec.taskKind == Tk.feed && s.tf t TaskRec.stream == n)).map (fun t => ⟨x.step, t⟩)

/-- The first input tile of a task is available (R88). -/
def State.firstTile (s : State) (x : TaskRef) : Bool :=
  let k := s.tf x.task TaskRec.taskKind
  let n := s.tf x.task TaskRec.stream
  if k = Tk.feed ∨ k = Tk.recompute then n == noRef || s.tileThere n (s.tf x.task TaskRec.tileFirst)
  else if k = Tk.compute ∧ n ≠ noRef then
    match s.feedOf x n with
    | none => true
    | some y => s.taskState y == Ts.done
        || s.skerry.consumers.any (fun c => c.source == .task y && decide (0 < c.filled))
  else true

/-- The alternatives of a task's slip set, ALT_0 first (R86). -/
def State.alternatives (s : State) (t : Nat) : List Nat :=
  let k := s.tf t TaskRec.slipSet
  if k = noRef then [] else
  let a := s.tables.slips + 32 * k
  ([SlipRec.alt0, SlipRec.alt1, SlipRec.alt2, SlipRec.alt3, SlipRec.alt4, SlipRec.alt5].map (s.fld a)).take (s.fld a SlipRec.altCount)

/-- A task with alternatives waits for its first tile, so that R88 can find it late; any other is dispatched under R74 alone. -/
def State.tileReady (s : State) (x : TaskRef) : Bool := (s.alternatives x.task).isEmpty || s.firstTile x

/-- Every wait edge of the task could be satisfied now from the buoys' counts; a BARRIER or remote edge never can (R89, R291). -/
def State.edgesCould (s : State) (x : TaskRef) : Bool :=
  (s.waitEdges x.task).all (fun e =>
    s.edf e EdgeRec.count == 0 || (s.edf e EdgeRec.edgeKind == 1 && !s.isRemoteEdge e &&
      (match s.findBuoy (s.tf x.task TaskRec.context) (s.edf e EdgeRec.buoy) with
       | none => false
       | some (_, b) =>
         b.kind == Bk.semaphore && !b.lost && b.waiters.isEmpty &&
         decide ((((s.waitEdges x.task).filter (fun d => s.edf d EdgeRec.buoy == s.edf e EdgeRec.buoy)).map (fun d => s.edf d EdgeRec.count)).foldl (· + ·) 0 ≤ b.count))))

/-- LEDGER and LEDGER_PEAK of the regions of a plan's streams, at the task now dispatching (16_chart.md). -/
def State.noteLedger (s : State) (x : TaskRef) : State :=
  (((List.range s.streamCount).map (fun n => s.sf n StreamRec.region)).dedup).foldl (fun (s : State) r =>
    let v := 32 * s.ledger x.step x.task r
    (s.setCh (Ch.ledger + 256 * r) v).setCh (Ch.ledgerPeak + 256 * r) (max v (s.ch (Ch.ledgerPeak + 256 * r)))) s

/-- The shard that a dispatched task writes carries the mark of its step (R103). -/
def State.markShard (s : State) (x : TaskRef) : State :=
  if s.writesVersion x.task then s.modShard (s.tf x.task TaskRec.shard) (fun z => { z with marks := if z.marks.contains x.step then z.marks else z.marks ++ [x.step] }) else s

/-- A task is dispatched: RUNNING, its units taken, its version pinned, the shard it writes marked (R74, R84, R94, R103). -/
def State.beginTask (s : State) (x : TaskRef) (slipOf : Option TaskRef) : State :=
  let s := (((s.takeEdges x).noteLedger x).markShard x).setTask x Ts.running
  { s with plan := { s.plan with runs := s.plan.runs ++ [⟨x, false, s.pinned x, false, slipOf, slipOf.isNone⟩] } }

/-- A SNAPSHOT task before the task in plan order has not captured its set (R365). -/
def State.snapshotHolds (s : State) (x : TaskRef) : Bool :=
  s.inOrder.any (fun y => (decide (y.step < x.step) || (y.step == x.step && decide (y.task < x.task)))
    && s.tf y.task TaskRec.taskKind == Tk.snapshot && s.taskState y == Ts.pending)

/-- The slip search for one late or suspended task: the first alternative that qualifies is dispatched in its place (R89, R91, R92). -/
def State.slip (s : State) (x : TaskRef) : State :=
  if s.slipRuns x.task ∨ !s.planRuns then s else
  let ok := fun (a : Nat) =>
    let y : TaskRef := ⟨x.step, a⟩
    s.taskState y == Ts.pending && s.edgesCould y && s.versionReady y && s.firstTile y && !s.snapshotHolds y && !s.paused (s.tf a TaskRec.urgency)
  match (s.alternatives x.task).find? ok with
  | none => s
  | some a =>
    let y : TaskRef := ⟨x.step, a⟩
    let s := (s.arrive y).1
    let s := s.beginTask y (some x)
    let s := s.soundLayer (s.tf x.task TaskRec.layer) LayerSnd.slipSwitches
    s.raise ⟨0x0A02, x.task, a, s.tf x.task TaskRec.layer, some (s.tf x.task TaskRec.context), []⟩

/-- A task that was found late, or was suspended, is still waiting for its tile. -/
def State.stillLate (s : State) (x : TaskRef) : Bool :=
  ((s.run x).any (fun r => r.suspended)) || (s.taskState x == Ts.pending && s.headOf x.task == some x && s.edgesMet x && !s.firstTile x)

/-- An alternative of the task waits on a buoy that has been signalled (R89). -/
def State.altSignalled (s : State) (x : TaskRef) : Bool :=
  (s.alternatives x.task).any (fun a => (s.waitEdges a).any (fun e => !s.isRemoteEdge e &&
    (match s.findBuoy (s.tf a TaskRec.context) (s.edf e EdgeRec.buoy) with | some (k, _) => s.plan.signalled.contains k | none => false)))

/-- The search is made again for every late task with an alternative that waits on a buoy signalled since (R89). -/
def State.recheckSlips (s : State) : State :=
  let late := s.plan.lateSeen.filter s.stillLate
  (late.filter s.altSignalled).foldl State.slip { s with plan := { s.plan with lateSeen := late, signalled := [] } }

/-- A dispatched command ends, and what its COMP_BUOY signals may release a slip. -/
def State.endCmd (s : State) (d : Dispatched) (status detail : Nat) : State := (s.complete d status detail).recheckSlips

/-- The running task that a command from outside the plan overlaps: one on a stream or shard it writes, else the task dispatched last (log entry 54, DEDUCED). -/
def State.overlapTask (s : State) (streams shards : Nat → Bool) : Nat :=
  let runs := s.plan.runs.map (fun r => r.ref.task)
  match runs.find? (fun t => (s.tf t TaskRec.stream != noRef && streams (s.tf t TaskRec.stream)) || (s.tf t TaskRec.shard != noRef && shards (s.tf t TaskRec.shard))) with
  | some t => t
  | none => (runs.getLast?).getD noRef

/-- An accepted command writes streams or shards of the plan that is RUNNING: it is reported (R109). -/
def State.overlapEvent (s : State) (q ctx op : Nat) (streams shards : Nat → Bool) : State :=
  if s.ch Ch.planState = Pl.running then s.raise ⟨0x0A05, s.overlapTask streams shards, op, q, some ctx, []⟩ else s

/-- DETAIL of STREAM_STATE: STATE and RESIDENCE (R139). -/
def State.streamDetail (s : State) (n : Nat) : Nat := s.stateOf n + 16 * s.residence n

/-- A 48-bit free value: a DETAIL that should name an event where the manual raises none here (log entry 75, DEDUCED). -/
def State.freeDetail (s : State) : Nat := ((Config.freeWord s.freeCount).toNat + (Config.freeWord (s.freeCount + 1)).toNat * 2 ^ 32) % 2 ^ 48

/-- A command ends with a status whose DETAIL names event `ev`, or, where no event reports it (`ev` 0), is a free value. -/
def State.endWith (s : State) (d : Dispatched) (status ev : Nat) : State :=
  if ev = 0 then (s.drew 2).endCmd d status s.freeDetail else s.endCmd d status ev

/-- A command ends early for a cause that an event reports: DETAIL names the event raised last (R139). -/
def State.failCmd (s : State) (d : Dispatched) (status : Nat) : State := s.endCmd d status (s.nextEvent - 1)

/-! ### Channels' records (R149), as far as ends of work need them -/

def State.chan (s : State) (c : Nat) : Nat := s.ch Ch.chtableBase + 64 * c
def State.chf (s : State) (c : Nat) (f : Fld) : Nat := s.fld (s.chan c) f
def State.setChf (s : State) (c : Nat) (f : Fld) (v : Nat) : State := s.setFld (s.chan c) f v

abbrev Cn.disabled : Nat := 0
abbrev Cn.idle : Nat := 1
abbrev Cn.ready : Nat := 2
abbrev Cn.running : Nat := 3
abbrev Cn.stopping : Nat := 4
abbrev Cn.stopped : Nat := 5
abbrev Cn.halted : Nat := 6

def State.itemsOf (s : State) (c : Nat) : List WorkItem := s.ferry.items.filter (fun i => i.channel == c)

/-- A lane is idle: its entries say so (R148). -/
def State.idleLane (s : State) (l : Nat) : State :=
  let s : State := { s with ferry := { s.ferry with lanes := s.ferry.lanes.erase l, requests := s.ferry.requests.filter (fun r => r.lane != l), slotWait := s.ferry.slotWait.filter (fun q => !(q.1 == Requester.lane l)) } }
  (s.setCh (Ch.laneState + 256 * l) 0).setCh (Ch.laneChannel + 256 * l) noRef

/-- The item at the head of a channel becomes ready now: after every item that was ready before (R144). -/
def State.headReady (s : State) (c : Nat) : State :=
  match s.ferry.items.find? (fun j => j.channel == c) with
  | none => s
  | some h => { s with ferry := { s.ferry with nextId := s.ferry.nextId + 1, items := s.ferry.items.map (fun j => if j.id = h.id then { j with ready := s.ferry.nextId + 1 } else j) } }

/-- A work item leaves its channel, which is then IDLE, or READY with another item waiting, or STOPPED where STOP was ordered, or DISABLED where its context is being torn down; a HALTED or DISABLED channel stays so (R150, R164). -/
def State.dropItem (s : State) (i : WorkItem) : State :=
  let lane := (s.ferry.lanes.find? (fun e => e.2.item == i.id)).map Prod.fst
  let s := match lane with | some l => s.idleLane l | none => s
  let s := match i.work, lane with
    | .exchange x, some _ => if s.tf x.task TaskRec.stream ≠ noRef ∧ !bit (s.tf x.task TaskRec.streamB) 31 then s.fetchEnds (s.tf x.task TaskRec.stream) else s
    | _, _ => s
  let s : State := { s with ferry := { s.ferry with items := s.ferry.items.filter (fun j => j.id != i.id) } }
  let st := s.chf i.channel ChanRec.state
  if st = Cn.disabled ∨ st = Cn.halted then s
  else if (s.itemsOf i.channel).isEmpty ∧ s.contextState (s.chf i.channel ChanRec.context) = 3 then s.setChf i.channel ChanRec.state Cn.disabled
  else if st = Cn.stopping then s.setFlds (s.chan i.channel) [(ChanRec.curDesc, 0), (ChanRec.state, Cn.stopped)]
  else if (s.itemsOf i.channel).isEmpty then s.setChf i.channel ChanRec.state Cn.idle
  else if lane.isSome ∨ st = Cn.stopped then (s.headReady i.channel).setChf i.channel ChanRec.state Cn.ready else s

/-- INT_VECTOR of a channel. -/
def State.chanInt (s : State) (c : Nat) : State :=
  if s.chf c ChanRec.intEnable = 1 then s.out (.interrupt (s.chf c ChanRec.intVector)) else s

/-- The descriptor an item has come to: CUR_DESC once a lane or a STOP has left one, the first of a chain before (R163). -/
def State.itemDesc (s : State) (i : WorkItem) : Nat :=
  if s.ferry.lanes.any (fun e => e.2.item == i.id) ∨ i.rest.isSome then s.chf i.channel ChanRec.curDesc
  else match i.work with | .chain a => a | _ => 0

/-- A work item ends early by the end of its source: reported, its interrupt given; its lane issues nothing further and is free once its requests are back (R161 to R163, R166, R182). The source ends without waiting for them (log entry 86, DESIGN CHOICE). -/
def State.endEarly (s : State) (status : Nat) (i : WorkItem) : State :=
  if i.source = .ended then s else
  let a := s.itemDesc i
  let tag := if a = 0 then 0 else Desc.descTag.get (s.rdNat a 64)
  let s := (s.raise ⟨0x0402, i.channel, evAddr 0 status, tag, some (s.chf i.channel ChanRec.context), [a]⟩).chanInt i.channel
  match s.ferry.lanes.find? (fun e => e.2.item == i.id) with
  | some (l, r) =>
    if s.ferry.requests.any (fun q => q.lane == l) then
      { s with ferry := { s.ferry with lanes := s.ferry.lanes.put l { r with failing := some status },
                                       items := s.ferry.items.map (fun j => if j.id = i.id then { j with source := .ended } else j) } }
    else s.dropItem i
  | none => s.dropItem i

/-! ### Ends of tasks -/

/-- The handles of a delivery that are not consumed carry ABORTED from now on (R182). -/
def State.abortTags (s : State) (c : Consumer) : State :=
  match c.ring with
  | none => s
  | some r =>
    let number := if c.shard then s.shf c.stream ShardRec.shardId else c.stream
    let mark := fun (e : Nat × HandleTag) =>
      if e.1 / 65536 = r ∧ e.2.number = number ∧ e.2.shard = c.shard ∧ c.first + c.taken ≤ e.2.firstTile then (e.1, { e.2 with aborted := true }) else e
    if c.count ≤ c.taken then s else { s with quays := updateAt s.quays c.die (fun q => { q with tags := q.tags.map mark }) }

/-- A consumer of expanded tiles is gone: its queue entries are free and its fetch has ended (R50, R240). -/
def State.dropConsumer (s : State) (c : Consumer) : State :=
  let s := s.abortTags c
  let s : State := { s with skerry := { s.skerry with consumers := s.skerry.consumers.filter (fun d => d.id != c.id), queue := s.skerry.queue.filter (fun e => e.consumer != c.id) } }
  if c.shard then s else s.fetchEnds c.stream

/-- The pin of an UPDATE command's work on the version it reads (R313). -/
def State.unpinRun (s : State) (v : Invocation) : State :=
  match v.source with
  | .cmd _ => if v.stream = noRef then s.modShard v.shard (fun z => { z with pins := z.pins.erase ((v.version + 65535) % 65536) }) else s
  | _ => s

/-- The work in progress of a source ends early with a status: its consumers, its engine, its Ferry item. -/
def State.endWork (s : State) (src : ItemFrom) (status : Nat) : State :=
  let s := (s.skerry.consumers.filter (fun (c : Consumer) => c.source == src)).foldl State.dropConsumer s
  let s := (s.engines.filter (fun (e : Nat × Engine) => (e.2.run.map Invocation.source) == some src)).foldl (fun (s : State) (e : Nat × Engine) =>
    let s := match e.2.run with | some v => s.unpinRun v | none => s
    let s : State := { s with engines := s.engines.put e.1 { e.2 with run := none } }
    if s.ch (Ch.engineState + 256 * e.1) = 1 then s.setCh (Ch.engineState + 256 * e.1) 0 else s) s
  (s.ferry.items.filter (fun (i : WorkItem) => i.source == src)).foldl (fun (s : State) i => s.endEarly status i) s

/-- The plan stops, or falls back to LOADED, as its tasks end (R98, R102, R293). -/
def State.settlePlan (s : State) : State :=
  let left := s.inOrder.filter (fun x => s.taskState x == Ts.pending)
  if s.ch Ch.planState = Pl.running ∧ s.plan.stopping ∧ s.plan.runs.isEmpty ∧ (s.planHdr PlanHdr.abortScope = 0 ∨ left.isEmpty) then
    let s := left.foldl (fun s x => (s.leaveEdges x).setTask x Ts.notRun) s
    let s := s.setCh Ch.planState Pl.stopped
    (s.ownersLost (fun b => b.owner == Bo.plan) 4 false true).1
  else s

/-- One task of an aborted group: ABORTED, its work ended, a stream it was filling ABORTED (R50, R102). -/
def State.abortTask (s : State) (x : TaskRef) : State :=
  let k := s.tf x.task TaskRec.taskKind
  let n := s.tf x.task TaskRec.stream
  let ran := s.taskState x == Ts.running
  let s := (s.leaveEdges x).setTask x Ts.aborted
  let s := (s.endWork (.task x) St.groupAborted).dropRun x
  let s := if ran then s.reduceOver x else s
  if ran ∧ (k = Tk.stow ∨ k = Tk.reduce ∨ k = Tk.exchange) ∧ s.stateOf n = Ss.filling then s.abortStream n else s

/-- Two tasks depend on each other through an edge, a version, or ring 0: `b` needs what `a` gives (R102; log entry 21, DEDUCED). -/
def State.dependsOn (s : State) (b a : TaskRef) : Bool :=
  let ctx := fun (t : Nat) => s.tf t TaskRec.context
  ((s.signalEdges a.task).any (fun e => s.edf e EdgeRec.remote == 0 && s.edf e EdgeRec.count != 0 &&
    (s.waitEdges b.task).any (fun d => s.edf d EdgeRec.remote == 0 && ctx a.task == ctx b.task && s.edf d EdgeRec.buoy == s.edf e EdgeRec.buoy))
    && decide (a.step < b.step ∨ (a.step = b.step ∧ a.task < b.task)))
  || (s.writesVersion a.task && s.tf b.task TaskRec.shard == s.tf a.task TaskRec.shard &&
      (let k := s.tf a.task TaskRec.shard
       let v := s.updatesBefore a k + 1
       let u := s.updatesBefore b k
       decide (v ≤ (if s.writesVersion b.task then u else u - s.tf b.task TaskRec.versionLag))))
  || (a.step == b.step && (s.tf a.task TaskRec.producer == b.task || s.tf b.task TaskRec.producer == a.task))

/-- The pending tasks that depend through any chain on a set of tasks (`fuel` rounds of growth). -/
def State.dependents (s : State) : Nat → List TaskRef → List TaskRef → List TaskRef
  | 0, _, found => found
  | fuel + 1, front, found =>
    let next := s.inOrder.filter (fun b => s.taskState b == Ts.pending && !found.contains b && front.any (fun a => s.dependsOn b a))
    if next.isEmpty then found else State.dependents s fuel next (found ++ next)

/-- A task's group is aborted in its own step, members that are DONE left so, with a cause, reported, and acted on under ABORT_SCOPE (R102; log entry 105, DEDUCED). -/
def State.abortGroup (s : State) (x : TaskRef) (cause : Nat) : State :=
  let g := s.tf x.task TaskRec.taskGroup
  let hit := s.inOrder.filter (fun y => y.step == x.step && s.tf y.task TaskRec.taskGroup == g
    && (s.taskState y == Ts.pending || s.taskState y == Ts.running))
  if hit.isEmpty then s else
  let scope := s.planHdr PlanHdr.abortScope
  let s := s.raise ⟨0x0A03, (hit.map TaskRef.task).headD noRef, g, cause + scope * 256, some (s.tf x.task TaskRec.context), []⟩
  let s := hit.foldl State.abortTask s
  let s : State := { s with plan := { s.plan with stopping := true } }
  let s := if scope = 1 then (s.dependents s.inOrder.length hit []).foldl (fun s y => (s.leaveEdges y).setTask y Ts.notRun) s else s
  s.settlePlan

/-- Several tasks' groups are aborted for one cause. -/
def State.abortGroups (s : State) (xs : List TaskRef) (cause : Nat) : State := xs.foldl (fun s x => s.abortGroup x cause) s

/-- The tasks in flight that consume a stream of the step that filled it. -/
def State.consumersInFlight (s : State) (n : Nat) : List TaskRef :=
  s.inOrder.filter (fun x => x.step + 1 == (s.aux n).bornStep && s.consumes x.task n)

/-- HELD or SERVING becomes FAULTED and the consumers' groups are aborted (R50, R58). -/
def State.faultStream (s : State) (n cause : Nat) : State :=
  if s.stateOf n = Ss.held ∨ s.stateOf n = Ss.serving then
    let s := (s.modAux n (fun a => { a with fetches := 0 })).setSf n StreamRec.state Ss.faulted
    s.abortGroups (s.consumersInFlight n) cause
  else s

/-- A signal edge of a task that completes: the cause where it fails (R286, R292, R295). -/
def State.signalEdge (s : State) (x : TaskRef) (e : Nat) : State × Option Nat :=
  let ctx := s.tf x.task TaskRec.context
  let n := s.edf e EdgeRec.count
  if n = 0 then (s, none)
  else if s.isRemoteEdge e then (s.sendBuoyOp (s.edf e EdgeRec.package) 1 ctx (s.edf e EdgeRec.buoy) n (.task x) e, none)
  else match s.signal ctx (s.edf e EdgeRec.buoy) n with
    | (s, .ended st _) => (s, if st = St.success then none else some st)
    | (s, .waits) => (s, none)

/-- The completion of a task: DONE, its pin and its consumer's release given up, its signal edges given in order up to one that fails, which aborts its group (R50, R74, R79, R94, R286). -/
def State.completeTask (s : State) (x : TaskRef) : State :=
  let k := s.tf x.task TaskRec.taskKind
  let n := s.tf x.task TaskRec.stream
  let r := (s.signalEdges x.task).foldl (fun (p : State × Option Nat) e => match p.2 with | some c => (p.1, some c) | none => p.1.signalEdge x e) (s, none)
  match r.2 with
  | some c => (r.1.abortGroup x c).recheckSlips
  | none =>
    let s := (r.1.setTask x Ts.done).dropRun x
    let s := if (k = Tk.feed ∨ k = Tk.recompute) ∧ n ≠ noRef then s.consumerDone n
      else if k = Tk.reduce ∧ s.storedMode n then (s.sourcesOf n).foldl State.consumerDone s else s
    s.settlePlan.recheckSlips

/-! ### Dispatch (R74) -/

/-- The dispatch of a task of a kind: at the head of its queue it enters its edges; once they are met, its version is written and `ready` holds, it is dispatched and `work` starts. A slip alternative that R89 has dispatched starts its work here. -/
def State.dispatch (s : State) (x : TaskRef) (kind : Nat) (ready : State → Bool) (work : State → State) : State :=
  if s.tf x.task TaskRec.taskKind ≠ kind ∨ s.taskCount ≤ x.task then s
  else match s.run x with
  | some r =>
    if r.begun then s
    else if s.lostStacks.any (s.taskOn x.task) then (s.abortGroup x St.stackLost).recheckSlips
    else if !ready s then s else work (s.modRun x (fun r => { r with begun := true }))
  | none =>
    if !s.atHead x then s else
    if s.lostStacks.any (s.taskOn x.task) then (s.abortGroup x St.stackLost).recheckSlips else
    match s.arrive x with
    | (s, some c) => (s.abortGroup x c).recheckSlips
    | (s, none) => if s.edgesMet x && s.versionReady x && s.tileReady x && !s.snapshotHolds x && ready s then work (s.beginTask x none) else s

/-- The number of tiles a task acts on, from TILE_FIRST (R71, R76). -/
def State.tileCount (s : State) (t n : Nat) : Nat :=
  let c := s.tf t TaskRec.tileCount
  if c = noRef then s.rangeTiles n - s.tf t TaskRec.tileFirst else c

/-! ### Steps (R83) -/

/-- The START_BUOY unit can be taken. -/
def State.startUnit (s : State) : Option (Nat × Buoy) :=
  match s.findBuoy (s.planHdr PlanHdr.planContext) (s.planHdr PlanHdr.startBuoy) with
  | some (k, b) => if b.kind = Bk.semaphore ∧ !b.lost ∧ b.waiters.isEmpty ∧ 1 ≤ b.count then some (k, b) else none
  | none => none

/-- STEP_START: one unit of START_BUOY starts a step, at most two being in flight, none once the plan stops or is to be replaced (R83, R98, R101, R102). -/
def execStepStart (s : State) : Host.Outcome State Fault Refusal :=
  if (s.ch Ch.planState = Pl.loaded ∨ s.ch Ch.planState = Pl.running) ∧ s.plan.steps.length < 2 ∧ !s.plan.stopping ∧ s.plan.next.isNone then
    match s.startUnit with
    | none => .next s
    | some (k, b) =>
      let n := s.plan.stepsBegun
      let s := s.setBuoy k { b with count := b.count - 1 }
      let s : State := { s with plan := { s.plan with steps := s.plan.steps ++ [Step.mk n []], stepsBegun := n + 1 } }
      .next (((List.range s.taskCount).foldl (fun (s : State) (t : Nat) => s.setFld (s.tables.tasks + 64 * t) TaskRec.taskState Ts.pending) s).setCh Ch.planState Pl.running)
  else .next s

/-- Dispatch of a COMPUTE task: once every ring-0 task that names it as PRODUCER has been dispatched, the sequencer is told that it may begin (R74, R173). -/
def execComputeTask (x : TaskRef) (s : State) : Host.Outcome State Fault Refusal :=
  .next (s.dispatch x Tk.compute
    (fun s => (List.range s.taskCount).all (fun t =>
      s.tf t TaskRec.producer != x.task || s.taskState ⟨x.step, t⟩ != Ts.pending))
    (fun s => s.out (.beginCompute x)))

/-- The COMPUTE task that runs on a die. -/
def State.computing (s : State) (d : Nat) : Option TaskRef :=
  (s.plan.runs.find? (fun r => s.tf r.ref.task TaskRec.taskKind == Tk.compute && s.execIndex r.ref.task == d && !r.suspended)).map TaskRun.ref

/-- Dispatch of a BARRIER task, which consists of its edges alone (R72). -/
def execBarrierTask (x : TaskRef) (s : State) : Host.Outcome State Fault Refusal :=
  .next (s.dispatch x Tk.barrier (fun _ => true) (fun s => s.finishRun x))

/-- TASK_LATE: LATE_US has passed with the edges of the head task satisfied and its first tile absent; its alternatives are searched (R88, R89). -/
def execTaskLate (x : TaskRef) (s : State) : Host.Outcome State Fault Refusal :=
  if !s.atHead x ∨ s.taskCount ≤ x.task then .next s else
  match s.arrive x with
  | (s, some c) => .next ((s.abortGroup x c).recheckSlips)
  | (s, none) =>
    if s.stillLate x then
      .next ({ s with plan := { s.plan with lateSeen := if s.plan.lateSeen.contains x then s.plan.lateSeen else s.plan.lateSeen ++ [x] } }.slip x)
    else .next s

end Sys2Proof.Machine
end

