-- ==== Sys2Proof/Machine/PlanLoad.lean ====
section
/-! DEFINITION. The plan's coming and going: the copy of its tables, the binding of its names, LOAD, REPLACE, UNLOAD, RESTART and the end of a step (R83, R97 to R105, R282, R297). -/

namespace Sys2Proof.Machine

/-! ### Places of an image's sections (R67 to R69) -/

/-- The tables of an image read where it lies. -/
def State.imageTables (s : State) (img : Nat) : Tables :=
  { header := img, streams := img + s.fld img PlanHdr.streamOffset, tasks := img + s.fld img PlanHdr.taskOffset,
    edges := img + s.fld img PlanHdr.edgeOffset, slips := img + s.fld img PlanHdr.slipOffset, shards := img + s.fld img PlanHdr.shardOffset }

/-- The state seen as if the image were the installed plan: its records are read in place. -/
def State.asLoaded (s : State) (img : Nat) : State :=
  { s with plan := { Plan.reset with tables := some (s.imageTables img) }, streams := [] }

/-- The bytes of the header and of the five tables. -/
def State.tableSizes (s : State) : List Nat :=
  [160, 64 * s.planHdr PlanHdr.streamCount, 64 * s.planHdr PlanHdr.taskCount, 16 * s.planHdr PlanHdr.edgeCount,
   32 * s.planHdr PlanHdr.slipCount, 32 * s.planHdr PlanHdr.shardCount]

/-- Places in TABLE_REGION for the header and each table, taken one after another; none where one does not fit (R67, R101). -/
def State.placeAll (s : State) (region : Nat) : List Nat → Option (State × List Nat)
  | [] => some (s, [])
  | b :: bs =>
    match (if b = 0 then some 0 else s.placeTable region b) with
    | none => none
    | some a =>
      match State.placeAll (s.take region a b) region bs with
      | none => none
      | some r => some (r.1, a :: r.2)

/-- The sections of the image are copied into the places, and its header with them (R67; log entry 104, DEDUCED). -/
def State.copyTables (s : State) (img : Nat) : Option (State × Tables) :=
  let v := s.asLoaded img
  let t := s.imageTables img
  match s.placeAll (s.fld img PlanHdr.tableRegion) v.tableSizes with
  | some (s', [h, a, b, c, d, e]) =>
    let srcs := [t.header, t.streams, t.tasks, t.edges, t.slips, t.shards]
    let s'' := ((srcs.zip [h, a, b, c, d, e]).zip v.tableSizes).foldl (fun (s : State) p => s.store p.1.2 (s'.rd p.1.1 p.2)) s'
    some (s'', ⟨h, a, b, c, d, e⟩)
  | _ => none

/-- The places of a plan's tables in its region are returned. -/
def State.giveTablesOf (s : State) (t : Tables) : State :=
  [t.header, t.streams, t.tasks, t.edges, t.slips, t.shards].foldl (fun (s : State) a => if a = 0 then s else s.give (s.fld t.header PlanHdr.tableRegion) a) s

def State.giveTables (s : State) : State :=
  match s.plan.tables with
  | none => s
  | some t => s.giveTablesOf t

/-! ### Names (R282, R297) -/

/-- The local names a plan uses: context, name, whether a barrier, and its BARRIER edges in one step. -/
def State.planNames (s : State) : List (Nat × Nat × Bool × Nat) :=
  let edges := (List.range s.taskCount).flatMap (fun t =>
    ((s.waitEdges t ++ s.signalEdges t).filter (fun e => !s.isRemoteEdge e)).map (fun e => (s.tf t TaskRec.context, s.edf e EdgeRec.buoy, s.edf e EdgeRec.edgeKind == 3)))
  let pc := s.planHdr PlanHdr.planContext
  let all := [(pc, s.planHdr PlanHdr.startBuoy, false), (pc, s.planHdr PlanHdr.endBuoy, false)] ++ edges
  all.eraseDups.map (fun k => (k.1, k.2.1, k.2.2, (edges.filter (fun e => e == k)).length))

/-- A name is bound with owner PLAN unless it is bound already. -/
def State.bindName (s : State) (k : Nat × Nat × Bool × Nat) : State :=
  if (s.findBuoy k.1 k.2.1).isSome then s else
  match s.freeBuoy with
  | none => s
  | some p => s.setBuoy p (if k.2.2.1 then Buoy.bind k.1 k.2.1 Bk.barrier Bo.plan 0 0 k.2.2.2
                           else Buoy.bind k.1 k.2.1 Bk.semaphore Bo.plan 0xFFFFFFFF 0 0)

/-- Every plan-owned name for which `keep` does not hold is unbound; what waited on it ends as at an owner loss (R293, R297). -/
def State.unbindPlan (s : State) (keep : Nat → Nat → Bool) : State :=
  let gone := s.buoys.filter (fun e => e.2.owner == Bo.plan && !keep e.2.context e.2.name)
  let s := gone.foldl (fun (s : State) e => (s.ownerLost e.1 4 false true).1) s
  { s with buoys := s.buoys.filter (fun e => !(e.2.owner == Bo.plan && !keep e.2.context e.2.name)) }

/-- The BARRIER edges of the plan start at the round of their barrier. The round of a remote one is its package's to say: a free value, drawn from `from_` on, one for each edge (R291; log entry 22, DESIGN CHOICE). -/
def State.startRounds (s : State) (from_ : Nat) : SMap Nat :=
  (List.range s.taskCount).foldl (fun m t => (s.waitEdges t).foldl (fun (m : SMap Nat) e =>
    if s.edf e EdgeRec.edgeKind = 3 then
      m.put e (if s.isRemoteEdge e then (Config.freeWord (from_ + e)).toNat else match s.findBuoy (s.tf t TaskRec.context) (s.edf e EdgeRec.buoy) with | some (_, b) => b.round | none => 0)
    else m) m) []

/-! ### Installing and removing (R98, R101) -/

/-- The Soundings tables are zeroed at each LOAD and REPLACE (R480). -/
def State.zeroSoundings (s : State) : State :=
  let s := if s.ch Ch.layerSndBase = 0 then s else s.store (s.ch Ch.layerSndBase) (List.replicate 0x100000 0)
  if s.ch Ch.streamSndBase = 0 then s else s.store (s.ch Ch.streamSndBase) (List.replicate 0x400000 0)

/-- Every stream of the plan that is not RELEASED or UNBORN gives back its storage (R98, R101, R103). -/
def State.releaseAllStreams (s : State) : State :=
  (List.range s.streamCount).foldl (fun s n =>
    if s.stateOf n = Ss.unborn ∨ s.stateOf n = Ss.released then s
    else let s := s.giveStorage n
         (s.setSf n StreamRec.state Ss.released).setSf n StreamRec.residence Rs.none) s

/-- A STREAM generation whose stream leaves the loaded plan is no longer current (R205). -/
def State.dropStreamGens (s : State) (stays : GenSlot → Bool) : State :=
  let gens := s.skerry.gens.map (fun (g : GenSlot) => if g.state = 2 ∧ g.scope = 0 ∧ !stays g then { g with state := 3 } else g)
  let s' := s.setGens gens
  s'.settleGens

/-- The report of this package to its group's master (R104, R393): GROUP_DIGEST in the payload, PACKAGE_INDEX in ARG, PLAN_EPOCH in the header. -/
def State.reportEpoch (s : State) : State :=
  if s.ch Ch.groupId = 0 ∨ s.isMaster then s else
  match s.pkgAt s.masterPosition with
  | some m => s.send m Mk.epochReport (s.planHdr PlanHdr.packageIndex) (s.rd (s.tables.header + 112) 32)
  | none => s

/-- The members whose reports disagree with this package's plan: bits by position, and [0] epoch, [1] digest, [2] a duplicate index (R104). -/
def State.epochDiffers (s : State) : Nat × Nat :=
  let own := s.planHdr PlanHdr.planEpoch
  let digest := s.rd (s.tables.header + 112) 32
  let idx := s.planHdr PlanHdr.packageIndex
  let es := s.cascade.epochs
  let dup := fun (p i : Nat) => i == idx || es.any (fun e => e.1 != p && e.2.2.2 == i)
  es.foldl (fun (m : Nat × Nat) (e : Nat × Nat × List Byte × Nat) =>
    let b := (if e.2.1 ≠ own then 1 else 0) + (if e.2.2.1 ≠ digest then 2 else 0) + (if dup e.1 e.2.2.2 then 4 else 0)
    if b = 0 then m else (m.1 ||| 2 ^ e.1, m.2 ||| b)) (0, 0)

/-- The master has every member's report: rounds are released, or the mismatch is reported here and told to the members (R104). -/
def State.settleEpoch (s : State) : State :=
  if s.ch Ch.groupId = 0 ∨ !s.isMaster ∨ !s.planLoaded ∨ s.plan.epochDone ∨ !s.otherMembers.all (fun p => (s.cascade.epochs.find p).isSome) then s else
  match s.epochDiffers with
  | (0, _) =>
    let s : State := { s with plan := { s.plan with epochDone := true } }
    s.buoys.foldl (fun (s : State) (e : Nat × Buoy) => State.roundComplete 3 s e.1) s
  | (m, b) =>
    let s := s.raise ⟨0x0A04, s.planHdr PlanHdr.planEpoch, m, b, none, []⟩
    (s.otherMembers.filterMap s.pkgAt).foldl (fun (s : State) pkg => s.send pkg Mk.epochReport (s.planHdr PlanHdr.packageIndex) (s.rd (s.tables.header + 112) 32)) s

/-- The tables become the plan: LOADED, each record as R43 leaves it, STEP_COUNT 0, its names bound, its rounds begun. `base` gives the updates of each shard so far (R101). -/
def State.install (s : State) (t : Tables) (base : SMap Nat) : State :=
  let s : State := { s with plan := { Plan.reset with tables := some t, baseUpdates := base } }
  let s := (List.range s.streamCount).foldl (fun (s : State) n => s.setSf n StreamRec.remaining (s.sf n StreamRec.consumers)) s
  let s := s.planNames.foldl State.bindName s
  let s : State := { s with plan := { s.plan with rounds := s.startRounds s.freeCount } }
  let s := if (List.range s.edgeCount).any s.isRemoteEdge then s.drew s.edgeCount else s
  let own := s.planHdr PlanHdr.planEpoch
  let s : State := { s with cascade := { s.cascade with epochs := s.cascade.epochs.filter (fun e => decide (own ≤ e.2.1)) } }
  (((s.zeroSoundings.setCh Ch.planState Pl.loaded).setCh Ch.reefLedgerPeak 0).reportEpoch).settleEpoch

/-- The shard record of the loaded plan that a record of the tables `v` continues (R101). -/
def State.oldShard (s v : State) (k : Nat) : Option Nat :=
  (List.range s.shardCount).find? (fun j => s.shf j ShardRec.shardId == v.shf k ShardRec.shardId)

/-- The updates a shard of the loaded plan has had once no step is in flight. -/
def State.updateCount (s : State) (k : Nat) : Nat :=
  s.plan.baseUpdates.getD k 0 + s.plan.stepsBegun * (s.tasksWhere (fun t => s.updates t k)).length

/-- The first passes of the streams that leave the plan are over, and their slots free: a command behind one that samples ends GROUP_ABORTED with its stream, one behind an armed one FLUSHED (R209, R220; log entry 24, DEDUCED). -/
def State.leavePasses (s : State) (stays : Nat → Bool) : State :=
  (s.streams.filter (fun e => !stays e.1)).foldl (fun (s : State) (e : Nat × StreamAux) =>
    let end_ := fun (s : State) (p : FirstPass) =>
      match p.cmd.bind (fun tag => s.dispatched.find? (fun d => d.tag == tag)) with
      | some d => if p.active then s.endWith d St.groupAborted 0 else s.endCmd d St.flushed 0
      | none => s
    (e.2.pass.toList ++ e.2.armed.toList).foldl end_ ((s.dropPass e.1).dropPass e.1)) s

/-- The buffers of ring 4 keep what they hold of the shards that stay (R181). -/
def State.keepResident (s : State) (stays : Nat → Bool) : State :=
  { s with quays := s.quays.map (fun q => { q with resident := q.resident.filter (fun e => stays e.2.shardId) }) }

/-- A validated replacement takes over once no step is in flight (R101): old streams released, names handled as R297 says, shards with the same SHARD_ID continued. -/
def State.replacePlan (s : State) (t : Tables) : State :=
  let v : State := { s with plan := { Plan.reset with tables := some t } }
  let pairs := (List.range v.shardCount).filterMap (fun k => (s.oldShard v k).map (fun j => (k, j)))
  let base := pairs.foldl (fun (m : SMap Nat) p => m.put p.1 (s.updateCount p.2)) []
  let n : Int := s.plan.stepsBegun
  let delayed := fun (j : Nat) => ((s.shardOpt j).any (fun a => s.fld a OptRec.delay != 0))
  let renumber := fun (j : Nat) (a : ShardAux) => { a with complete := a.complete.map (fun c => (c.1 - n, c.2)), landings := [], marks := [], open_ := if delayed j then 0 else a.open_ }
  let shards := pairs.foldl (fun (m : SMap ShardAux) p => m.put p.1 (renumber p.2 (s.shard p.2))) []
  let vers := pairs.map (fun p => (p.1, s.shf p.2 ShardRec.currentVersion))
  let kept := pairs.map (fun p => s.shf p.2 ShardRec.shardId)
  let names := v.planNames
  let s := (pairs.filterMap (fun p => if delayed p.2 then s.shardOpt p.2 else none)).foldl (fun (s : State) a => s.setFld a OptRec.added 0) s
  let s := ((s.leavePasses (fun m => m < v.streamCount)).keepResident kept.contains).releaseAllStreams
  let s := s.giveTables
  let s := s.unbindPlan (fun c n => names.any (fun k => k.1 == c && k.2.1 == n))
  let s : State := { s with streams := (s.streams.filter (fun e => e.1 < v.streamCount)).map (fun e =>
      (e.1, { StreamAux.fresh with heldRec := e.2.heldRec, recSize := e.2.recSize, pass := e.2.pass, armed := e.2.armed })), shards := shards }
  let s := s.install t base
  let s := vers.foldl (fun (s : State) p => s.setFld (s.tables.shards + 32 * p.1) ShardRec.currentVersion p.2) s
  (s.setCh Ch.replacePending 0).dropStreamGens (fun g => g.stream < s.streamCount && s.sf g.stream StreamRec.context == g.context
    && coderKind (s.sf g.stream StreamRec.classF) (s.sf g.stream StreamRec.elemType) == g.kind)

/-- A pending replacement goes in when it is validated and no step is in flight; a stopped plan has none (R101; log entry 23, DEDUCED). -/
def State.tryReplace (s : State) : State :=
  match s.plan.next with
  | some (t, _) => if s.plan.steps.isEmpty ∨ s.ch Ch.planState = Pl.stopped then s.replacePlan t else s
  | none => s

/-- STEP_END: every task of the oldest step is DONE: END_BUOY is signalled once, STEP_COUNT counts, and the plan is LOADED again when nothing follows (R83, R98). -/
def execStepEnd (step : Nat) (s : State) : Host.Outcome State Fault Refusal :=
  match s.plan.steps with
  | [] => .next s
  | st :: rest =>
    if st.num = step ∧ (List.range s.taskCount).all (fun t => st.tasks.getD t Ts.pending == Ts.done) then
      let s : State := { s with plan := { s.plan with steps := rest, stepCount := s.plan.stepCount + 1 },
                                shards := s.shards.map (fun e => (e.1, { e.2 with marks := e.2.marks.filter (· != step) })) }
      let s := s.setFld s.tables.header PlanHdr.stepCount s.plan.stepCount
      let s := (s.signal (s.planHdr PlanHdr.planContext) (s.planHdr PlanHdr.endBuoy) 1).1
      let s := if rest.isEmpty ∧ s.startUnit.isNone ∧ s.ch Ch.planState = Pl.running ∧ !s.plan.stopping then s.setCh Ch.planState Pl.loaded else s
      .next s.tryReplace.recheckSlips
    else .next s

/-! ### PLAN_LOAD actions (R97, R98, R140) -/

/-- DETAIL of PLAN_STATE (R139). -/
def State.planDetail (s : State) : Nat := s.ch Ch.planState + 16 * s.ch Ch.replacePending

/-- A PLAN_LOAD command with an action that the plan state permits, by the actions' numbers in R134. -/
def State.planCmd (s : State) (c action : Nat) : Option Dispatched :=
  (s.cmd c Op.planLoad).filter (fun d => cmdGet d.word CmdPlan.action == action && d.stage == .ready)

/-- The action has a row in R98 for the plan state; a second REPLACE has none while one is pending (log entry 23, DEDUCED). -/
def State.actionAllowed (s : State) (action : Nat) : Bool :=
  let p := s.ch Ch.planState
  if action = 1 then p == Pl.empty else if action = 2 then (p == Pl.loaded || p == Pl.running) && s.ch Ch.replacePending == 0
  else if action = 3 then p == Pl.loaded || p == Pl.stopped else p == Pl.stopped

/-- LOAD: the plan is LOADING until its image is validated. -/
def execLoad (c : Nat) (s : State) : Host.Outcome State Fault Refusal :=
  match s.planCmd c 1 with
  | none => .next s
  | some d =>
    if !s.actionAllowed 1 then .next (s.endCmd d St.planState s.planDetail) else
    let s : State := { s with plan := { s.plan with validating := some ⟨c, cmdGet d.word CmdPlan.image, false⟩ } }
    .next ((s.setStage c .underway 0).setCh Ch.planState Pl.loading)

/-- REPLACE: a replacement is pending, and its image is validated while the old plan goes on. -/
def execReplace (c : Nat) (s : State) : Host.Outcome State Fault Refusal :=
  match s.planCmd c 2 with
  | none => .next s
  | some d =>
    if !s.actionAllowed 2 then .next (s.endCmd d St.planState s.planDetail) else
    let s : State := { s with plan := { s.plan with validating := some ⟨c, cmdGet d.word CmdPlan.image, true⟩ } }
    .next ((s.setStage c .underway 0).setCh Ch.replacePending 1)

/-- UNLOAD: every stream released, the tables returned, held records given up, plan-owned names unbound, EMPTY; shards stay where they are (R98, R234, R297). -/
def State.unloadPlan (s : State) : State :=
  let s := (s.keepResident (fun _ => false)).releaseAllStreams
  let s := s.streams.foldl (fun (s : State) e => if e.2.heldRec = 0 then s else s.give (s.sf e.1 StreamRec.region) e.2.heldRec) s
  let s := s.giveTables
  let s := s.unbindPlan (fun _ _ => false)
  let s : State := { s with plan := Plan.reset, streams := [], shards := [], comparisons := [] }
  (s.setCh Ch.planState Pl.empty).dropStreamGens (fun _ => false)

/-- A replacement that has not taken over is given up with the plan it was to replace: its tables returned, a command that validates it ended PLAN_STATE (log entry 23, DEDUCED). -/
def State.dropReplacement (s : State) : State :=
  let s := match s.plan.next with | some (t, _) => s.giveTablesOf t | none => s
  let v := s.plan.validating.bind (fun x => s.dispatched.find? (fun d => d.tag == x.tag))
  let s : State := { s with plan := { s.plan with next := none, validating := none } }
  let s := s.setCh Ch.replacePending 0
  match v with
  | some d => s.endCmd d St.planState s.planDetail
  | none => s

/-- UNLOAD disarms every difference stream (R324). -/
def State.disarmDiffs (s : State) : State :=
  ((List.range (s.ch Ch.ostateCount)).map (fun k => s.ch Ch.ostateBase + 128 * k)).foldl (fun (s : State) a =>
    if s.fld a OptRec.diffArmed = 1 then s.setFld a OptRec.diffArmed 0 else s) s

/-- UNLOAD. -/
def execUnload (c : Nat) (s : State) : Host.Outcome State Fault Refusal :=
  match s.planCmd c 3 with
  | none => .next s
  | some d =>
    if !s.actionAllowed 3 then .next (s.endCmd d St.planState s.planDetail)
    else .next (((s.dropReplacement.leavePasses (fun _ => false)).disarmDiffs.unloadPlan).endCmd d St.success 0)

/-- RESTART's reset of plan-owned buoys (R297). -/
def State.restartBuoys (s : State) : State :=
  let pc := s.planHdr PlanHdr.planContext
  let keep := fun (b : Buoy) => b.context == pc && (b.name == s.planHdr PlanHdr.startBuoy || b.name == s.planHdr PlanHdr.endBuoy)
  let reset := fun (e : Nat × Buoy) =>
    if e.2.owner ≠ Bo.plan then e
    else if e.2.kind = Bk.semaphore then (if keep e.2 then e else (e.1, { e.2 with count := 0 }))
    else (e.1, { e.2 with entries := [], parked := [] })
  let s : State := { s with buoys := s.buoys.map reset }
  let next := fun (m : SMap Nat) (t e : Nat) =>
    if s.edf e EdgeRec.edgeKind = 3 ∧ !s.isRemoteEdge e then
      match s.findBuoy (s.tf t TaskRec.context) (s.edf e EdgeRec.buoy) with
      | some (_, b) => if b.owner = Bo.plan then m.put e b.round else m
      | none => m
    else m
  let rounds := (List.range s.taskCount).foldl (fun (m : SMap Nat) t => (s.waitEdges t).foldl (fun (m : SMap Nat) e => next m t e) m) s.plan.rounds
  { s with plan := { s.plan with rounds := rounds } }

/-- A shard carries the mark of R103: a task of a stopped step that writes it has been dispatched, and no RESTORE has brought it back. -/
def State.anyMarked (s : State) : Bool := s.shards.any (fun e => e.2.marks.any (fun k => s.plan.steps.any (fun st => st.num == k)))

/-- The open windows are begun anew: ADDED is zero and what had landed is gone; complete windows stay (R326). -/
def State.reopenWindows (s : State) : State :=
  let recs := (List.range (s.ch Ch.ostateCount)).map (fun k => s.ch Ch.ostateBase + 128 * k)
  let used := (List.range s.shardCount).map (fun k => s.shf k ShardRec.shardId)
  let s := recs.foldl (fun (s : State) a => if used.contains (s.fld a OptRec.shardId) ∧ s.fld a OptRec.added ≠ 0 then s.setFld a OptRec.added 0 else s) s
  { s with shards := s.shards.map (fun e => (e.1, { e.2 with landings := [] })) }

/-- RESTART (R103): the streams of the stopped steps discarded, their tasks PENDING, the plan LOADED; the steps run again from the first that stopped. -/
def execRestart (c : Nat) (s : State) : Host.Outcome State Fault Refusal :=
  match s.planCmd c 4 with
  | none => .next s
  | some d =>
    if !s.actionAllowed 4 then .next (s.endCmd d St.planState s.planDetail)
    else if s.anyMarked then .next (s.endCmd d St.restartDenied 0)
    else
      let steps := s.plan.steps.map Step.num
      let s := (List.range s.streamCount).foldl (fun (s : State) n =>
        if steps.contains ((s.aux n).bornStep - 1) ∧ s.stateOf n ≠ Ss.released ∧ s.stateOf n ≠ Ss.unborn then
          ((s.release n).bornAgain n).modAux n (fun a => { a with bornStep := 0 }) else s) s
      let s := (List.range s.taskCount).foldl (fun (s : State) t => s.setFld (s.tables.tasks + 64 * t) TaskRec.taskState Ts.pending) s
      let s := s.restartBuoys.reopenWindows
      let s : State := { s with plan := { s.plan with steps := [], stepsBegun := steps.headD s.plan.stepsBegun, stopping := false, lateSeen := [], arrived := [] } }
      .next ((s.setCh Ch.planState Pl.loaded).endCmd d St.success 0)

end Sys2Proof.Machine
end

