-- ==== Sys2Proof/Machine/Floats.lean ====
section
/-! DEFINITION. Exact arithmetic and its one rounding: binary32, bfloat16, binary16 values, the vector operations of R259 to R264, generation-2 emulation (R274), and the correctly rounded functions of R261. -/

namespace Sys2Proof.Machine

/-- A value: not a number, an infinity, or the exact number (−1)^neg × m × 2^e (a zero keeps its sign). -/
inductive Num where
  | nan
  | inf (neg : Bool)
  | fin (neg : Bool) (m : Nat) (e : Int)
  deriving DecidableEq, Repr

/-- A binary format: significant bits, exponent of the least subnormal, the bits of infinity. -/
structure Fmt where
  p    : Nat
  qmin : Int
  inf  : Nat
  sign : Nat
  deriving DecidableEq, Repr

def f32 : Fmt := ⟨24, -149, 0x7F800000, 0x80000000⟩
def bf16 : Fmt := ⟨8, -133, 0x7F80, 0x8000⟩
def f16 : Fmt := ⟨11, -24, 0x7C00, 0x8000⟩

/-- The canonical quiet NaN of a format (R259, R260). -/
def Fmt.nan (f : Fmt) : Nat := f.inf + 2 ^ (f.p - 2)

/-- The value of a bit pattern. -/
def Fmt.decode (f : Fmt) (bits : Nat) : Num :=
  let neg := decide (f.sign ≤ bits % (2 * f.sign))
  let mag := bits % f.sign
  if f.inf < mag then .nan
  else if mag = f.inf then .inf neg
  else
    let ex := mag / 2 ^ (f.p - 1)
    let fr := mag % 2 ^ (f.p - 1)
    if ex = 0 then .fin neg fr f.qmin else .fin neg (fr + 2 ^ (f.p - 1)) (f.qmin + ((ex - 1 : Nat) : Int))

/-- How a magnitude is rounded. -/
inductive Rnd where
  | even
  | up
  | down
  deriving DecidableEq, Repr

/-- The magnitude n ÷ d × 2^e rounded to a format's bits without sign; beyond the largest finite value it is infinity. -/
def Fmt.round (f : Fmt) (r : Rnd) (n d : Nat) (e : Int) : Nat :=
  if n = 0 then 0 else
  let t : Int := (Nat.log2 n : Int) - (Nat.log2 d : Int)
  let below : Bool := if 0 ≤ t then decide (n < d * 2 ^ t.toNat) else decide (n * 2 ^ (-t).toNat < d)
  let lg : Int := (if below then t - 1 else t) + e
  let q : Int := max (lg - ((f.p : Int) - 1)) f.qmin
  let s : Int := e - q
  let n' := if 0 ≤ s then n * 2 ^ s.toNat else n
  let d' := if 0 ≤ s then d else d * 2 ^ (-s).toNat
  let m := n' / d'
  let rest := 2 * (n' % d')
  let m := match r with
    | .even => if d' < rest ∨ (rest = d' ∧ m % 2 = 1) then m + 1 else m
    | .up => if 0 < rest then m + 1 else m
    | .down => m
  let bits := (q - f.qmin).toNat * 2 ^ (f.p - 1) + m
  if f.inf ≤ bits then f.inf else bits

/-- The modes of an engine (R259, R274). -/
inductive NMode where
  | native
  | g2
  deriving DecidableEq, Repr

/-- A non-zero magnitude is smaller than 2^−126: judged before rounding (R274). -/
def tiny (n d : Nat) (e : Int) : Bool :=
  let s : Int := e + 126
  n != 0 && (if 0 ≤ s then decide (n * 2 ^ s.toNat < d) else decide (n < d * 2 ^ (-s).toNat))

/-- The result n ÷ d × 2^e with a sign, rounded once to binary32, or to bfloat16 kept as a binary32 pattern (R259, R260, R274). -/
def roundRes (g : NMode) (bf neg : Bool) (n d : Nat) (e : Int) : Nat :=
  let mag := if g = .g2 ∧ tiny n d e then 0
    else if bf then bf16.round .even n d e * 65536 else f32.round .even n d e
  mag + (if neg then 0x80000000 else 0)

def nan32 : Nat := 0x7FC00000
def inf32 (neg : Bool) : Nat := 0x7F800000 + (if neg then 0x80000000 else 0)

/-- An operand of an engine: in G2 emulation a subnormal reads as zero of its sign (R274). -/
def operand (g : NMode) (bits : Nat) : Num :=
  match f32.decode bits with
  | .fin neg m e => if g = .g2 ∧ tiny m 1 e then .fin neg 0 e else .fin neg m e
  | v => v

/-- A value rounded as a result. -/
def roundNum (g : NMode) (bf : Bool) : Num → Nat
  | .nan => nan32
  | .inf neg => inf32 neg
  | .fin neg m e => roundRes g bf neg m 1 e

def Num.neg : Num → Num
  | .nan => .nan
  | .inf s => .inf !s
  | .fin s m e => .fin (!s) m e

def Num.isNan : Num → Bool
  | .nan => true
  | _ => false

/-- The exact sum; a zero sum is + unless both terms are −0 (R259). -/
def Num.add : Num → Num → Num
  | .nan, _ => .nan
  | _, .nan => .nan
  | .inf a, .inf b => if a = b then .inf a else .nan
  | .inf a, _ => .inf a
  | _, .inf b => .inf b
  | .fin a m e, .fin b n f =>
    if m = 0 ∧ n = 0 then .fin (a && b) 0 0
    else if m = 0 then .fin b n f
    else if n = 0 then .fin a m e
    else
      let q := min e f
      let x : Int := (if a then -1 else 1) * (m * 2 ^ (e - q).toNat : Nat)
      let y : Int := (if b then -1 else 1) * (n * 2 ^ (f - q).toNat : Nat)
      if x + y = 0 then .fin false 0 0 else .fin (decide (x + y < 0)) (x + y).natAbs q

def Num.mul : Num → Num → Num
  | .nan, _ => .nan
  | _, .nan => .nan
  | .inf a, .inf b => .inf (a != b)
  | .inf a, .fin b n _ => if n = 0 then .nan else .inf (a != b)
  | .fin a m _, .inf b => if m = 0 then .nan else .inf (a != b)
  | .fin a m e, .fin b n f => .fin (a != b) (m * n) (e + f)

/-- Order of two numbers that are not NaN. -/
def Num.lt : Num → Num → Bool
  | .nan, _ => false
  | _, .nan => false
  | .inf a, .inf b => a && !b
  | .inf a, _ => a
  | _, .inf b => !b
  | .fin a m e, .fin b n f =>
    let q := min e f
    let x : Int := (if a then -1 else 1) * (m * 2 ^ (e - q).toNat : Nat)
    let y : Int := (if b then -1 else 1) * (n * 2 ^ (f - q).toNat : Nat)
    decide (x < y)

def Num.eq : Num → Num → Bool
  | .nan, _ => false
  | _, .nan => false
  | a, b => !a.lt b && !b.lt a

/-! ### The vector operations, on binary32 patterns -/

def vAdd (g : NMode) (bf : Bool) (a b : Nat) : Nat := roundNum g bf ((operand g a).add (operand g b))
def vSub (g : NMode) (bf : Bool) (a b : Nat) : Nat := roundNum g bf ((operand g a).add (operand g b).neg)
def vMul (g : NMode) (bf : Bool) (a b : Nat) : Nat := roundNum g bf ((operand g a).mul (operand g b))
def vFma (g : NMode) (bf : Bool) (a b c : Nat) : Nat := roundNum g bf (((operand g a).mul (operand g b)).add (operand g c))

def signBit32 (a : Nat) : Bool := a / 0x80000000 % 2 == 1

/-- VMAX, with −0 below +0; NaN if either is (R259). -/
def vMax (g : NMode) (bf : Bool) (a b : Nat) : Nat :=
  let x := operand g a
  let y := operand g b
  if x.isNan || y.isNan then nan32
  else if x.eq y then (if signBit32 a then roundNum g bf y else roundNum g bf x)
  else if x.lt y then roundNum g bf y else roundNum g bf x

def vMin (g : NMode) (bf : Bool) (a b : Nat) : Nat :=
  let x := operand g a
  let y := operand g b
  if x.isNan || y.isNan then nan32
  else if x.eq y then (if signBit32 a then roundNum g bf x else roundNum g bf y)
  else if x.lt y then roundNum g bf x else roundNum g bf y

def vAbs (g : NMode) (bf : Bool) (a : Nat) : Nat :=
  match operand g a with
  | .nan => nan32
  | .inf _ => inf32 false
  | .fin _ m e => roundRes g bf false m 1 e

def vNeg (g : NMode) (bf : Bool) (a : Nat) : Nat := roundNum g bf (operand g a).neg

def vGt (g : NMode) (a b : Nat) : Bool := (operand g b).lt (operand g a)
def vGe (g : NMode) (a b : Nat) : Bool :=
  let x := operand g a
  let y := operand g b
  !(x.isNan || y.isNan) && !x.lt y
def vEq (g : NMode) (a b : Nat) : Bool := (operand g a).eq (operand g b)

/-! ### Correctly rounded functions (R261): in G2 emulation they round to bfloat16 precision even without BF (R274) -/

def vDiv (g : NMode) (bf : Bool) (a b : Nat) : Nat :=
  let bf := bf || g = .g2
  match operand g a, operand g b with
  | .nan, _ => nan32
  | _, .nan => nan32
  | .inf _, .inf _ => nan32
  | .inf s, .fin t _ _ => inf32 (s != t)
  | .fin s _ _, .inf t => if s != t then 0x80000000 else 0
  | .fin s m e, .fin t n f =>
    if n = 0 then (if m = 0 then nan32 else inf32 (s != t)) else roundRes g bf (s != t) m n (e - f)

/-- The integer square root, by bits from bit `k` downwards. -/
def isqrtBits : Nat → Nat → Nat → Nat
  | 0, _, r => r
  | k + 1, n, r =>
    let t := r + 2 ^ k
    isqrtBits k n (if t * t ≤ n then t else r)

def isqrt (n : Nat) : Nat := isqrtBits (Nat.log2 n / 2 + 1) n 0

/-- √(m × 2^e) as n ÷ 2 × 2^q, the lowest bit of n marking an inexact root. -/
def sqrtParts (m : Nat) (e : Int) : Nat × Int :=
  let e' := if e % 2 = 0 then e - 64 else e - 65
  let m' := m * 2 ^ (e - e').toNat
  let r := isqrt m'
  (2 * r + (if r * r = m' then 0 else 1), e' / 2)

def vSqrt (g : NMode) (bf : Bool) (a : Nat) : Nat :=
  let bf := bf || g = .g2
  match operand g a with
  | .nan => nan32
  | .inf s => if s then nan32 else inf32 false
  | .fin s m e =>
    if m = 0 then (if s then 0x80000000 else 0) else if s then nan32 else
    let p := sqrtParts m e
    roundRes g bf false p.1 2 p.2

def vRsqrt (g : NMode) (bf : Bool) (a : Nat) : Nat :=
  let bf := bf || g = .g2
  match operand g a with
  | .nan => nan32
  | .inf s => if s then nan32 else 0
  | .fin s m e =>
    if m = 0 then inf32 s else if s then nan32 else
    -- 1 ÷ √(m × 2^e) = √(2^256 ÷ m) × 2^(−128 − e ÷ 2), with e made even
    let m' := if e % 2 = 0 then m else 2 * m
    let e' := if e % 2 = 0 then e else e - 1
    let q := 2 ^ 256 / m'
    let r := isqrt q
    let exact := r * r * m' == 2 ^ 256
    roundRes g bf false (2 * r + (if exact then 0 else 1)) 2 (-128 - e' / 2)

/-- A magnitude between lo and hi, as fractions. -/
structure Band where
  ln : Nat
  ld : Nat
  hn : Nat
  hd : Nat

/-- e^(x ÷ 2^k) for 0 ≤ x, by Taylor from x ÷ 2^(k + 8) and eight squarings, rounded down (`up` false) or up, in units of 2^−k. -/
def expTaylor (k : Nat) (up : Bool) (y : Nat) : Nat → Nat → Nat → Nat → Nat
  | 0, _, _, acc => acc + (if up then 4 else 0)
  | fuel + 1, i, term, acc =>
    let t := if up then ceilDiv (term * y) (i * 2 ^ k) else term * y / (i * 2 ^ k)
    if t ≤ 1 then acc + (if up then 4 else 0) else expTaylor k up y fuel (i + 1) t (acc + t)

def squareTimes (k : Nat) (up : Bool) : Nat → Nat → Nat
  | 0, a => a
  | n + 1, a => squareTimes k up n (if up then ceilDiv (a * a) (2 ^ k) else a * a / 2 ^ k)

def expFix (k : Nat) (up : Bool) (x : Nat) : Nat :=
  let y := if up then ceilDiv x 256 else x / 256
  squareTimes k up 8 (expTaylor k up y 200 1 (2 ^ k) (2 ^ k))

/-- The magnitude m × 2^e in units of 2^−k, rounded down or up. -/
def toFix (k : Nat) (up : Bool) (m : Nat) (e : Int) : Nat :=
  let s : Int := e + k
  if 0 ≤ s then m * 2 ^ s.toNat else if up then ceilDiv m (2 ^ (-s).toNat) else m / 2 ^ (-s).toNat

/-- Bounds of e^(m × 2^e). -/
def expBand (k m : Nat) (e : Int) : Nat × Nat := (expFix k false (toFix k false m e), expFix k true (toFix k true m e))

/-- atanh(n ÷ d) × 2^k for 0 ≤ n ÷ d ≤ 1 ÷ 2, below or above. -/
def atanhSeries (k : Nat) (up : Bool) (sq : Nat) : Nat → Nat → Nat → Nat → Nat
  | 0, _, _, acc => acc + (if up then 4 else 0)
  | fuel + 1, i, pow, acc =>
    let p := if up then ceilDiv (pow * sq) (2 ^ k) else pow * sq / 2 ^ k
    let t := if up then ceilDiv p i else p / i
    if t ≤ 1 then acc + (if up then 4 else 0) else atanhSeries k up sq fuel (i + 2) p (acc + t)

def atanhFix (k : Nat) (up : Bool) (n d : Nat) : Nat :=
  let t := if up then ceilDiv (n * 2 ^ k) d else n * 2 ^ k / d
  let sq := if up then ceilDiv (t * t) (2 ^ k) else t * t / 2 ^ k
  atanhSeries k up sq 2000 3 t t

/-- ln 2 in units of 2^−k. -/
def ln2Fix (k : Nat) (up : Bool) : Nat := 2 * atanhFix k up 1 3

/-- π in units of 2^−k by Machin's formula: 16 atan(1 ÷ 5) − 4 atan(1 ÷ 239). -/
def atanInv (k : Nat) (x : Nat) : Nat → Nat → Nat → Int → Bool → Int
  | 0, _, _, acc, _ => acc
  | fuel + 1, i, pow, acc, neg =>
    let t := pow / i
    if t = 0 then acc else atanInv k x fuel (i + 2) (pow / (x * x)) (if neg then acc - t else acc + t) (!neg)

def piFix (k : Nat) : Int := 16 * atanInv k 5 2000 1 (2 ^ k / 5) 0 false - 4 * atanInv k 239 2000 1 (2 ^ k / 239) 0 false

/-- Σ 2^n y^(2n+1) ÷ (1·3·…·(2n+1)): e^(y²) √π ÷ 2 × erf y (y in units of 2^−k). -/
def erfSeries (k : Nat) (up : Bool) (sq2 : Nat) : Nat → Nat → Nat → Nat → Nat
  | 0, _, _, acc => acc + (if up then 8 else 0)
  | fuel + 1, i, term, acc =>
    let t := if up then ceilDiv (term * sq2) (i * 2 ^ k) else term * sq2 / (i * 2 ^ k)
    if t ≤ 1 then acc + (if up then 8 else 0) else erfSeries k up sq2 fuel (i + 2) t (acc + t)

/-- The rounding of a result that is known to lie in a band: the common value of both ends, at the first precision where they agree (R261). -/
def settle (round : Nat → Nat → Int → Nat) (band : Nat → Band) : List Nat → Nat
  | [] => 0
  | [k] => let b := band k; round b.ln b.ld 0
  | k :: ks =>
    let b := band k
    let lo := round b.ln b.ld 0
    if lo = round b.hn b.hd 0 then lo else settle round band ks

def precisions : List Nat := [256, 640, 2048]

/-- e^a. Beyond 104 in magnitude the result overflows or lies below half the least value. -/
def vExp (g : NMode) (bf : Bool) (a : Nat) : Nat :=
  let bf := bf || g = .g2
  match operand g a with
  | .nan => nan32
  | .inf s => if s then 0 else inf32 false
  | .fin s m e =>
    if m = 0 then roundRes g bf false 1 1 0
    else if Num.lt (.fin false 104 0) (.fin false m e) then (if s then 0 else inf32 false)
    else settle (roundRes g bf false) (fun k =>
      let b := expBand k m e
      if s then ⟨2 ^ k, b.2, 2 ^ k, b.1⟩ else ⟨b.1, 2 ^ k, b.2, 2 ^ k⟩) precisions

/-- 1 ÷ (1 + e^(−a)). -/
def vSigm (g : NMode) (bf : Bool) (a : Nat) : Nat :=
  let bf := bf || g = .g2
  match operand g a with
  | .nan => nan32
  | .inf s => if s then 0 else roundRes g bf false 1 1 0
  | .fin s m e =>
    if Num.lt (.fin false 105 0) (.fin false m e) then (if s then 0 else roundRes g bf false 1 1 0)
    else settle (roundRes g bf false) (fun k =>
      let b := expBand k m e
      if s then ⟨2 ^ k, 2 ^ k + b.2, 2 ^ k, 2 ^ k + b.1⟩ else ⟨b.1, b.1 + 2 ^ k, b.2, b.2 + 2 ^ k⟩) precisions

/-- tanh a = (e^(2a) − 1) ÷ (e^(2a) + 1). -/
def vTanh (g : NMode) (bf : Bool) (a : Nat) : Nat :=
  let bf := bf || g = .g2
  match operand g a with
  | .nan => nan32
  | .inf s => roundRes g bf s 1 1 0
  | .fin s m e =>
    if m = 0 then (if s then 0x80000000 else 0)
    else if Num.lt (.fin false 50 0) (.fin false m e) then roundRes g bf s 1 1 0
    else settle (roundRes g bf s) (fun k =>
      let b := expBand k m (e + 1)
      ⟨b.1 - 2 ^ k, b.1 + 2 ^ k, b.2 - 2 ^ k, b.2 + 2 ^ k⟩) [400, 1000, 2400]

/-- erf a = 2 ÷ √π × e^(−a²) × the series. Beyond 6 it rounds to 1. -/
def vErf (g : NMode) (bf : Bool) (a : Nat) : Nat :=
  let bf := bf || g = .g2
  match operand g a with
  | .nan => nan32
  | .inf s => roundRes g bf s 1 1 0
  | .fin s m e =>
    if m = 0 then (if s then 0x80000000 else 0)
    else if Num.lt (.fin false 6 0) (.fin false m e) then roundRes g bf s 1 1 0
    else settle (roundRes g bf s) (fun k =>
      let ylo := toFix k false m e
      let yhi := toFix k true m e
      let slo := erfSeries k false (2 * ylo * ylo / 2 ^ k) 3000 3 ylo ylo
      let shi := erfSeries k true (ceilDiv (2 * yhi * yhi) (2 ^ k)) 3000 3 yhi yhi
      let ex := expBand k (m * m) (2 * e)
      let p := (piFix k).toNat
      let rlo := isqrt ((p - 64) * 2 ^ k)
      let rhi := isqrt ((p + 64) * 2 ^ k) + 1
      ⟨2 * slo * 2 ^ k, ex.2 * rhi, 2 * shi * 2 ^ k, ex.1 * rlo⟩) [400, 1000, 2400]

/-- ln a, from a = f × 2^n with 3 ÷ 4 ≤ f < 3 ÷ 2. -/
def vLog (g : NMode) (bf : Bool) (a : Nat) : Nat :=
  let bf := bf || g = .g2
  match operand g a with
  | .nan => nan32
  | .inf s => if s then nan32 else inf32 false
  | .fin s m e =>
    if m = 0 then inf32 true else if s then nan32 else
    let l := Nat.log2 m
    -- a = (m ÷ 2^l) × 2^(e + l)
    let high := decide (3 * 2 ^ l ≤ 2 * m)
    let d := if high then 2 ^ (l + 1) else 2 ^ l
    let n : Int := e + l + (if high then 1 else 0)
    if m = d ∧ n = 0 then 0 else
    let less := decide (m < d)
    let an := if less then d - m else m - d
    -- ln a = n ln 2 ± 2 atanh(an ÷ (m + d))
    let band := fun (k : Nat) =>
      let alo : Int := 2 * (atanhFix k false an (m + d) : Nat)
      let ahi : Int := 2 * (atanhFix k true an (m + d) : Nat)
      let llo : Int := n * (if 0 ≤ n then (ln2Fix k false : Int) else (ln2Fix k true : Int))
      let lhi : Int := n * (if 0 ≤ n then (ln2Fix k true : Int) else (ln2Fix k false : Int))
      if less then (llo - ahi, lhi - alo) else (llo + alo, lhi + ahi)
    let neg := decide ((band 256).2 < 0)
    settle (roundRes g bf neg) (fun k =>
      let b := band k
      if neg then ⟨b.2.natAbs, 2 ^ k, b.1.natAbs, 2 ^ k⟩ else ⟨b.1.natAbs, 2 ^ k, b.2.natAbs, 2 ^ k⟩) precisions

/-! ### Sums (R262, R263) -/

/-- An exact sum rounded once. -/
def sumNums (l : List Num) : Num := l.foldl Num.add (.fin true 0 0)

/-- The lists of a list cut at multiples of `w`. -/
def chunks {α : Type} (w : Nat) (l : List α) : List (List α) := chunksOf w (l.length / w + 1) l

/-- VRSUM of lanes, `none` where inactive: one chunk of 512, or 64 chunks of eight into an accumulator in G2 emulation (R262, R274). -/
def vRsum (g : NMode) (bf : Bool) (lanes : List (Option Nat)) : Nat :=
  match g with
  | .native =>
    let terms := lanes.filterMap (fun x => x.map (operand g))
    if terms.isEmpty then 0 else roundNum g bf (sumNums terms)
  | .g2 =>
    let parts := (chunks 8 lanes).map (fun c => c.filterMap (fun x => x.map (operand g)))
    let acc := parts.foldl (fun (acc : Option Nat) p =>
      if p.isEmpty then acc else
      match acc with
      | none => some (roundNum g false (sumNums p))
      | some a => some (roundNum g false (sumNums (operand g a :: p)))) none
    match acc with
    | none => 0
    | some a => if bf then roundNum g true (operand g a) else a

/-- ACC + the products of up to 32 terms, one rounding for each chunk (R263, R274). -/
def mmaSum (g : NMode) (acc : Nat) (terms : List (Option (Nat × Nat))) : Nat :=
  let w := match g with | .native => 32 | .g2 => 8
  (chunks w terms).foldl (fun a c =>
    let ps := c.filterMap (fun t => t.map (fun p => (operand g p.1).mul (operand g p.2)))
    if ps.isEmpty then a else roundNum g false (ps.foldl Num.add (operand g a))) acc

/-! ### Elements (R253, R260) -/

/-- An element of a type read as a binary32 pattern, exactly. -/
def widen (et bits : Nat) : Nat :=
  if et = 1 then bits * 65536
  else if et = 2 then (match f16.decode bits with
    | .nan => nan32
    | v => roundNum .native false v)
  else if et = 4 then f32.round .even bits 1 0
  else bits

/-- A binary32 pattern rounded to an element type (R260); a byte takes bits [7:0] of an integer lane. -/
def narrow (et bits : Nat) : Nat :=
  let toF := fun (f : Fmt) => match f32.decode bits with
    | .nan => f.nan
    | .inf neg => f.inf + (if neg then f.sign else 0)
    | .fin neg m e => f.round .even m 1 e + (if neg then f.sign else 0)
  if et = 1 then toF bf16 else if et = 2 then toF f16 else if et = 4 then bits % 256 else bits

/-- The binary32 pattern of an integer, rounded to nearest even. -/
def natToF32 (n : Nat) : Nat := f32.round .even n 1 0

/-! ### Stochastic rounding and random words (R266, R268) -/

/-- A binary32 pattern as an engine reads it: in G2 emulation a subnormal is zero of its sign (R274). -/
def flushed (g : NMode) (x : Nat) : Nat :=
  if g = .g2 ∧ x % 0x80000000 < 0x00800000 then (if signBit32 x then 0x80000000 else 0) else x

/-- VSR of one lane with 16 random bits, and whether it reached infinity (R268, R274). -/
def vSr (g : NMode) (lane u : Nat) : Nat × Bool :=
  let x := flushed g lane
  let m := x % 0x80000000
  if 0x7F800000 < m then (nan32, false)
  else if m = 0x7F800000 then (x, false)
  else
    let r := (m + u % 65536) / 65536 * 65536
    (r + (if signBit32 x then 0x80000000 else 0), decide (0x7F800000 ≤ r))

/-- The ten rounds of Philox4x32-10 (R266). -/
def philoxRounds : Nat → Nat × Nat × Nat × Nat → Nat → Nat → Nat × Nat × Nat × Nat
  | 0, c, _, _ => c
  | n + 1, (c0, c1, c2, c3), k0, k1 =>
    let p0 := 0xD2511F53 * c0
    let p1 := 0xCD9E8D57 * c2
    philoxRounds n ((p1 / 2 ^ 32) ^^^ c1 ^^^ k0, p1 % 2 ^ 32, (p0 / 2 ^ 32) ^^^ c3 ^^^ k1, p0 % 2 ^ 32)
      ((k0 + 0x9E3779B9) % 2 ^ 32) ((k1 + 0xBB67AE85) % 2 ^ 32)

/-- The random word of element `e` under a key and a counter base (R266). -/
def philoxWord (key ctr e : Nat) : Nat :=
  let b := e / 4
  let o := philoxRounds 10 (b % 2 ^ 32, b / 2 ^ 32 % 2 ^ 32, ctr % 2 ^ 32, ctr / 2 ^ 32 % 2 ^ 32) (key % 2 ^ 32) (key / 2 ^ 32 % 2 ^ 32)
  if e % 4 = 0 then o.1 else if e % 4 = 1 then o.2.1 else if e % 4 = 2 then o.2.2.1 else o.2.2.2

/-! ### Derivative forms (R38 to R41, R267, R270) -/

/-- 1/√2 and 1/√(2π), nearest binary32: 0x3F3504F3 and 0x3ECC422A. -/
def hConst : Nat := 0x3F3504F3
def jConst : Nat := 0x3ECC422A

/-- The listed values of FORM beside 0 (R38). -/
def listedForm (form : Nat) : Bool := (1 ≤ form && form ≤ 9) || form == 0x10 || form == 0x11

/-- The derivative d of a quantised form at x (R270). -/
def formDeriv (g : NMode) (form x : Nat) : Nat :=
  let one := 0x3F800000
  let half := 0x3F000000
  if form = 4 ∨ form = 5 then
    let p := vFma g false (vErf g false (vMul g false x hConst)) half half
    let ex := vExp g false (vMul g false (vMul g false x x) 0xBF000000)
    vFma g false x (vMul g false ex jConst) p
  else if form = 6 ∨ form = 7 then
    let s := vSigm g false x
    vMul g false s (vFma g false x (vSub g false one s) one)
  else if form = 8 then
    let t := vTanh g false x
    vFma g false (vNeg g false t) t one
  else
    let s := vSigm g false x
    vMul g false s (vSub g false one s)

/-- The bounds LO and HI of a quantised form as n ÷ 10,000 with the sign of LO (R39). -/
def formBounds (form : Nat) : Bool × Nat × Nat :=
  if form = 4 ∨ form = 5 then (true, 1875, 11250) else if form = 6 ∨ form = 7 then (true, 1000, 11000)
  else if form = 8 then (false, 0, 10000) else (false, 0, 2500)

/-- LO as the nearest binary32 (log entry 25, DEDUCED). -/
def formLo (form : Nat) : Nat :=
  let b := formBounds form
  f32.round .even b.2.1 10000 0 + (if b.1 then 0x80000000 else 0)

def formLevels (form : Nat) : Nat := if form = 5 ∨ form = 7 then 255 else 15

/-- HI − LO as n ÷ 10,000. -/
def formSpan (form : Nat) : Nat :=
  let b := formBounds form
  if b.1 then b.2.2 + b.2.1 else b.2.2

/-- The code of a derivative, clamped to 0 to n (R39); NaN gives 0 (R40). -/
def quantise (form d : Nat) : Nat :=
  let n := formLevels form
  let inv := f32.round .even (n * 10000) (formSpan form) 0
  let u := vMul .native false (vSub .native false d (formLo form)) inv
  match f32.decode u with
  | .nan => 0
  | .inf neg => if neg then 0 else n
  | .fin neg m e =>
    -- floor(u + 1/2) = floor((2u + 1) ÷ 2)
    let two : Num := (Num.fin neg m (e + 1)).add (.fin false 1 0)
    match two with
    | .fin s m2 e2 =>
      if s then 0 else
      let k := if 0 ≤ e2 then m2 * 2 ^ e2.toNat / 2 else m2 / 2 ^ (1 - e2).toNat
      min k n
    | _ => 0

/-- The level L_k (R39). -/
def formLevel (form k : Nat) : Nat :=
  let step := f32.round .even (formSpan form) (formLevels form * 10000) 0
  vFma .native false (natToF32 k) step (formLo form)

/-- The code of an element for a form other than MAXPOOL_IDX4, and whether it came from a NaN derivative (R38, R40, R270). -/
def formCode (g : NMode) (form param x : Nat) : Nat × Bool :=
  let pos := vGt g x 0
  if form = 1 ∨ form = 2 then (if pos then 1 else 0, false)
  else if form = 3 then
    let c := param * 65536
    (if (pos || vGt g 0 x) && vGt g c x && vGt g x (vNeg g false c) then 1 else 0, false)
  else if 4 ≤ form ∧ form ≤ 9 then
    let d := formDeriv g form x
    (quantise form d, (f32.decode d).isNan)
  else (0, false)

/-- The window position of the largest value, the lowest on a tie; a NaN counts as larger than every number (R270). -/
def maxPool (g : NMode) (xs : List Nat) : Nat :=
  let better := fun (best x : Nat) =>
    let b := operand g best
    let v := operand g x
    if b.isNan then false else if v.isNan then true else b.lt v
  ((xs.foldl (fun (a : Nat × Nat × Nat) x =>
    if a.1 = 0 then (1, 0, x) else if better a.2.2 x then (a.1 + 1, a.1, x) else (a.1 + 1, a.2.1, a.2.2)) (0, 0, 0))).2.1

/-- The derivative a code stands for (R38, R39). -/
def formValue (form param code : Nat) : Nat :=
  if form = 1 ∨ form = 3 then (if code = 1 then 0x3F800000 else 0)
  else if form = 2 then (if code = 1 then 0x3F800000 else param * 65536)
  else formLevel form code

/-- The dropout factor of an element (R267). -/
def dropFactor (key ctr theta e : Nat) : Nat :=
  if philoxWord key ctr e / 65536 < theta then 0 else f32.round .even 65536 (65536 - theta) 0

end Sys2Proof.Machine
end

