-- ==== Sys2Proof/Machine/Codec.lean ====
section
/-! DEFINITION. The Skerry codec on bytes: bit streams (R195), prefix tables (R199 to R201), the lossless block (R190 to R198, R214), the fixed-rate block and its record (R221 to R233, R236), and narrow blocks (R238). -/

namespace Sys2Proof.Machine

/-! ### Bit streams (R195) -/

/-- The bits of bytes, in the order of the stream. -/
def bitsOf (bs : List Byte) : List Bool := bs.flatMap (fun b => (List.range 8).map (fun i => bit b.toNat i))

/-- `n` bits, the first the least significant. -/
def lsbBits : Nat → Nat → List Bool
  | 0, _ => []
  | n + 1, v => (v % 2 == 1) :: lsbBits n (v / 2)

/-- A codeword of `n` bits, the first the most significant. -/
def msbBits (n v : Nat) : List Bool := (lsbBits n v).reverse

/-- The unsigned number that bits spell, first bit least significant. -/
def bitsNat : List Bool → Nat
  | [] => 0
  | b :: bs => (if b then 1 else 0) + 2 * bitsNat bs

/-- The bytes that bits fill, with zero bits up to the byte. -/
def packBits (bs : List Bool) : List Byte := leBytes (ceilDiv bs.length 8) (bitsNat bs)

/-- get(n): the value and the rest; nothing where the stream is too short. -/
def getBits (n : Nat) (bs : List Bool) : Option (Nat × List Bool) :=
  let h := bs.take n
  if h.length = n then some (bitsNat h, bs.drop n) else none

/-! ### Coder element kinds (R190) -/

def kindBytes (k : Nat) : Nat := if k = 3 then 4 else if k = 4 then 1 else 2
def kindElems (k : Nat) : Nat := 4096 / kindBytes k
def kindMant (k : Nat) : Nat := if k = 1 then 7 else if k = 2 then 10 else if k = 3 then 23 else 0
def kindEnd (k : Nat) : Nat := if k = 2 then 64 else if k = 4 then 256 else 512
def kindSymbols (k : Nat) : Nat := kindEnd k + 1

/-- The elements of a tile as numbers. -/
def tileElems (k : Nat) (tile : List Byte) : List Nat := (chunksOf (kindBytes k) tile.length tile).map leNat

/-! ### Prefix tables -/

/-- R199: END has a codeword, at least two symbols have, and the code is complete. -/
def tableValid (lens : List Nat) : Bool :=
  lens.getLast?.getD 0 != 0 && decide (2 ≤ (lens.filter (· != 0)).length) && lens.all (fun l => decide (l ≤ 15))
  && (lens.foldl (fun a l => if l = 0 then a else a + 2 ^ (15 - l)) 0) == 2 ^ 15

/-- The symbols of each length 1 to 15, ascending, with the first codeword of the length (R199). -/
def canonical (lens : List Nat) : List (Nat × List Nat) :=
  let syms := fun l => (List.range lens.length).filter (fun s => nth lens s 0 == l)
  ((List.range 15).foldl (fun (a : Nat × List (Nat × List Nat)) l =>
    let c := syms (l + 1)
    ((a.1 + c.length) * 2, a.2 ++ [(a.1, c)])) (0, [])).2

/-- The codeword of every symbol: length and code. -/
def codewords (lens : List Nat) : List (Nat × Nat) :=
  let can := canonical lens
  (List.range lens.length).map (fun s =>
    let l := nth lens s 0
    if l = 0 then (0, 0) else
    let r := nth can (l - 1) (0, [])
    (l, r.1 + r.2.idxOf s))

/-- One symbol read from the stream. -/
def readSymbol : List (Nat × List Nat) → Nat → List Bool → Option (Nat × List Bool)
  | [], _, _ => none
  | _, _, [] => none
  | r :: rows, code, b :: bs =>
    let code := 2 * code + (if b then 1 else 0)
    if r.1 ≤ code ∧ code < r.1 + r.2.length then some (nth r.2 (code - r.1) 0, bs) else readSymbol rows code bs

/-- `n` symbols read from the stream. -/
def readSymbols (rows : List (Nat × List Nat)) : Nat → List Bool → Option (List Nat × List Bool)
  | 0, bs => some ([], bs)
  | n + 1, bs =>
    match readSymbol rows 0 bs with
    | none => none
    | some (x, bs) => (readSymbols rows n bs).map (fun r => (x :: r.1, r.2))

/-- The length bytes of a serialised table. -/
def lengthBytes (lens : List Nat) : List Byte :=
  (chunksOf 2 lens.length lens).map (fun p => BitVec.ofNat 8 (nth p 0 0 + 16 * nth p 1 0))

/-- The serialised form (R200). -/
def serialTable (kind scope : Nat) (lens : List Nat) : List Byte :=
  let body := lengthBytes lens
  let hdr := [(TableHdr.lengthsCrc, crc32c body), (TableHdr.symbols, lens.length), (TableHdr.scope, scope), (TableHdr.elemKind, kind),
    (TableHdr.formatGen, 3), (TableHdr.tableMagic, 0x4C425453)].foldl (fun v p => p.1.set v p.2) 0
  leBytes 16 hdr ++ body

/-- A serialised table read: its kind, scope and lengths, or the number of the check that fails: 1 header, 2 length, 3 CRC, 4 R199 (R207). -/
def readTable (bs : List Byte) : Except Nat (Nat × Nat × List Nat) :=
  let h := leNat (bs.take 16)
  let kind := TableHdr.elemKind.get h
  let scope := TableHdr.scope.get h
  let body := bs.drop 16
  let n := kindSymbols kind
  if TableHdr.tableMagic.get h ≠ 0x4C425453 ∨ TableHdr.formatGen.get h ≠ 3 ∨ kind = 0 ∨ 4 < kind ∨ 1 < scope
    ∨ TableHdr.symbols.get h ≠ n ∨ (anyRsvd h TableHdr.rsvd) then .error 1
  else if bs.length ≠ 16 + ceilDiv n 2 then .error 2
  else if crc32c body ≠ TableHdr.lengthsCrc.get h then .error 3
  else
    let lens := body.flatMap (fun b => [b.toNat % 16, b.toNat / 16])
    if lens.length ≠ n ∧ nth lens n 0 ≠ 0 then .error 4
    else if tableValid (lens.take n) then .ok (kind, scope, lens.take n) else .error 4
where
  anyRsvd (v : Nat) (fs : List Fld) : Bool := fs.any (fun f => f.get v != 0)

/-- A tree of R201: a leaf's symbol or two trees. -/
inductive CodeTree where
  | leaf (s : Nat)
  | node (a b : CodeTree)

/-- The depth of each leaf. -/
def CodeTree.depths : CodeTree → Nat → List (Nat × Nat)
  | .leaf s, d => [(s, d)]
  | .node a b, d => a.depths (d + 1) ++ b.depths (d + 1)

/-- The lightest head: the leaf first on a tie (R201 step 4). -/
def lightest (ls ns : List (Nat × CodeTree)) : Option ((Nat × CodeTree) × List (Nat × CodeTree) × List (Nat × CodeTree)) :=
  match ls, ns with
  | [], [] => none
  | l :: ls, [] => some (l, ls, [])
  | [], n :: ns => some (n, [], ns)
  | l :: ls, n :: ns => if l.1 ≤ n.1 then some (l, ls, n :: ns) else some (n, l :: ls, ns)

/-- The two queues run until one node remains (R201 step 4). -/
def joinTrees : Nat → List (Nat × CodeTree) → List (Nat × CodeTree) → Option CodeTree
  | 0, _, ns => (ns.head?).map Prod.snd
  | fuel + 1, ls, ns =>
    match lightest ls ns with
    | none => none
    | some (a, ls, ns) =>
      match lightest ls ns with
      | none => some a.2
      | some (b, ls, ns) => joinTrees fuel ls (ns ++ [(a.1 + b.1, CodeTree.node a.2 b.2)])

/-- A list inserted in ascending order of weight, a symbol after those of equal weight before it. -/
def insertLeaf (x : Nat × CodeTree) : List (Nat × CodeTree) → List (Nat × CodeTree)
  | [] => [x]
  | y :: ys => if x.1 < y.1 then x :: y :: ys else y :: insertLeaf x ys

/-- The lengths that weights give, halving them until none exceeds 15 (R201 steps 3 to 5). -/
def buildLengths : Nat → List Nat → List Nat
  | 0, fs => fs
  | fuel + 1, fs =>
    let leaves := ((List.range fs.length).map (fun s => (nth fs s 0, CodeTree.leaf s))).foldl (fun l x => insertLeaf x l) []
    match joinTrees (2 * fs.length) leaves [] with
    | none => fs
    | some t =>
      let ds := t.depths 0
      let lens := (List.range fs.length).map (fun s => ((ds.find? (fun d => d.1 == s)).map Prod.snd).getD 0)
      if lens.all (fun l => decide (l ≤ 15)) then lens else buildLengths fuel (fs.map (fun f => ceilDiv f 2))

/-- The table of sample tiles (R201). -/
def buildTable (kind : Nat) (tiles : List (List Byte)) : List Nat :=
  let syms := tiles.flatMap (fun t => (tileElems kind t).map (fun x => x / 2 ^ kindMant kind))
  let counts := (List.range (kindEnd kind)).map (fun s => (syms.filter (· == s)).length + 1)
  buildLengths 64 (counts ++ [tiles.length + 1])

/-! ### The lossless block -/

/-- A tile coded: mode, generation, body before encryption, LENGTH_ECHO. -/
structure Coded where
  mode : Nat
  gen  : Nat
  body : List Byte
  echo : Nat
  deriving DecidableEq, Repr

/-- LEN in granules (R191). -/
def Coded.len (c : Coded) : Nat := if c.mode = 3 then 128 else (c.body.length + 8) / 32

def rawBlock (tile : List Byte) : Coded := ⟨3, 0, tile, 0⟩

/-- The Exp-Golomb prefix and bits of a run (R197). -/
def runBits (r : Nat) : List Bool :=
  let n := Nat.log2 (r + 1)
  List.replicate n false ++ [true] ++ lsbBits n (r + 1 - 2 ^ n)

/-- The RUNS section of mantissas shifted by TZ, `w` bits each, with `r` zeros before (R197, R198). -/
def runsBits (w : Nat) : Nat → List Nat → List Bool
  | r, [] => if r = 0 then [] else runBits r
  | r, m :: ms => if m = 0 then runsBits w (r + 1) ms else runBits r ++ lsbBits w m ++ runsBits w 0 ms

/-- The number of trailing zero bits of a non-zero number below 2^n. -/
def trailingZeros (n v : Nat) : Nat := ((List.range n).find? (fun i => bit v i)).getD 0

/-- A tile of a stream that is not RAW, coded with the bound table (R198). -/
def codeTile (kind : Nat) (table : Option (Nat × List Nat)) (tile : List Byte) : Coded :=
  if tile.all (· == 0) then ⟨1, 0, List.replicate 24 0, 0⟩ else
  match table with
  | none => rawBlock tile
  | some (gen, lens) =>
    let xs := tileElems kind tile
    let m := kindMant kind
    let cw := (codewords lens).toArray
    let syms := xs.map (fun x => x / 2 ^ m) ++ [kindEnd kind]
    if syms.any (fun s => (cw.getD s (0, 0)).1 == 0) then rawBlock tile else
    let mants := xs.map (fun x => x % 2 ^ m)
    let or_ := mants.foldl (· ||| ·) 0
    let tz := if or_ = 0 then 0 else trailingZeros m or_
    let w := m - tz
    let plain := mants.flatMap (fun v => lsbBits w (v / 2 ^ tz))
    let runs := runsBits w 0 (mants.map (fun v => v / 2 ^ tz))
    let pick : Nat × List Bool := if or_ = 0 then (0, []) else if runs.length < xs.length * w then (2, runs) else (1, plain)
    let bits := lsbBits 16 (pick.1 + 4 * tz + 128 * kind) ++ syms.flatMap (fun s => msbBits (cw.getD s (0, 0)).1 (cw.getD s (0, 0)).2) ++ pick.2
    let echo := ceilDiv bits.length 8
    let len := ceilDiv (echo + 8) 32
    if 127 < len then rawBlock tile
    else
      let body := packBits bits
      ⟨2, gen, body ++ List.replicate (32 * len - 8 - echo) 0, echo⟩

/-- The tweak of tile `t` of stream `n` (R210). -/
def tileTweak (n t : Nat) : Nat := t + n * 2 ^ 32

/-- The trailer (R192). -/
def trailerBytes (c : Coded) (cipher : List Byte) : List Byte :=
  leBytes 8 ([(Trailer.mode, c.mode), (Trailer.tableGen, c.gen), (Trailer.lengthEcho, c.echo), (Trailer.crc, crc32c cipher)].foldl
    (fun v p => p.1.set v p.2) 0)

/-- The block as it lies in memory (R183, R192). -/
def blockBytes (key n t : Nat) (c : Coded) : List Byte :=
  let cipher := xtsEncrypt key (tileTweak n t) c.body
  if c.mode = 3 then cipher else cipher ++ trailerBytes c cipher

/-- The mantissas of a RUNS section, and the rest of the stream; nothing at damage (R197). -/
def readRuns (n w tz : Nat) : Nat → Nat → List Bool → Option (List Nat × List Bool)
  | 0, _, _ => none
  | fuel + 1, i, bs =>
    if n ≤ i then some ([], bs) else
    let z := (bs.takeWhile (fun b => !b)).length
    if 11 < z then none else
    match getBits z (bs.drop (z + 1)) with
    | none => none
    | some (v, bs) =>
      let r := 2 ^ z - 1 + v
      if n < i + r then none
      else if i + r = n then some (List.replicate r 0, bs)
      else match getBits w bs with
        | none => none
        | some (m, bs) =>
          if m = 0 then none
          else (readRuns n w tz fuel (i + r + 1) bs).map (fun q => (List.replicate r 0 ++ (m * 2 ^ tz) :: q.1, q.2))

/-- `n` values of `w` bits. -/
def readPlain (w : Nat) : Nat → List Bool → Option (List Nat × List Bool)
  | 0, bs => some ([], bs)
  | n + 1, bs =>
    match getBits w bs with
    | none => none
    | some (v, bs) => (readPlain w n bs).map (fun r => (v :: r.1, r.2))

/-- A PLANES body decoded under check 5 of R214; nothing where it fails. -/
def readPlanes (kind : Nat) (lens : List Nat) (echo : Nat) (body : List Byte) : Option (List Byte) :=
  let bits := bitsOf body
  match getBits 16 bits with
  | none => none
  | some (h, rest) =>
    let mm := h % 4
    let tz := h / 4 % 32
    let m := kindMant kind
    let n := kindElems kind
    if h / 1024 ≠ 0 ∨ h / 128 % 8 ≠ kind ∨ mm = 3 ∨ m < tz ∨ (mm = 0 ∧ tz ≠ 0) ∨ (mm ≠ 0 ∧ (m ≤ tz ∨ kind = 4)) then none else
    match readSymbols (canonical lens) (n + 1) rest with
    | none => none
    | some (syms, rest) =>
      let els := syms.take n
      if nth syms n 0 ≠ kindEnd kind ∨ els.contains (kindEnd kind) then none else
      let mant := if mm = 0 then some (List.replicate n 0, rest)
        else if mm = 1 then (readPlain (m - tz) n rest).map (fun r => (r.1.map (· * 2 ^ tz), r.2))
        else readRuns n (m - tz) tz (n + 1) 0 rest
      match mant with
      | none => none
      | some (ms, rest) =>
        let used := bits.length - rest.length
        if ceilDiv used 8 ≠ echo ∨ rest.any id then none
        else some ((List.zipWith (fun s v => leBytes (kindBytes kind) (s * 2 ^ m + v)) els ms).flatten)

/-- A lossless block expanded: the tile, or the number of the check of R214 that fails. `entry` is the index entry (R212); `table` the lengths of a resident generation with its kind; `bytes` the block's bytes, which are to be read once check 1 has passed. -/
def entryCheck (kind gSeg entry : Nat) (table : Option (Nat × List Nat)) : Bool :=
  let mode := IndexEnt.mode.get entry
  let len := IndexEnt.lenM1.get entry + 1
  let gen := IndexEnt.tableGen.get entry
  IndexEnt.valid.get entry == 1 && IndexEnt.rsvd.all (fun f => f.get entry == 0) && decide (IndexEnt.offset.get entry + len ≤ gSeg) &&
  (if mode = 1 then len == 1 && gen == 0 else if mode = 3 then len == 128 && gen == 0
   else mode == 2 && decide (len ≤ 127) && gen != 0 && (match table with | some t => t.1 == kind | none => false))

/-- Checks 2 to 5 on the block's bytes (R214). -/
def expandBlock (kind key n t entry : Nat) (lens : List Nat) (bytes : List Byte) : Except Nat (List Byte) :=
  let mode := IndexEnt.mode.get entry
  let len := IndexEnt.lenM1.get entry + 1
  if mode = 3 then .ok (xtsDecrypt key (tileTweak n t) bytes) else
  let body := bytes.take (32 * len - 8)
  let tr := leNat (bytes.drop (32 * len - 8))
  let echo := Trailer.lengthEcho.get tr
  if Trailer.mode.get tr ≠ mode ∨ Trailer.tableGen.get tr ≠ IndexEnt.tableGen.get entry
    ∨ (mode = 1 ∧ echo ≠ 0) ∨ (mode = 2 ∧ ceilDiv (echo + 8) 32 ≠ len) then .error 2
  else if Trailer.crc.get tr ≠ crc32c body then .error 3
  else
    let plain := xtsDecrypt key (tileTweak n t) body
    if mode = 1 then (if plain.all (· == 0) then .ok (List.replicate 4096 0) else .error 4)
    else match readPlanes kind lens echo plain with
      | some x => .ok x
      | none => .error 5

/-! ### The codebook and envelope record (R231, R232) -/

/-- A record read: K, NV, G, P, codebook and envelope values as bfloat16 patterns widened to binary32. -/
structure FrRec where
  k    : Nat
  nv   : Nat
  g    : Nat
  p    : Nat
  elem : Nat
  code : Array Nat
  env  : Array Nat

def frGroup (v : Nat) : Nat := 16 * 2 ^ v

/-- Exact comparisons of binary32 patterns that are numbers. -/
def leAbs (a b : Nat) : Bool := decide (a % 0x80000000 ≤ b % 0x80000000)

/-- A record read and checked (R231, R232): the record, or the number of the check that fails: 1 header, 2 BODY_CRC, 3 entry 0, 4 codebook, 5 V0, 6 Vk, 7 group size, 8 the stream's fields, 9 STREAM. -/
def readRecord (stream cb env elem : Nat) (bs : List Byte) : Except Nat FrRec :=
  let h := leNat (bs.take 64)
  let k := if FrRecHdr.cb.get h = 1 then 4096 else 256
  let nv := if FrRecHdr.env.get h = 1 then 4 else 1
  let g := frGroup (FrRecHdr.group.get h)
  let p := FrRecHdr.period.get h
  let size := FrRecHdr.recordBytes.get h
  let need := roundUp (64 + 16 * k + 2 * p * nv) 32
  if FrRecHdr.recordMagic.get h ≠ 0x56455152 ∨ FrRecHdr.formatGen.get h ≠ 3 ∨ FrRecHdr.rsvd.any (fun f => f.get h != 0)
    ∨ (FrRecHdr.elemKind.get h ≠ 1 ∧ FrRecHdr.elemKind.get h ≠ 2) ∨ p = 0 ∨ 16384 < p ∨ size ≠ need ∨ bs.length < size
    ∨ ((bs.take size).drop (64 + 16 * k + 2 * p * nv)).any (· != 0) then .error 1
  else
    let body := (bs.take size).drop 64
    if crc32c body ≠ FrRecHdr.bodyCrc.get h then .error 2 else
    let vals := ((chunksOf 2 body.length body).map (fun q => leNat q * 65536))
    let code := vals.take (8 * k)
    let ev := ((vals.drop (8 * k)).take (p * nv)).toArray
    let one := 0x3F800000
    let v0 := fun (c : Nat) => ev.getD c 0
    if (code.take 8).any (· != 0) then .error 3
    else if code.any (fun x => !leAbs x one) then .error 4
    else if (List.range p).any (fun c => signBit32 (v0 c) || !leAbs 0x3B800000 (v0 c) || !leAbs (v0 c) one) then .error 5
    else if (List.range (p * (nv - 1))).any (fun i =>
        let x := ev.getD (p + i) 0
        !decide (x % 0x80000000 < 0x7F800000) || ((Num.fin false 1 2).mul (f32.decode (x % 0x80000000))).isNan
          || (f32.decode (v0 (i % p))).lt ((Num.fin false 1 2).mul (f32.decode (x % 0x80000000)))) then .error 6
    else if nv = 4 ∧ ((k = 256 ∧ g < 32) ∨ (k = 4096 ∧ g < 64)) then .error 7
    else if FrRecHdr.cb.get h ≠ cb ∨ FrRecHdr.env.get h ≠ env ∨ FrRecHdr.elemKind.get h ≠ elem then .error 8
    else if FrRecHdr.stream.get h ≠ stream ∧ FrRecHdr.stream.get h ≠ 0xFFFFFFFF then .error 9
    else .ok { k := k, nv := nv, g := g, p := p, elem := elem, code := code.toArray, env := ev }

/-! ### The fixed-rate block (R223 to R230) -/

/-- Sign stages at a rate (R222). -/
def frStages (rate : Nat) : Nat := if rate = 1 then 6 else if rate = 2 then 2 else 0

/-- Bits of an INDEX. -/
def FrRec.b (r : FrRec) : Nat := if r.k = 4096 then 12 else 8

/-- 2^−s as binary32, with a sign. -/
def halfPow (neg : Bool) (s : Nat) : Nat := (127 - s) * 0x800000 + (if neg then 0x80000000 else 0)

/-- A binary32 value times a power of two, rounded (ldexp). -/
def ldexp32 (x : Nat) (e : Int) : Nat :=
  match f32.decode x with
  | .fin neg m q => f32.round .even m 1 (q + e) + (if neg then 0x80000000 else 0)
  | v => roundNum .native false v

/-- The quotient of magnitudes rounded toward +∞. -/
def divUp (a b : Nat) : Nat :=
  match f32.decode a, f32.decode b with
  | .fin _ m e, .fin _ n f => if n = 0 then 0x7F800000 else f32.round .up m n (e - f)
  | _, _ => 0x7F800000

/-- The two's complement value of an A field as binary32, times 0.125. -/
def aEighth (a : Nat) : Nat :=
  let v := signedOf 4 a
  ldexp32 (f32.round .even v.natAbs 1 0 + (if v < 0 then 0x80000000 else 0)) (-3)

/-- The envelope of a column for the A fields of its group (R228). -/
def FrRec.envAt (r : FrRec) (as : List Nat) (c : Nat) : Nat :=
  (List.range (r.nv - 1)).foldl (fun env k => vFma .native false (aEighth (nth as k 0)) (r.env.getD ((k + 1) * r.p + c) 0) env) (r.env.getD c 0)

/-- Rounded to the element type; overflow, also that of the scaling before it, gives the largest finite value of the sign (R228, R230). -/
def toElem (elem y : Nat) : Nat :=
  let z := narrow elem y
  let f := if elem = 1 then bf16 else f16
  match f32.decode y with
  | .nan => z
  | _ => if z % f.sign = f.inf then z - 1 else z

/-- The fields of a coded group. -/
structure FrGroup where
  scale : Nat
  as    : List Nat

/-- 8 × num ÷ den rounded to nearest even and clamped to −8 to 7; 0 for a zero denominator (R229 step 1; log entry 90, DEDUCED). -/
def aField (num den : Nat) : Nat :=
  if den % 0x80000000 = 0 then 0 else
  match f32.decode num, f32.decode den with
  | .fin s m e, .fin _ n f =>
    -- |8 × num ÷ den| as a fraction with denominator d
    let x : Int := e - f + 3
    let a := if 0 ≤ x then m * 2 ^ x.toNat else m
    let d := if 0 ≤ x then n else n * 2 ^ (-x).toNat
    let q := a / d
    let r := 2 * (a % d)
    let q := if d < r ∨ (r = d ∧ q % 2 = 1) then q + 1 else q
    if s then (16 - min q 8) % 16 else min q 7
  | .inf s, _ => if s then 8 else 7
  | _, _ => 0

/-- ceil(log2 x) of a positive binary32 number. -/
def ceilLog2 (x : Nat) : Int :=
  match f32.decode x with
  | .fin _ m e => (Nat.log2 m : Int) + e + (if 2 ^ Nat.log2 m = m then 0 else 1)
  | _ => 128

/-- (log entry 90, DEDUCED.) One group coded up to step 3 of R229: its fields, and whether it is non-finite or saturated. `xs` and `cols` are its elements as binary32 and their columns. -/
def codeGroup (r : FrRec) (xs cols : List Nat) : FrGroup × Bool × Bool :=
  if xs.any (fun x => !decide (x % 0x80000000 < 0x7F800000)) then (⟨0xFF, [0, 0, 0]⟩, true, false) else
  let g := NMode.native
  let v0 := fun c => r.env.getD c 0
  let as := if r.nv = 1 then [] else (List.range 3).map (fun k =>
    let pr := List.zip xs cols
    let hu := pr.foldl (fun (a : Nat × Nat) xc =>
      let h := vDiv g false (xc.1 % 0x80000000) (v0 xc.2)
      let u := vDiv g false (r.env.getD ((k + 1) * r.p + xc.2) 0) (v0 xc.2)
      (vAdd g false a.1 (vMul g false h u), vAdd g false a.2 (vMul g false u u))) (0, 0)
    aField hu.1 hu.2)
  let mx := (List.zip xs cols).foldl (fun m xc =>
    let q := divUp (xc.1 % 0x80000000) (r.envAt as xc.2)
    if m < q then q else m) 0
  if mx = 0 then (⟨0, [0, 0, 0]⟩, false, false) else
  let s : Int := 127 + ceilLog2 mx
  (⟨(max 1 (min s 254)).toNat, as⟩, false, decide (254 < s))

/-- z of an element (R229 step 5). -/
def zOf (x env scale : Nat) : Nat :=
  let q := vDiv .native false x (ldexp32 env ((scale : Int) - 127))
  if (f32.decode 0x3F800000).lt (f32.decode q) then 0x3F800000
  else if (f32.decode q).lt (f32.decode 0xBF800000) then 0xBF800000 else q

/-- (log entry 90, DEDUCED.) The INDEX of a sub-vector (R229 step 6): among the entries within 1 of every component, the one with the least distance, the lowest on a tie. -/
def chooseIndex (r : FrRec) (zs : List Nat) : Nat :=
  ((List.range r.k).foldl (fun (best : Option (Nat × Nat)) k =>
    let ds := (List.range 8).map (fun p => vSub .native false (nth zs p 0) (r.code.getD (8 * k + p) 0))
    if ds.any (fun d => !leAbs d 0x3F800000) then best else
    let sum := ds.foldl (fun a d => vAdd .native false a (vMul .native false d d)) 0
    match best with
    | none => some (k, sum)
    | some b => if (f32.decode sum).lt (f32.decode b.2) then some (k, sum) else some b) none).elim 0 Prod.fst

/-- The signs of one element over `n` stages from its residual (R229 step 7). -/
def signStages : Nat → Nat → Nat → List Bool
  | 0, _, _ => []
  | n + 1, s, r =>
    let pos := (f32.decode r).eq (f32.decode 0) || (f32.decode 0).lt (f32.decode r)
    pos :: signStages n (s + 1) (vSub .native false r (halfPow (!pos) s))

/-- The column of each element of tile `t` (R222). -/
def frColumn (p t i : Nat) : Nat := (2048 * t + i) % p

/-- A tile coded at a rate (R229): the plaintext block, and the numbers of non-finite and of saturated groups. -/
def codeFixed (r : FrRec) (rate t : Nat) (tile : List Byte) : List Byte × Nat × Nat :=
  let xs := ((tileElems r.elem tile).map (widen r.elem)).toArray
  let ng := 2048 / r.g
  let groups := ((List.range ng).map (fun q =>
    let is := (List.range r.g).map (· + q * r.g)
    codeGroup r (is.map (fun i => xs.getD i 0)) (is.map (frColumn r.p t))))
  let ga := groups.toArray.map Prod.fst
  let grp := fun i => ga.getD (i / r.g) ⟨0, []⟩
  let off := fun i => let sc := (grp i).scale; sc == 0 || sc == 0xFF
  let subs := (List.range 256).map (fun m =>
    let is := (List.range 8).map (· + 8 * m)
    let zs := is.map (fun i => if off i then 0 else zOf (xs.getD i 0) (r.envAt (grp i).as (frColumn r.p t i)) (grp i).scale)
    let idx := if is.all off then 0 else chooseIndex r zs
    (idx, (List.range 8).map (fun p =>
      let i := 8 * m + p
      if off i then List.replicate (frStages rate) false
      else signStages (frStages rate) 1 (vSub .native false (nth zs p 0) (r.code.getD (8 * idx + p) 0)))))
  let signs := (subs.flatMap Prod.snd).toArray
  let bits := (groups.flatMap (fun x => lsbBits 8 x.1.scale ++ (if r.nv = 4 then (List.range 3).flatMap (fun k => lsbBits 4 (nth x.1.as k 0)) else [])))
    ++ subs.flatMap (fun x => lsbBits r.b x.1)
    ++ (List.range (frStages rate)).flatMap (fun s => (List.range 2048).map (fun i => (signs.getD i []).getD s false))
  let size := 4096 / 2 ^ rate
  let bytes := packBits bits
  (bytes ++ List.replicate (size - bytes.length) 0, (groups.filter (fun x => x.2.1)).length, (groups.filter (fun x => x.2.2)).length)

/-- A fixed-rate block decoded (R228), or the check of R236 that fails: 3 padding, 4 zero and non-finite groups. -/
def readFixed (r : FrRec) (rate t : Nat) (plain : List Byte) : Except Nat (List Byte) :=
  let v := leNat plain
  let ng := 2048 / r.g
  let gw := if r.nv = 4 then 20 else 8
  let n := frStages rate
  let ib := ng * gw
  let sb := ib + 256 * r.b
  let f := fun lo w => (v >>> lo) % 2 ^ w
  let scale := fun q => f (q * gw) 8
  let as := fun q => if r.nv = 4 then (List.range 3).map (fun k => f (q * gw + 8 + 4 * k) 4) else []
  let index := fun m => f (ib + m * r.b) r.b
  let sign := fun s i => f (sb + (s - 1) * 2048 + i) 1
  let off := fun q => scale q == 0 || scale q == 0xFF
  if v >>> (sb + n * 2048) ≠ 0 then .error 3
  else if (List.range ng).any (fun q => off q && ((as q).any (· != 0)
      || ((List.range (r.g / 8)).any (fun m => index (q * r.g / 8 + m) != 0))
      || (List.range n).any (fun s => f (sb + s * 2048 + q * r.g) r.g != 0))) then .error 4
  else .ok ((List.range 2048).flatMap (fun i =>
    let q := i / r.g
    leBytes 2 (
      if scale q = 0 then 0 else if scale q = 0xFF then (if r.elem = 1 then 0x7FC0 else 0x7E00) else
      let c := r.code.getD (8 * index (i / 8) + i % 8) 0
      let x := (List.range n).foldl (fun a s => vAdd .native false a (halfPow (sign (s + 1) i == 0) (s + 1))) c
      let env := r.envAt (as q) (frColumn r.p t i)
      toElem r.elem (ldexp32 (vMul .native false x env) ((scale q : Int) - 127)))))

/-! ### The build of a record (R233) -/

/-- The larger of two magnitudes. -/
def maxMag (a b : Nat) : Nat := if a < b then b else a

/-- A binary32 clamped to [−1, 1] and rounded to bfloat16. -/
def unit16 (x : Nat) : Nat :=
  let y := if (f32.decode 0x3F800000).lt (f32.decode x) then 0x3F800000 else if (f32.decode x).lt (f32.decode 0xBF800000) then 0xBF800000 else x
  narrow 1 y * 65536

/-- The column envelope (R233 step 1), as bfloat16 values widened. Elements that are not finite do not enter it. -/
def buildV0 (p : Nat) (xs : List Nat) : List Nat :=
  let a := (List.zip xs (List.range xs.length)).foldl (fun (m : Array Nat) xi =>
    m.modify (xi.2 % p) (fun y => if xi.1 % 0x80000000 < 0x7F800000 then maxMag y (xi.1 % 0x80000000) else y)) (Array.replicate p 0)
  let big := a.foldl maxMag 0
  (List.range p).map (fun c =>
    if big = 0 then 0x3F800000 else
    narrow 1 (maxMag (vDiv .native false (a.getD c 0) big) 0x3B800000) * 65536)

/-- The product of two vectors, summed in ascending order. -/
def dot32 (a b : List Nat) : Nat := (List.zip a b).foldl (fun s p => vAdd .native false s (vMul .native false p.1 p.2)) 0

/-- One power iteration over the rows: Σ (h · u) h in the rows' order, made orthogonal to the vectors `before` and scaled to a largest magnitude of ¼ (R233 step 2; log entry 31, DEDUCED). -/
def powerStep (p : Nat) (rows before : List (List Nat)) (u : List Nat) : List Nat :=
  let v := rows.foldl (fun a h =>
    let d := dot32 h u
    List.zipWith (fun x y => vAdd .native false x (vMul .native false d y)) a h) (List.replicate p 0)
  let v := before.foldl (fun v w =>
    let d := dot32 w w
    if d = 0 then v else
    let q := vDiv .native false (dot32 v w) d
    List.zipWith (fun x y => vSub .native false x (vMul .native false q y)) v w) v
  let m := v.foldl (fun m x => maxMag m (x % 0x80000000)) 0
  if m = 0 then v else v.map (fun x => vMul .native false (vDiv .native false x m) 0x3E800000)

/-- The rows of P magnitudes over V0 of the sample, without a last part row and less their mean; an element that is not finite counts as 0 (R233 step 2; log entry 31, DEDUCED). -/
def sampleRows (p : Nat) (v0 xs : List Nat) : List (List Nat) :=
  let hs := (List.zip xs (List.range xs.length)).map (fun xi =>
    let a := xi.1 % 0x80000000
    if a < 0x7F800000 then vDiv .native false a (nth v0 (xi.2 % p) 0x3F800000) else 0)
  let rows := (chunksOf p (xs.length / p) hs).filter (fun r => r.length == p)
  let sum := rows.foldl (fun a h => List.zipWith (fun x y => vAdd .native false x y) a h) (List.replicate p 0)
  let mean := sum.map (fun x => vDiv .native false x (natToF32 rows.length))
  rows.map (fun h => List.zipWith (fun x y => vSub .native false x y) h mean)

/-- u_1 to u_3: 8 power iterations each, from ¼ with signs alternating every 1, 2 and 4 columns (R233 step 2). -/
def furtherVectors (p : Nat) (v0 xs : List Nat) : List (List Nat) :=
  let rows := sampleRows p v0 xs
  (List.range 3).foldl (fun us k =>
    let start := (List.range p).map (fun c => if c / 2 ^ k % 2 = 0 then 0x3E800000 else 0xBE800000)
    us ++ [(List.range 8).foldl (fun u _ => powerStep p rows us u) start]) []

/-- Vk of a column: u × V0 as bfloat16, its magnitude clamped to V0 ÷ 4; 0 where no number results (R233 step 2; log entry 31, DEDUCED). -/
def buildVk (u v0 : Nat) : Nat :=
  let x := narrow 1 (vMul .native false u v0) * 65536
  let lim := v0 - 0x01000000
  if (f32.decode x).isNan then 0
  else if lim < x % 0x80000000 then lim + (if signBit32 x then 0x80000000 else 0) else x

/-- The sample's sub-vectors (R229 steps 1 to 5): those of zero and non-finite groups are zero (log entry 91, DEDUCED). -/
def sampleSubs (r : FrRec) (xs : List Nat) : List (List Nat) :=
  let tiles := chunksOf 2048 xs.length xs
  ((List.zip tiles (List.range tiles.length)).flatMap (fun ti =>
    let a := ti.1.toArray
    (List.range (2048 / r.g)).flatMap (fun q =>
      let is := (List.range r.g).map (· + q * r.g)
      let x := is.map (fun i => a.getD i 0)
      let cols := is.map (frColumn r.p ti.2)
      let gr := (codeGroup r x cols).1
      let zs := (List.zip x cols).map (fun xc => if gr.scale = 0 ∨ gr.scale = 0xFF then 0 else zOf xc.1 (r.envAt gr.as xc.2) gr.scale)
      chunksOf 8 zs.length zs)))

/-- One Lloyd iteration (R233 step 3). -/
def lloyd (r : FrRec) (subs : List (List Nat)) : FrRec :=
  let sums := subs.foldl (fun (m : Array (Nat × List Nat)) z =>
    m.modify (chooseIndex r z) (fun a => (a.1 + 1, List.zipWith (fun x y => vAdd .native false x y) a.2 z)))
    (Array.replicate r.k (0, List.replicate 8 0))
  let code := (List.range r.k).flatMap (fun k =>
    let a := sums.getD k (0, [])
    if k = 0 ∨ a.1 = 0 then (List.range 8).map (fun p => r.code.getD (8 * k + p) 0)
    else a.2.map (fun x => unit16 (vDiv .native false x (natToF32 a.1))))
  { r with code := code.toArray }

/-- The record of sample tiles (R233), as its bytes; the starting entries are rounded to bfloat16 (log entry 91, DEDUCED). -/
def buildRecord (stream cb env elem grp p sample : Nat) (tiles : List (List Byte)) : List Byte :=
  let xs := tiles.flatMap (fun t => (tileElems elem t).map (widen elem))
  let k := if cb = 1 then 4096 else 256
  let nv := if env = 1 then 4 else 1
  let v0 := buildV0 p xs
  let vk := if nv = 1 then [] else (furtherVectors p v0 xs).flatMap (fun u => List.zipWith buildVk u v0)
  let r0 : FrRec := { k := k, nv := nv, g := frGroup grp, p := p, elem := elem, code := #[], env := (v0 ++ vk).toArray }
  let subs := sampleSubs r0 xs
  let sa := subs.toArray
  let code0 := (List.range k).flatMap (fun i => if i = 0 then List.replicate 8 0 else (sa.getD (i * subs.length / k) []).map unit16)
  let r := (List.range 8).foldl (fun r _ => lloyd r subs) { r0 with code := code0.toArray }
  let size := roundUp (64 + 16 * k + 2 * p * nv) 32
  let vals := (r.code.toList ++ v0 ++ vk).flatMap (fun x => leBytes 2 (x / 65536))
  let body := vals ++ List.replicate (size - 64 - vals.length) 0
  let h := [(FrRecHdr.sampleTiles, sample), (FrRecHdr.stream, stream), (FrRecHdr.bodyCrc, crc32c body), (FrRecHdr.recordBytes, size), (FrRecHdr.period, p),
    (FrRecHdr.group, grp), (FrRecHdr.env, env), (FrRecHdr.cb, cb), (FrRecHdr.elemKind, elem), (FrRecHdr.formatGen, 3), (FrRecHdr.recordMagic, 0x56455152)].foldl
    (fun v q => q.1.set v q.2) 0
  leBytes 64 h ++ body

/-! ### Narrow blocks (R238) -/

/-- Bits, significant bits, and the exponent of the least subnormal of a narrow type, with EMAX and the code of the largest normal (R238). -/
def narrowType (v : Nat) : Nat × Nat × Int × Int × Nat :=
  if v = 1 then (8, 4, -9, 8, 0x7E) else if v = 2 then (8, 3, -16, 15, 0x7B) else if v = 3 then (6, 3, -4, 4, 0x1F)
  else if v = 4 then (6, 4, -3, 2, 0x1F) else (4, 2, -1, 2, 0x7)

/-- The code of a value scaled by 2^−sh: magnitude rounded to nearest even, beyond the largest normal that value. -/
def narrowCode (v : Nat) (x : Nat) (sh : Int) : Nat :=
  let ty := narrowType v
  match f32.decode x with
  | .fin neg m e =>
    let big := 2 ^ (ty.1 - 1)
    let f : Fmt := ⟨ty.2.1, ty.2.2.1, big, big⟩
    min (f.round .even m 1 (e - sh)) ty.2.2.2.2 + (if neg then big else 0)
  | _ => 0

/-- The value of a narrow code times 2^sh, as binary32; the codes of E4M3 and E5M2 that are no number, or infinite, are so (R238, R239). -/
def narrowValue (v code : Nat) (sh : Int) : Nat :=
  let ty := narrowType v
  let big := 2 ^ (ty.1 - 1)
  let neg := decide (big ≤ code)
  let mag := code % big
  let ex := mag / 2 ^ (ty.2.1 - 1)
  let fr := mag % 2 ^ (ty.2.1 - 1)
  let m := if ex = 0 then fr else fr + 2 ^ (ty.2.1 - 1)
  let e : Int := ty.2.2.1 + ((ex - 1 : Nat) : Int)
  if v = 1 ∧ mag = 0x7F ∨ v = 2 ∧ 0x7C < mag then 0x7FC00000
  else if v = 2 ∧ mag = 0x7C then 0x7F800000 + (if neg then 0x80000000 else 0) else
  f32.round .even m 1 (e + sh) + (if neg then 0x80000000 else 0)

/-- A block coded: scale byte and codes (R238). -/
def narrowBlock (v : Nat) (xs : List Nat) : Nat × List Nat :=
  let ty := narrowType v
  if xs.any (fun x => !decide (x % 0x80000000 < 0x7F800000)) then (0xFF, xs.map (fun _ => 0)) else
  let amax := xs.foldl (fun m x => maxMag m (x % 0x80000000)) 0
  if amax = 0 then (0, xs.map (fun _ => 0)) else
  let lg : Int := match f32.decode amax with
    | .fin _ m e => (Nat.log2 m : Int) + e
    | _ => 0
  let xb : Int := max 0 (min (lg - ty.2.2.2.1 + 127) 254)
  (xb.toNat, xs.map (fun x => narrowCode v x (xb - 127)))

end Sys2Proof.Machine
end

