-- ==== Sys2Proof/Machine/ReefMem.lean ====
section
/-! DEFINITION. The Reef as an address space: where an address lies (R328), band records and the mapping of bands (R344, R345), reading and writing a module's frames with their check words (R330). -/

namespace Sys2Proof.Machine

/-! ### Modules -/

abbrev Ms.absent : Nat := 0
abbrev Ms.identifying : Nat := 1
abbrev Ms.idFault : Nat := 2
abbrev Ms.present : Nat := 3
abbrev Ms.training : Nat := 4
abbrev Ms.admitted : Nat := 5
abbrev Ms.leaving : Nat := 6
abbrev Ms.draining : Nat := 7
abbrev Ms.safe : Nat := 8
abbrev Ms.lost : Nat := 9
abbrev Ms.trainFault : Nat := 10

def Port.fresh : Port :=
  { admitting := 0, erase := false, hours := 0, locked := 0, exchange := none, ownerTag := 0, setRecord := 0, bands := [],
    metaBands := [], media := [], counts := [], badSectors := [], poisoned := [], txSeq := 0, rxSeq := 0, unacked := [], replays := 0,
    transfers := [], nextTag := 0, scrub := none, reloc := none, defects := [], warned := [], scrubsHour := 0, waiting := [], factory := [] }

def State.port (s : State) (p : Nat) : Port := s.ports.getD p Port.fresh
/-- A port changed; BAND_RECORDS has changed with its bands (R354, R460). -/
def State.modPort (s : State) (p : Nat) (f : Port → Port) : State :=
  let q := f (s.port p)
  let t : State := { s with ports := s.ports.put p q }
  if q.bands = (s.port p).bands then t else t.blobChanged (Ch.bandRecords + 256 * p)
def State.modState (s : State) (p : Nat) : Nat := s.ch (Ch.modState + 256 * p)

/-! ### The interleave set (R328, R329) -/

def State.setPorts (s : State) : List Nat := (List.range 16).filter (bit (s.ch Ch.reefSet))
def framesPerModule : Nat := 1953125000
def State.reefCapacity (s : State) : Nat := s.setPorts.length * 8000000000000
def State.planLimit (s : State) : Nat := s.reefCapacity - s.ch Ch.swBytes

/-- Port, module frame and byte within the frame of a local Reef logical address. -/
def State.reefPlace (s : State) (a : Nat) : Option (Nat × Nat × Nat) :=
  let ps := s.setPorts
  let n := a / 4096
  if ps.isEmpty ∨ framesPerModule ≤ n / ps.length then none
  else some (nth ps (n % ps.length) 0, n / ps.length, a % 4096)

/-- Bits [51:47] of an address name a partner's Reef (R402). -/
def reefPartner (a : Nat) : Nat := a / 2 ^ 47

/-! ### Band records (R344, R345) -/

abbrev Bs.free : Nat := 0
abbrev Bs.mapped : Nat := 1
abbrev Bs.relocating : Nat := 2

/-- Metadata bands are the last 16 (log entry 40, DESIGN CHOICE). -/
def firstMetaBand : Nat := 144480

def freeBand (b : Nat) : Nat := BandRec.logical.set (BandRec.state.set 0 (if firstMetaBand ≤ b then 6 else 0)) 0x3FFFF

def bandIn (m : SMap Nat) (b : Nat) : Nat := m.getD b (freeBand b)
def Port.band (p : Port) (b : Nat) : Nat := bandIn p.bands b
def Port.setBand (p : Port) (b v : Nat) : Port := { p with bands := p.bands.put b v }

/-- The physical band of a logical one. -/
def Port.mapped (p : Port) (lb : Nat) : Option Nat :=
  (p.bands.find? (fun e => BandRec.logical.get e.2 == lb && (BandRec.state.get e.2 == Bs.mapped || BandRec.state.get e.2 == Bs.relocating))).map Prod.fst

def Port.freeBands (p : Port) : Nat := firstMetaBand - (p.bands.filter (fun e => e.1 < firstMetaBand && BandRec.state.get e.2 != Bs.free)).length

/-- The FREE bands that can be chosen: the listed ones and the lowest unlisted one. -/
def Port.candidates (p : Port) : List (Nat × Nat) :=
  let listed := (p.bands.filter (fun e => e.1 < firstMetaBand && BandRec.state.get e.2 == Bs.free)).map (fun e => (BandRec.wear.get e.2, e.1))
  match (List.range (min firstMetaBand (p.bands.length + 1))).find? (fun b => (p.bands.find b).isNone) with
  | some b => (0, b) :: listed
  | none => listed

/-- The FREE band with the least WEAR, the lowest number on a tie (R345, R349). -/
def Port.leastWorn (p : Port) : Option Nat :=
  (p.candidates.foldl (fun (m : Option (Nat × Nat)) c => match m with
    | none => some c
    | some b => if c.1 < b.1 ∨ (c.1 = b.1 ∧ c.2 < b.2) then some c else m) none).map Prod.snd

/-- The FREE band with the most WEAR (R347). -/
def Port.mostWorn (p : Port) : Option Nat :=
  (p.candidates.foldl (fun (m : Option (Nat × Nat)) c => match m with
    | none => some c
    | some b => if b.1 < c.1 ∨ (c.1 = b.1 ∧ c.2 < b.2) then some c else m) none).map Prod.snd

/-- A band needs a spare and none is FREE (R350): need 1 map, 2 scrub, 3 wear, 4 defect. -/
def State.sparesExhausted (s : State) (p band need : Nat) : State := s.raise ⟨0x010A, p, band, need, none, []⟩

/-- A FREE band has been taken: the floor is reported once (R350). -/
def State.spareFloor (s : State) (p : Nat) : State :=
  let q := s.port p
  if q.freeBands < s.ch Ch.spareFloor ∧ !q.warned.contains 1 then
    (s.modPort p (fun q => { q with warned := 1 :: q.warned })).raise ⟨0x010B, p, q.freeBands, s.ch Ch.spareFloor, none, []⟩
  else s

/-- The logical band is mapped at its first write (R345), from which its AGE and MARGIN count (R344; log entry 111, DEDUCED). -/
def State.mapBand (s : State) (p lb : Nat) : Option State :=
  match (s.port p).mapped lb with
  | some _ => some s
  | none =>
    match (s.port p).leastWorn with
    | none => none
    | some b =>
      let r := BandRec.age.set (BandRec.margin.set ((s.port p).band b) 0) 0
      some ((s.modPort p (fun q => q.setBand b (BandRec.logical.set (BandRec.state.set r Bs.mapped) lb))).spareFloor p)

/-! ### Frames -/

def Port.frameBytes (p : Port) (mb off n : Nat) : List Byte := (List.range n).map (fun i => p.media.getD (4096 * mb + off + i) 0)

def Port.putFrame (p : Port) (mb off : Nat) (bs : List Byte) : Port :=
  { p with media := (List.zip (List.range bs.length) bs).foldl (fun (m : SMap Byte) ib =>
      let k := 4096 * mb + off + ib.1
      if ib.2 = 0 then m.erase k else m.put k ib.2) p.media }

/-- The sectors of a frame that bytes `off` to `off + n - 1` touch, and those they cover whole. -/
def touched (off n : Nat) : List Nat := if n = 0 then [] else (List.range ((off + n - 1) / 256 + 1 - off / 256)).map (· + off / 256)
def covered (off n : Nat) : List Nat := (touched off n).filter (fun k => decide (off ≤ 256 * k ∧ 256 * k + 256 ≤ off + n))

/-- The first sector of the frame that cannot be delivered: of a poisoned frame, or with a check word that fails. -/
def Port.badAt (p : Port) (mb : Nat) (ks : List Nat) : Option Nat :=
  if p.poisoned.contains mb then ks.head? else ks.find? (fun k => p.badSectors.contains (16 * mb + k))

/-- REEF_DETECTED (R330). -/
def State.reefDetected (s : State) (p mb sector : Nat) : State :=
  let b := ((s.port p).mapped (mb / 16384)).getD 0
  s.raise ⟨0x0102, p, b * 2 ^ 32 + mb % 16384, sector, none, []⟩

/-- The module has exceeded TEMP_WARN and not yet fallen below it: mark 2 of what is reported once. With THERMAL_ACTION 1 it takes no new write (R346). -/
def State.tooWarm (s : State) (p : Nat) : Bool := s.ch Ch.thermalAction == 1 && (s.port p).warned.contains 2

/-- A transfer may be made: the module is ADMITTED, or, for one `under` way, LEAVING or DRAINING (R342, R343). -/
def State.moduleServes (s : State) (p : Nat) (under : Bool) : Bool :=
  s.modState p == Ms.admitted || (under && (s.modState p == Ms.leaving || s.modState p == Ms.draining))

/-- Part of a frame read: the bytes, or the status the reader ends with. -/
def State.frameRead (s : State) (p mb off n : Nat) (under : Bool := false) : State × Except Nat (List Byte) :=
  if !s.moduleServes p under then (s, .error St.reefLost)
  else match (s.port p).badAt mb (touched off n) with
    | some k => (s.reefDetected p mb k, .error St.detected)
    | none => (s, .ok ((s.port p).frameBytes mb off n))

/-- WEAR of the MAPPED bands: sum and number. -/
def Port.mappedWear (p : Port) : Nat × Nat :=
  let ws := (p.bands.filter (fun e => BandRec.state.get e.2 == Bs.mapped)).map (fun e => BandRec.wear.get e.2)
  (ws.foldl (· + ·) 0, ws.length)

/-- WEAR_MEAN as binary32, +0 without a MAPPED band, and WEAR_MAX (R354). -/
def Port.wearMean (p : Port) : Nat := let w := p.mappedWear; if w.2 = 0 then 0 else vDiv .native false (natToF32 w.1) (natToF32 w.2)
def Port.wearMax (p : Port) : Nat := (p.bands.map (fun e => BandRec.wear.get e.2)).foldl max 0

/-- The mean WEAR of a module has exceeded WEAR_WARN for the first time (R348): mark 3. -/
def State.wearWarn (s : State) (p : Nat) : State :=
  let q := s.port p
  if s.ch Ch.wearWarn * q.mappedWear.2 < q.mappedWear.1 ∧ !q.warned.contains 3 then
    (s.modPort p (fun q => { q with warned := 3 :: q.warned })).raise ⟨0x0108, p, q.wearMean, q.wearMax, none, []⟩
  else s

/-- A frame has been written: its count and its band's WEAR rise; the band's limit is noted (R345, R348). -/
def State.frameWritten (s : State) (p mb : Nat) : State :=
  let q := s.port p
  match q.mapped (mb / 16384) with
  | none => s
  | some b =>
    let key := 16384 * b + mb % 16384
    let c := q.counts.getD key 0 + 1
    let r := q.band b
    let w := min (max c (BandRec.wear.get r)) 2097151
    let worn := decide (2000000 ≤ w) && !(q.defects.any (fun d => d.1 == b))
    let s := s.modPort p (fun q => { q.setBand b (BandRec.wear.set r w) with counts := q.counts.put key c, defects := if worn then q.defects ++ [(b, 1)] else q.defects })
    (s.count (Ch.framesWritten + 256 * p) 64).wearWarn p

/-- A clean copy in the window buffer is no longer current (R353). -/
def State.dropWindow (s : State) (a : Nat) : State :=
  { s with window := s.window.filter (fun f => f.dirty || f.addr != a / 4096 * 4096) }

/-- Part of a frame written, partial sectors merged (R330): nothing, or the status the writer ends with. -/
def State.frameWrite (s : State) (p mb off : Nat) (bs : List Byte) (under : Bool := false) : State × Option Nat :=
  if !s.moduleServes p under then (s, some St.reefLost)
  else if s.tooWarm p then (s, some St.busError)
  else match s.mapBand p (mb / 16384) with
    | none => (s.sparesExhausted p (mb / 16384) 1, some St.capacity)
    | some s =>
      let full := covered off bs.length
      let part := (touched off bs.length).filter (fun k => !full.contains k)
      match (s.port p).badAt mb part with
      | some k => (s.reefDetected p mb k, some St.detected)
      | none =>
        let s := s.modPort p (fun q => { q.putFrame mb off bs with
          badSectors := q.badSectors.filter (fun x => !(full.contains (x % 16) && x / 16 == mb)), poisoned := q.poisoned.filter (· != mb) })
        (s.frameWritten p mb, none)

/-- The pieces of a range inside one 4 KiB block each. -/
def blockPieces : Nat → Nat → Nat → List (Nat × Nat)
  | 0, _, _ => []
  | fuel + 1, a, n => if n = 0 then [] else
    let k := min n (4096 - a % 4096)
    (a, k) :: blockPieces fuel (a + k) (n - k)

/-- Bytes at a local Reef logical address. -/
def State.reefRead (s : State) (a n : Nat) (under : Bool := false) : State × Except Nat (List Byte) :=
  (blockPieces (n / 4096 + 2) a n).foldl (fun (acc : State × Except Nat (List Byte)) pc =>
    match acc.2 with
    | .error e => (acc.1, .error e)
    | .ok bs =>
      match acc.1.reefPlace pc.1 with
      | none => (acc.1, .error St.noObject)
      | some (p, mb, off) =>
        match acc.1.frameRead p mb off pc.2 under with
        | (s, .ok x) => (s, .ok (bs ++ x))
        | (s, .error e) => (s, .error e)) (s, .ok [])

/-- Bytes stored at a local Reef logical address. -/
def State.reefStore (s : State) (a : Nat) (bs : List Byte) (under : Bool := false) : State × Option Nat :=
  let r := (blockPieces (bs.length / 4096 + 2) a bs.length).foldl (fun (acc : State × Option Nat × List Byte) pc =>
    match acc.2.1 with
    | some _ => acc
    | none =>
      match acc.1.reefPlace pc.1 with
      | none => (acc.1, some St.noObject, [])
      | some (p, mb, off) =>
        let r := (acc.1.dropWindow pc.1).frameWrite p mb off (acc.2.2.take pc.2) under
        (r.1, r.2, acc.2.2.drop pc.2)) (s, none, bs)
  (r.1, r.2.1)

/-! ### Bytes sent to another package (R402, R404; log entry 13, DESIGN CHOICE): ARG [63:56] what they are, [55:0] where they go -/

abbrev Dk.streamRec : Nat := 1
abbrev Dk.streamGen : Nat := 2
abbrev Dk.streamTile : Nat := 3
abbrev Dk.gradient : Nat := 4
abbrev Dk.version : Nat := 5
abbrev Dk.versionAsk : Nat := 6
abbrev Dk.reefWrite : Nat := 7
abbrev Dk.reefAsk : Nat := 8
abbrev Dk.reefRead : Nat := 9
abbrev Dk.exportBytes : Nat := 10
abbrev Dk.importAsk : Nat := 11
abbrev Dk.importBytes : Nat := 12
abbrev Dk.streamAsk : Nat := 13
abbrev Dk.setWrite : Nat := 14
abbrev Dk.setAsk : Nat := 15
abbrev Dk.streamFixed : Nat := 16

def State.sendData (s : State) (pkg kind place : Nat) (bs : List Byte) : State := s.send pkg Mk.data (kind * 2 ^ 56 + place) bs

def slice (l : List Byte) (o n : Nat) : List Byte := (l.drop o).take n
def sliceNat (l : List Byte) (o n : Nat) : Nat := leNat (slice l o n)

/-- The check words of the whole sectors among bytes that lie `off` bytes into a block (R330). -/
def sectorWords (off : Nat) (bs : List Byte) : List Byte := (covered off bs.length).flatMap (fun k => leBytes 4 (crc32c (slice bs (256 * k - off) 256)))

/-- Part of a borrowed block as a DATA message carries it: its length, its bytes, its sector check words (R402). -/
def packBlock (off : Nat) (bs : List Byte) : List Byte := leBytes 4 bs.length ++ bs ++ sectorWords off bs

/-- The bytes of such a message; none where a check word fails. -/
def unpackBlock (off : Nat) (payload : List Byte) : Option (List Byte) :=
  let bs := slice payload 4 (sliceNat payload 0 4)
  if payload = packBlock off bs then some bs else none

/-- A long run of bytes in payloads of 4 KiB. -/
def State.sendRun (s : State) (pkg kind place : Nat) (bs : List Byte) : State :=
  (List.zip (List.range bs.length) (chunksOf 4096 (bs.length / 4096 + 1) bs)).foldl (fun (s : State) ic => s.sendData pkg kind (place + 4096 * ic.1) ic.2) s

/-- A long run of bytes as successive payloads under one place; they arrive in order (R394). -/
def State.sendParts (s : State) (pkg kind place : Nat) (bs : List Byte) : State :=
  (chunksOf 4096 (bs.length / 4096 + 1) bs).foldl (fun (s : State) c => s.sendData pkg kind place c) s

/-- DATA_DONE: the end of a transfer with its status, or the receiver's answer to it (log entry 13, DESIGN CHOICE). -/
def State.sendDone (s : State) (pkg kind place status : Nat) (answer : Bool) : State :=
  s.send pkg Mk.dataDone (kind * 2 ^ 56 + place) [BitVec.ofNat 8 status, if answer then 1 else 0]

end Sys2Proof.Machine
end

