-- ==== Sys2Proof/Machine/TileRead.lean ====
section
/-! DEFINITION. Reading a stored tile: where its block lies (R184, R185, R225), the checks before delivery (R214, R236), and what a failure is. -/

namespace Sys2Proof.Machine

/-- Why a stored tile is not delivered: a sector that fails its check (R218), or a block or record that fails a check, with the block's address and the event's cause (R216, R476). -/
inductive Dmg where
  | sector (sec : Nat)
  | block (addr cause : Nat)
  deriving DecidableEq, Repr

/-- The completion status of a reader (R139). -/
def Dmg.status : Dmg → Nat
  | .sector _ => St.detected
  | .block _ _ => St.codecDamage

/-- The resident generation of a number. -/
def State.genSlot (s : State) (g : Nat) : Option GenSlot := s.skerry.gens.find? (fun x => x.gen == g && g != 0 && (x.state == 2 || x.state == 3))

/-- The bound table of a stream that fills: generation and lengths. -/
def State.boundTable (s : State) (n : Nat) : Option (Nat × List Nat) :=
  (s.genSlot (s.aux n).bound).map (fun g => (g.gen, g.lengths))

def State.streamKey (s : State) (n : Nat) : Nat := (s.contexts.getD (s.sf n StreamRec.context) ⟨0, 0, 0, 0⟩).xts

def State.streamKind (s : State) (n : Nat) : Nat := coderKind (s.cls n) (s.sf n StreamRec.elemType)

/-- The address of the index entry of tile `t` (R212). -/
def State.entryAddr (s : State) (n t : Nat) : Nat := s.sf n StreamRec.indexBase + 8 * t

/-- The data of tile `t` is read out of a staging slot (R176). -/
def State.stagedAt (s : State) (n t : Nat) : Option Nat :=
  if s.residence n = Rs.reef ∨ s.residence n = Rs.toHarbour then (s.aux n).staged.find t else none

def State.slotAddr (s : State) (slot : Nat) : Nat := s.ch Ch.stageBase + 4096 * slot

/-- The address a block is read from: its staging slot, or its place in its segment (R185, R213, R225). -/
def State.blockAddr (s : State) (n t offset : Nat) : Nat :=
  match s.stagedAt n t with
  | some k => s.slotAddr k
  | none => s.segment n (t % 20) + 32 * offset

/-- A record for stream `n` read and checked at an address (R232). -/
def State.recordAt (s : State) (n a : Nat) : Except Nat FrRec :=
  readRecord n (s.sf n StreamRec.lossyCb) (s.sf n StreamRec.lossyEnv) (s.sf n StreamRec.elemType)
    (s.rd a (FrRecHdr.recordBytes.get (s.rdNat a 64)))

/-- The bytes of the record copy that a LOSSY stream's blocks are decoded with: in the Harbour or in the module that holds them; of one in a partner's Reef, the bytes that went there (log entry 94, DESIGN CHOICE). None where a sector fails its check or the module is gone (R236). -/
def State.recordBytesAt (s : State) (n : Nat) : Option (List Byte) :=
  let a := s.recordAddr n
  let size := 32 * (s.aux n).copySize
  if s.residence n = Rs.reef ∨ s.residence n = Rs.toHarbour then
    if reefPartner a ≠ 0 then some (s.aux n).reefRec
    else match (s.reefRead a size true).2 with
      | .ok bs => some bs
      | .error _ => none
  else if (s.failing a size).isSome then none else some (s.rd a size)

/-- The record of a stream as its readers load it: its check words, and its validity (R236 checks 1 and 2). -/
def State.recordCopy (s : State) (n : Nat) : Except Nat FrRec :=
  match s.recordBytesAt n with
  | none => .error 0x11
  | some bs => match readRecord n (s.sf n StreamRec.lossyCb) (s.sf n StreamRec.lossyEnv) (s.sf n StreamRec.elemType) bs with
    | .ok r => .ok r
    | .error _ => .error 0x12

/-- Bytes of the held pool slot of a QUAY stream's tile. -/
def State.quayBytes (s : State) (d slot : Nat) : List Byte :=
  let q := (s.quays.getD d Quay.reset).slots
  (List.range 4096).map (fun i => q.getD (4096 * slot + i) 0)

/-- The tile as stored, before any form is taken of it, or the damage that keeps it back. -/
def State.readStored (s : State) (n t : Nat) : Except Dmg (List Byte) :=
  let cls := s.cls n
  let key := s.streamKey n
  if s.residence n = Rs.quay then
    let d := s.sf n StreamRec.die
    match (s.quays.getD d Quay.reset).held.find (n * 2 ^ 20 + t) with
    | some k => .ok (s.quayBytes d k)
    | none => .ok (List.replicate 4096 0)
  else if cls = Cl.lossy then
    let size := 32 * fixedGranules (s.rate n)
    let a := s.blockAddr n t (fixedGranules (s.rate n) * (t / 20))
    if (s.failing a size).isSome then .error (.block a 0x11) else
      match s.recordCopy n with
      | .error c => .error (.block a c)
      | .ok r =>
        match readFixed r (s.rate n) t (xtsDecrypt key (tileTweak n t) (s.rd a size)) with
        | .ok x => .ok x
        | .error c => .error (.block a (0x10 + c))
  else if cls = Cl.raw then
    let a := s.blockAddr n t (128 * (t / 20))
    if (s.failing a 4096).isSome then .error (.block a 3)
    else .ok (xtsDecrypt key (tileTweak n t) (s.rd a 4096))
  else
    let ea := s.entryAddr n t
    match s.failing ea 8 with
    | some k => .error (.sector k)
    | none =>
      let e := s.rdNat ea 8
      let a := s.blockAddr n t (IndexEnt.offset.get e)
      let g := s.genSlot (IndexEnt.tableGen.get e)
      if !entryCheck (s.streamKind n) (s.segGranules n) e (g.map (fun g => (g.kind, g.lengths))) then .error (.block a 1) else
      let size := 32 * (IndexEnt.lenM1.get e + 1)
      match s.failing a size with
      | some k => .error (if IndexEnt.mode.get e = 3 then .block a 3 else .sector k)
      | none =>
        match expandBlock (s.streamKind n) key n t e ((g.map GenSlot.lengths).getD []) (s.rd a size) with
        | .ok x => .ok x
        | .error c => .error (.block a c)

/-- The failure reported, counted against slice and stream (R216, R218, R480); the event has no field for the band and block of a transposed delivery (log entry 109, DEDUCED). -/
def State.reportDamage (s : State) (n t : Nat) (d : Dmg) : State :=
  let ctx := some (s.sf n StreamRec.context)
  let s := s.soundStream n StreamSnd.detected
  match d with
  | .sector k => s.sectorDetected k n t ctx
  | .block a c => (s.countSticky (Ch.damage + 256 * (t % 20))).raise ⟨0x0204, n, evAddr a c, t, ctx, []⟩

/-- Several tiles read at once. -/
def State.readTiles (s : State) (n : Nat) : List Nat → Except (Nat × Dmg) (SMap (List Byte))
  | [] => .ok []
  | t :: ts =>
    match s.readStored n t with
    | .error d => .error (t, d)
    | .ok b =>
      match s.readTiles n ts with
      | .error d => .error d
      | .ok m => .ok (m.put t b)

end Sys2Proof.Machine
end

