-- ==== Sys2Proof/Machine/Shoal.lean ====
section
/-! DEFINITION. What a Shoal program computes: instructions (R254 to R263), ports (R253, R258, R313), units (R251), nested runs of REGEN sources (R253). The State is only read here: an engine's registers and DBUF are carried through `Regs` and `Bench`. -/

namespace Sys2Proof.Machine

/-! ### Programs (R246, R250) -/

abbrev Kd.element : Nat := 1
abbrev Kd.row : Nat := 2
abbrev Kd.matrix : Nat := 3
abbrev Kd.update : Nat := 4

def State.progAddr (s : State) (p : Nat) : Nat := s.ch Ch.progBase + 32 * p
def State.prog (s : State) (p : Nat) : Nat := s.rdNat (s.progAddr p) 32
/-- A registered program that is VALID. -/
def State.progValid (s : State) (p : Nat) : Bool := decide (p < s.ch Ch.progCount) && ProgRec.state.get (s.prog p) == 1
def State.progCode (s : State) (p : Nat) : List Nat :=
  (List.range (ProgRec.insns.get (s.prog p))).map (fun i => s.rdNat (ProgRec.image.get (s.prog p) + 8 * i) 8)

/-- A listed built-in program (R250). -/
def builtIn (p : Nat) : Bool :=
  p == 0xFF20 || p == 0xFF30 || (0xFF01 ≤ p && p ≤ 0xFF09) || p == 0xFF10 || p == 0xFF11

/-! ### What a task keeps on its engine beside the registers -/

/-- DBUF, the nested programs begun, and what is counted: clipped accesses with the unit and instruction of the first, NaN results, NaN derivatives, VSR results that reached infinity. -/
structure Bench where
  dbuf      : SMap Byte
  started   : List (Nat × Nat)
  clips     : Nat
  firstClip : Option (Nat × Nat)
  nans      : Nat
  nanForms  : Nat
  srOver    : Nat

/-- The start of a task (R252). -/
def Bench.empty : Bench := ⟨[], [], 0, none, 0, 0, 0⟩

/-- The state sections, gradients and OUT of an UPDATE (R313): PARAMS, and how a section's or a gradient's element is read. -/
structure UpdEnv where
  params : Nat
  state  : Nat → Option Nat
  grad   : Nat

/-- What an invocation sees: its program record, nesting level, numeric mode, unit, first element or row and number, the elements of OUT it may write, Philox key and counter base, sources, the weight port's address and number of bytes, the rows of SRC_A as a matrix, and an UPDATE's ports. -/
structure Env where
  prog    : Nat
  level   : Nat
  mode    : NMode
  unit    : Nat
  first   : Nat
  count   : Nat
  outLo   : Nat
  outN    : Nat
  key     : Nat
  ctr     : Nat
  srcA    : Option Nat
  srcB    : Option Nat
  weight  : Option (Nat × Nat)
  rows    : Nat
  upd     : Option UpdEnv

/-- How a source's elements are read: the stream and the elements. -/
abbrev Reader := Env → Nat → List Nat → Bench → Except Dmg (Bench × List (Option Nat))

/-- An instruction's effect: registers with the next pc, or the damage that a port read met. -/
abbrev Sem := Env → Reader → Bench → Regs → Except Dmg (Bench × Regs)

def lanes : List Nat := List.range 512
def maxLane : Nat := 2 ^ 64

/-! ### Registers -/

def Regs.sreg (r : Regs) (i : Nat) : Nat := (nth r.s i 0).toNat
def Regs.setS (r : Regs) (i v : Nat) : Regs := if i = 0 then r else { r with s := r.s.set i (BitVec.ofNat 64 v) }
def Regs.vreg (r : Regs) (i : Nat) : List Word := nth r.v i []
def Regs.preg (r : Regs) (i : Nat) : List Bool := nth r.p (i % 8) []
def Regs.setP (r : Regs) (i : Nat) (v : List Bool) : Regs := if i % 8 = 0 then r else { r with p := r.p.set (i % 8) v }
/-- The lanes that PRED and PNOT enable. -/
def Regs.gate (r : Regs) (pred : Nat) (pnot : Bool) : List Bool := (r.preg pred).map (fun b => b != pnot)
/-- V[d] written in the enabled lanes only. -/
def Regs.setV (r : Regs) (d : Nat) (g : List Bool) (xs : List Nat) : Regs :=
  { r with v := r.v.set d (List.zipWith (fun (e : Bool) (ox : Word × Nat) => if e then BitVec.ofNat 32 ox.2 else ox.1) g (List.zip (r.vreg d) xs)) }
def Regs.next (r : Regs) : Regs := { r with pc := r.pc + 1 }
def allLanes : List Bool := List.replicate 512 true

/-! ### DBUF (R244, R253) -/

/-- The byte of DBUF that an address of the program means. -/
def Env.dbufAddr (v : Env) (a : Nat) : Nat := if v.level = 0 then a % 262144 else 131072 + 32768 * (v.level - 1) + a % 32768

/-- How many of the accesses wrap: those past the end of the program's DBUF, or of its area (R245, R253, R258; log entry 95, DEDUCED). -/
def Env.dbufClips (v : Env) (as : List Nat) : Nat := (as.filter (fun a => (if v.level = 0 then 262144 else 32768) ≤ a)).length

def Env.dbufRead (v : Env) (b : Bench) (a n : Nat) : Nat := leNat ((List.range n).map (fun i => b.dbuf.getD (v.dbufAddr (a + i)) 0))

/-- Bytes of DBUF written; a zero byte is not listed. -/
def putBytes (m : SMap Byte) (f : Nat → Nat) (a : Nat) (bs : List Byte) : SMap Byte :=
  (List.zip (List.range bs.length) bs).foldl (fun (m : SMap Byte) ib =>
    if ib.2 = 0 then m.erase (f (a + ib.1)) else m.put (f (a + ib.1)) ib.2) m

/-! ### Counting -/

def Bench.clip (b : Bench) (v : Env) (r : Regs) (n : Nat) : Bench :=
  if n = 0 then b else
  { b with clips := b.clips + n, firstClip := match b.firstClip with | some x => some x | none => some (v.unit, r.pc) }

def isNan32 (x : Nat) : Bool := decide (0x7F800000 < x % 0x80000000)

/-- Lanes that gave a NaN from operands that are none (R259). -/
def nanLanes (g : List Bool) (ops : List (List Nat)) (res : List Nat) : Nat :=
  ((List.range res.length).filter (fun l => nth g l false && isNan32 (nth res l 0) && ops.all (fun o => !isNan32 (nth o l 0)))).length

/-! ### Scalars -/

/-- IMM sign-extended to 64 bits. -/
def sext (imm : Nat) : Nat := if imm < 2 ^ 31 then imm else imm + (2 ^ 64 - 2 ^ 32)

def semSli (i : IForm) : Sem := fun _ _ b r => .ok (b, (r.setS i.d (sext i.imm)).next)
def semSadd (i : GForm) : Sem := fun _ _ b r => .ok (b, (r.setS i.d (r.sreg i.a + r.sreg i.b)).next)
def semSaddi (i : IForm) : Sem := fun _ _ b r => .ok (b, (r.setS i.d (r.sreg i.a + sext i.imm)).next)
def semSmul (i : GForm) : Sem := fun _ _ b r => .ok (b, (r.setS i.d (r.sreg i.a * r.sreg i.b)).next)
def semSshr (i : IForm) : Sem := fun _ _ b r => .ok (b, (r.setS i.d (r.sreg i.a >>> (i.imm % 64))).next)
def semSand (i : GForm) : Sem := fun _ _ b r => .ok (b, (r.setS i.d (r.sreg i.a &&& r.sreg i.b)).next)
/-- An address that is not aligned is taken rounded down (log entry 26, DESIGN CHOICE). -/
def semSldk (i : IForm) : Sem := fun v _ b r => .ok (b.clip v r (v.dbufClips [i.imm]), (r.setS i.d (v.dbufRead b (i.imm / 8 * 8) 8)).next)

/-! ### Control (R257) -/

/-- Bodies that end where the pc stands run again or are left, innermost first. -/
def closeLoops (pc : Nat) : List (Nat × Nat × Nat) → Nat × List (Nat × Nat × Nat)
  | [] => (pc, [])
  | l :: ls =>
    if l.2.1 ≠ pc then (pc, l :: ls)
    else if l.2.2 = 0 then closeLoops pc ls
    else (l.1, (l.1, l.2.1, l.2.2 - 1) :: ls)

def Regs.settle (r : Regs) : Regs :=
  let c := closeLoops r.pc r.loops
  { r with pc := c.1, loops := c.2 }

def semLoop (i : IForm) : Sem := fun _ _ b r =>
  let n := i.imm % 4096
  let k := r.sreg i.a
  if k = 0 ∨ n = 0 then .ok (b, { r with pc := r.pc + 1 + n })
  else .ok (b, { r with pc := r.pc + 1, loops := (r.pc + 1, r.pc + 1 + n, k - 1) :: r.loops })
def semBrz (i : IForm) : Sem := fun _ _ b r => .ok (b, { r with pc := r.pc + 1 + (if r.sreg i.a = 0 then i.imm % 4096 else 0) })
def semBrnz (i : IForm) : Sem := fun _ _ b r => .ok (b, { r with pc := r.pc + 1 + (if r.sreg i.a = 0 then 0 else i.imm % 4096) })
/-- END stays where it is: the invocation has ended. -/
def semEnd : Sem := fun _ _ b r => .ok (b, r)

/-! ### Ports (R253, R258) -/

/-- Elements of the weight port, or of the gradients, from raw memory. -/
def State.rawElems (s : State) (base et n : Nat) (es : List Nat) : Except Dmg (List (Option Nat)) :=
  let z := elemBytes et
  match es.find? (fun e => e < n && (s.failing (base + z * e) z).isSome) with
  | some e => .error (.sector ((s.failing (base + z * e) z).getD 0))
  | none => .ok (es.map (fun e => if e < n then some (widen et (s.rdNat (base + z * e) z)) else none))

/-- The elements of a port, none where outside its range. -/
def State.portElems (s : State) (rd : Reader) (v : Env) (port : Nat) (es : List Nat) (b : Bench) : Except Dmg (Bench × List (Option Nat)) :=
  let none_ : Except Dmg (Bench × List (Option Nat)) := .ok (b, es.map (fun _ => none))
  if port = 0 then (match v.srcA with | some n => rd v n es b | none => none_)
  else if port = 1 then (match v.srcB with | some n => rd v n es b | none => none_)
  else if port = 2 then (match v.weight with
    | some (a, n) => (s.rawElems a (ProgRec.wType.get v.prog) (n / elemBytes (ProgRec.wType.get v.prog)) es).map (fun x => (b, x))
    | none => none_)
  else match v.upd with
    | none => none_
    | some u =>
      if port = 3 then .ok (b, es.map u.state)
      else if port = 4 then (s.rawElems u.grad 3 u.params es).map (fun x => (b, x))
      else none_

/-- −0, which a clipped read gives. -/
def negZero : Nat := 0x80000000

/-- VLD: an enabled lane reads its element; one outside the range reads −0 and is counted. -/
def semVld (s : State) (i : GForm) : Sem := fun v rd b r =>
  let g := r.gate i.pred i.pnot
  let on := lanes.filter (fun l => nth g l false)
  match s.portElems rd v i.b (on.map (fun l => (r.sreg i.a + l) % maxLane)) b with
  | .error d => .error d
  | .ok (b, xs) =>
    let m := (List.zip on xs).map (fun p => (p.1, p.2.getD negZero))
    let vals := lanes.map (fun l => ((m.find? (fun p => p.1 == l)).map Prod.snd).getD 0)
    .ok (b.clip v r (xs.filter Option.isNone).length, (r.setV i.d g vals).next)

/-- Elements written to OUT, the clipped ones left out. -/
def Regs.putOut (r : Regs) (v : Env) (es : List (Nat × Nat)) : Regs × Nat :=
  let okE := fun (e : Nat) => match v.upd with
    | none => decide (v.outLo ≤ e ∧ e < v.outLo + v.outN)
    | some u => let q := e % u.params
                decide (v.outLo ≤ q ∧ q < v.outLo + v.outN) && (decide (e < u.params) || (u.state e).isSome)
  ({ r with out := (es.filter (fun p => okE p.1)).foldl (fun (m : SMap Nat) p => m.put p.1 p.2) r.out }, (es.filter (fun p => !okE p.1)).length)

/-- What an OUT element holds until it is handed on: bits of OUT_TYPE, or binary32 for a state element (R314). -/
def Env.outBits (v : Env) (e x : Nat) : Nat :=
  let t := ProgRec.outType.get v.prog
  let y := narrow t (if t = 1 ∨ t = 2 then flushed v.mode x else x)
  match v.upd with
  | some u => if u.params ≤ e then x else y
  | none => y

def storeLanes (v : Env) (b : Bench) (r : Regs) (i : GForm) (f : Nat → Nat → Nat) : Bench × Regs :=
  let g := r.gate i.pred i.pnot
  let a := r.vreg i.a
  let es := (lanes.filter (fun l => nth g l false)).map (fun l => let e := (r.sreg i.b + l) % maxLane; (e, f e (nth a l 0).toNat))
  let p := r.putOut v es
  (b.clip v r p.2, p.1.next)

def semVst (i : GForm) : Sem := fun v _ b r => .ok (storeLanes v b r i v.outBits)
/-- VSTF into an output that has no form stores the code as the element's bits (log entry 27, DESIGN CHOICE). -/
def semVstf (i : GForm) : Sem := fun v _ b r => .ok (storeLanes v b r i (fun _ x => x % 256))

def semVldd (i : IForm) : Sem := fun v _ b r =>
  let a := (r.sreg i.a + i.imm) / 4 * 4
  .ok (b.clip v r (v.dbufClips (lanes.map (fun l => a + 4 * l))), (r.setV i.d allLanes (lanes.map (fun l => v.dbufRead b (a + 4 * l) 4))).next)
def semVstd (i : IForm) : Sem := fun v _ b r =>
  let a := (r.sreg i.a + i.imm) / 4 * 4
  let b := b.clip v r (v.dbufClips (lanes.map (fun l => a + 4 * l)))
  .ok ({ b with dbuf := putBytes b.dbuf v.dbufAddr a ((r.vreg i.d).flatMap (fun w => leBytes 4 w.toNat)) }, r.next)
def semVbc (i : IForm) : Sem := fun _ _ b r => .ok (b, (r.setV i.d allLanes (lanes.map (fun _ => i.imm))).next)
def semVbcs (i : GForm) : Sem := fun _ _ b r => .ok (b, (r.setV i.d allLanes (lanes.map (fun _ => r.sreg i.a % 2 ^ 32))).next)
def semVrand (i : GForm) : Sem := fun v _ b r =>
  .ok (b, (r.setV i.d allLanes (lanes.map (fun l => philoxWord v.key v.ctr ((r.sreg i.a + l) % maxLane)))).next)

/-! ### Vectors (R255, R259 to R261) -/

def nats (ws : List Word) : List Nat := ws.map BitVec.toNat

/-- A lanewise operation on V[A]. -/
def sem1 (f : NMode → Bool → Nat → Nat) (i : GForm) : Sem := fun v _ b r =>
  let g := r.gate i.pred i.pnot
  let a := nats (r.vreg i.a)
  let x := a.map (f v.mode i.bf)
  .ok ({ b with nans := b.nans + nanLanes g [a] x }, (r.setV i.d g x).next)

/-- A lanewise operation on V[A] and V[B]. -/
def sem2 (f : NMode → Bool → Nat → Nat → Nat) (i : GForm) : Sem := fun v _ b r =>
  let g := r.gate i.pred i.pnot
  let a := nats (r.vreg i.a)
  let c := nats (r.vreg i.b)
  let x := List.zipWith (f v.mode i.bf) a c
  .ok ({ b with nans := b.nans + nanLanes g [a, c] x }, (r.setV i.d g x).next)

def semVfma (i : GForm) : Sem := fun v _ b r =>
  let g := r.gate i.pred i.pnot
  let a := nats (r.vreg i.a)
  let c := nats (r.vreg i.b)
  let d := nats (r.vreg i.c)
  let x := List.zipWith (fun (p : Nat × Nat) z => vFma v.mode i.bf p.1 p.2 z) (List.zip a c) d
  .ok ({ b with nans := b.nans + nanLanes g [a, c, d] x }, (r.setV i.d g x).next)

/-- A lanewise comparison into P[D mod 8]. -/
def semCmp (f : NMode → Nat → Nat → Bool) (i : GForm) : Sem := fun v _ b r =>
  let g := r.gate i.pred i.pnot
  let x := List.zipWith (f v.mode) (nats (r.vreg i.a)) (nats (r.vreg i.b))
  .ok (b, (r.setP i.d (List.zipWith (fun (e : Bool) (p : Bool × Bool) => if e then p.1 else p.2) g (List.zip x (r.preg i.d)))).next)

/-- Bits moved; with BF rounded to bfloat16 (R260, R274). -/
def moved (m : NMode) (bf : Bool) (x : Nat) : Nat := if bf then narrow 1 (flushed m x) * 65536 else x

def semVsel (i : GForm) : Sem := fun v _ b r =>
  let x := List.zipWith (fun (e : Bool) (p : Word × Word) => moved v.mode i.bf (if e then p.1 else p.2).toNat) (r.preg i.c) (List.zip (r.vreg i.a) (r.vreg i.b))
  .ok (b, (r.setV i.d (r.gate i.pred i.pnot) x).next)
def semVmov (i : GForm) : Sem := fun v _ b r =>
  .ok (b, (r.setV i.d (r.gate i.pred i.pnot) ((nats (r.vreg i.a)).map (moved v.mode i.bf))).next)

/-- VSR, counting the enabled lanes that reach infinity (R268). -/
def semVsr (i : GForm) : Sem := fun v _ b r =>
  let g := r.gate i.pred i.pnot
  let q := List.zipWith (fun (x u : Word) => vSr v.mode x.toNat (u.toNat % 65536)) (r.vreg i.a) (r.vreg i.b)
  let grown := ((List.zip g q).filter (fun p => p.1 && p.2.2)).length
  .ok ({ b with srOver := b.srOver + grown }, (r.setV i.d g (q.map Prod.fst)).next)

/-- VQF; a stream that holds no form has FORM_PARAM 0, and a form without a code of a single element gives a free one (log entry 27, DESIGN CHOICE). A NaN derivative of an enabled lane is counted (R40, R259). -/
def semVqf (i : IForm) : Sem := fun v _ b r =>
  let form := i.imm % 256
  let g := r.gate i.pred i.pnot
  let a := nats (r.vreg i.a)
  let x := a.map (fun x => if 0x10 ≤ form then ((Config.formlessCode form (BitVec.ofNat 32 x)).toNat, false) else formCode v.mode form 0 x)
  let bad := (List.zip g (List.zip a x)).filter (fun p => p.1 && p.2.2.2)
  .ok ({ b with nanForms := b.nanForms + bad.length, nans := b.nans + (bad.filter (fun p => !isNan32 p.2.1)).length }, (r.setV i.d g (x.map Prod.fst)).next)

def active (g : List Bool) (a : List Nat) : List (Option Nat) := List.zipWith (fun (e : Bool) x => if e then some x else none) g a

def semVrsum (i : GForm) : Sem := fun v _ b r =>
  let g := r.gate i.pred i.pnot
  let a := nats (r.vreg i.a)
  let x := vRsum v.mode i.bf (active g a)
  let fresh := isNan32 x && (active g a).all (fun y => match y with | some z => !isNan32 z | none => true)
  .ok ({ b with nans := b.nans + (if fresh then (g.filter id).length else 0) }, (r.setV i.d g (lanes.map (fun _ => x))).next)

def semVrmax (i : GForm) : Sem := fun v _ b r =>
  let g := r.gate i.pred i.pnot
  match (active g (nats (r.vreg i.a))).filterMap id with
  | [] => .ok (b, r.next)
  | x :: xs => .ok (b, (r.setV i.d g (lanes.map (fun _ => xs.foldl (vMax v.mode i.bf) (vMax v.mode i.bf x x)))).next)

/-! ### The accumulator tile (R263) -/

def semMz : Sem := fun _ _ b r => .ok (b, { r with acc := List.replicate 1024 0 }.next)

/-- MMA: one chunk of 32 added to every element of ACC; a term outside either matrix is left out, and one that lies in a matrix and past the end of its port reads −0 and is counted (R258, R263). -/
def semMma (s : State) (i : GForm) : Sem := fun v rd b r =>
  let re := ProgRec.rowElems.get v.prog
  let oc := ProgRec.outCols.get v.prog
  let m := r.sreg i.a
  let k0 := r.sreg i.b
  let n := r.sreg i.c
  let dim := List.range 32
  let kMax := if i.ta then v.rows else re
  let iMax := if i.ta then re else v.rows
  let aIdx := fun (p q : Nat) => if i.ta then (k0 + q) * re + m + p else (m + p) * re + k0 + q
  let wIdx := fun (q j : Nat) => if i.tb then (n + j) * re + k0 + q else (k0 + q) * oc + n + j
  let aPos := dim.flatMap (fun p => dim.filterMap (fun q => if m + p < iMax ∧ k0 + q < kMax then some (32 * p + q, aIdx p q) else none))
  let wPos := dim.flatMap (fun q => dim.filterMap (fun j => if k0 + q < kMax ∧ n + j < oc then some (32 * q + j, wIdx q j) else none))
  match s.portElems rd v 0 (aPos.map Prod.snd) b with
  | .error d => .error d
  | .ok (b, as) =>
    match s.portElems rd v 2 (wPos.map Prod.snd) b with
    | .error d => .error d
    | .ok (b, ws) =>
      let table := fun (pos : List (Nat × Nat)) (xs : List (Option Nat)) =>
        (List.zip pos xs).foldl (fun (t : Array (Option Nat)) x => t.set! x.1.1 (some (x.2.getD negZero))) (Array.replicate 1024 none)
      let am := table aPos as
      let wm := table wPos ws
      let acc := r.acc.toArray
      let res : List (Nat × Bool) := dim.flatMap (fun p => dim.map (fun j =>
        let old := (acc.getD (32 * p + j) 0).toNat
        let terms := dim.map (fun q => match am.getD (32 * p + q) none, wm.getD (32 * q + j) none with
          | some x, some y => some (x, y)
          | _, _ => none)
        let new := mmaSum v.mode old terms
        (new, isNan32 new && !isNan32 old && terms.all (fun t => match t with | some (x, y) => !isNan32 x && !isNan32 y | none => true))))
      let b := b.clip v r ((as ++ ws).filter Option.isNone).length
      .ok ({ b with nans := b.nans + (res.filter Prod.snd).length }, { r with acc := res.map (fun (x : Nat × Bool) => BitVec.ofNat 32 x.1) }.next)

/-- MST: a place whose column lies past OUT_COLS is written nowhere. -/
def semMst (i : GForm) : Sem := fun v _ b r =>
  let oc := ProgRec.outCols.get v.prog
  let es := (List.range 1024).filterMap (fun q =>
    let j := r.sreg i.b + q % 32
    if j < oc then some ((r.sreg i.a + q / 32) * oc + j, nth r.acc q 0) else none)
  let p := r.putOut v (es.map (fun e => (e.1, v.outBits e.1 e.2.toNat)))
  .ok (b.clip v r (p.2 + (1024 - es.length)), p.1.next)

/-! ### The opcode table (R254, R255) -/

def gFields (w : Nat) : GForm :=
  ⟨InsnWord.pred.get w, InsnWord.pnot.get w == 1, InsnWord.bf.get w == 1, InsnWord.d.get w, InsnWord.a.get w, InsnWord.b.get w,
   InsnWord.c.get w, InsnWord.ta.get w == 1, InsnWord.tb.get w == 1⟩
def iFields (w : Nat) : IForm :=
  ⟨InsnWord.pred.get w, InsnWord.pnot.get w == 1, InsnWord.bf.get w == 1, InsnWord.d.get w, InsnWord.a.get w, InsnWord.b.get w, InsnWord.imm.get w⟩

def boolNat (b : Bool) : Nat := if b then 1 else 0

/-- The word of an instruction in the register form. -/
def gWord (op : Nat) (i : GForm) : Nat :=
  [(InsnWord.op, op), (InsnWord.pred, i.pred), (InsnWord.pnot, boolNat i.pnot), (InsnWord.bf, boolNat i.bf), (InsnWord.d, i.d), (InsnWord.a, i.a),
   (InsnWord.b, i.b), (InsnWord.c, i.c), (InsnWord.ta, boolNat i.ta), (InsnWord.tb, boolNat i.tb)].foldl (fun v p => p.1.set v p.2) 0

/-- The word of an instruction in the immediate form. -/
def iWord (op : Nat) (i : IForm) : Nat :=
  [(InsnWord.op, op), (InsnWord.pred, i.pred), (InsnWord.pnot, boolNat i.pnot), (InsnWord.bf, boolNat i.bf), (InsnWord.d, i.d), (InsnWord.a, i.a),
   (InsnWord.b, i.b), (InsnWord.imm, i.imm)].foldl (fun v p => p.1.set v p.2) 0

/-- Opcodes of the immediate form. -/
def immOps : List Nat := [0x01, 0x02, 0x03, 0x04, 0x08, 0x0A, 0x0C, 0x0E, 0x12, 0x13, 0x14, 0x3A, 0x48]
/-- Opcodes of the register form. -/
def regOps : List Nat := [0x09, 0x0B, 0x0D, 0x10, 0x11, 0x15, 0x18, 0x19, 0x20, 0x21, 0x22, 0x23, 0x24, 0x25, 0x26, 0x27, 0x28, 0x29, 0x2A, 0x2B,
  0x2C, 0x2D, 0x2E, 0x2F, 0x30, 0x31, 0x32, 0x33, 0x34, 0x39, 0x3B, 0x40, 0x41, 0x49, 0x4A]

def vUlt (_ : NMode) (a b : Nat) : Bool := decide (a < b)

/-- What the instruction in a word does. -/
def semOf (s : State) (w : Nat) : Sem :=
  let g := gFields w
  let i := iFields w
  match InsnWord.op.get w with
  | 0x02 => semLoop i
  | 0x03 => semBrz i
  | 0x04 => semBrnz i
  | 0x08 => semSli i
  | 0x09 => semSadd g
  | 0x0A => semSaddi i
  | 0x0B => semSmul g
  | 0x0C => semSshr i
  | 0x0D => semSand g
  | 0x0E => semSldk i
  | 0x10 => semVld s g
  | 0x11 => semVst g
  | 0x12 => semVldd i
  | 0x13 => semVstd i
  | 0x14 => semVbc i
  | 0x15 => semVbcs g
  | 0x18 => semVrand g
  | 0x19 => semCmp vUlt g
  | 0x20 => sem2 vAdd g
  | 0x21 => sem2 vSub g
  | 0x22 => sem2 vMul g
  | 0x23 => semVfma g
  | 0x24 => sem2 vMax g
  | 0x25 => sem2 vMin g
  | 0x26 => sem1 vAbs g
  | 0x27 => sem1 vNeg g
  | 0x28 => sem2 vDiv g
  | 0x29 => sem1 vSqrt g
  | 0x2A => sem1 vRsqrt g
  | 0x2B => sem1 vExp g
  | 0x2C => sem1 vLog g
  | 0x2D => sem1 vTanh g
  | 0x2E => sem1 vErf g
  | 0x2F => sem1 vSigm g
  | 0x30 => semCmp vGt g
  | 0x31 => semCmp vGe g
  | 0x32 => semCmp vEq g
  | 0x33 => semVsel g
  | 0x34 => semVmov g
  | 0x39 => semVsr g
  | 0x3A => semVqf i
  | 0x3B => semVstf g
  | 0x40 => semVrsum g
  | 0x41 => semVrmax g
  | 0x48 => semMz
  | 0x49 => semMma s g
  | 0x4A => semMst g
  | _ => semEnd

/-! ### Units (R251, R252) -/

/-- The units of a program of a kind for an output of `n` elements: how many there are, and for unit `u` the first element or row, the number in S3, and the elements of OUT. -/
def unitCount (prog n : Nat) : Nat :=
  let k := ProgRec.kind.get prog
  if k = Kd.row then ceilDiv n (ProgRec.rowElems.get prog)
  else if k = Kd.matrix then ceilDiv (ceilDiv n (ProgRec.outCols.get prog)) 32
  else ceilDiv n 2048

structure UnitAt where
  first : Nat
  count : Nat
  outLo : Nat
  outN  : Nat

def unitAt (prog n u : Nat) : UnitAt :=
  let k := ProgRec.kind.get prog
  if k = Kd.row then
    let z := ProgRec.rowElems.get prog
    ⟨u * z, z, u * z, min z (n - u * z)⟩
  else if k = Kd.matrix then
    let oc := ProgRec.outCols.get prog
    let rows := min 32 (ceilDiv n oc - 32 * u)
    ⟨32 * u, rows, 32 * u * oc, rows * oc⟩
  else ⟨2048 * u, min 2048 (n - 2048 * u), 2048 * u, min 2048 (n - 2048 * u)⟩

/-- The units that write an element of [lo, hi). -/
def unitsFor (prog lo hi : Nat) : List Nat :=
  let z := let k := ProgRec.kind.get prog
           if k = Kd.row then ProgRec.rowElems.get prog else if k = Kd.matrix then 32 * ProgRec.outCols.get prog else 2048
  if hi ≤ lo ∨ z = 0 then [] else (List.range (ceilDiv hi z - lo / z)).map (· + lo / z)

/-- The registers at the start of an invocation (R252). -/
def startRegs (u : Nat) (a : UnitAt) : Regs :=
  let r := Regs.reset
  { (((r.setS 1 u).setS 2 a.first).setS 3 a.count) with
    p := r.p.set 1 (lanes.map (fun l => decide (l < a.count % 512) || a.count % 512 == 0)) }

/-- An invocation from an instruction on, up to its END (`fuel` bounds the instructions). -/
def runInsns (s : State) (v : Env) (rd : Reader) (code : List Nat) : Nat → Bench → Regs → Except Dmg (Bench × Regs)
  | 0, b, r => .ok (b, r)
  | fuel + 1, b, r =>
    let w := nth code r.pc 0x0100000000000000
    if InsnWord.op.get w = 1 then .ok (b, r) else
    match semOf s w v rd b r with
    | .error d => .error d
    | .ok (b, r) => runInsns s v rd code fuel b r.settle

/-- More instructions than any program can run: 2,048 of them in four loops of 2^64 runs (R257). -/
def runFuel : Nat := 2 ^ 270

/-! ### Sources (R253) -/

/-- Elements of a stored source: its tiles through the Skerry. -/
def State.storedElems (s : State) (n : Nat) (es : List Nat) : Except Dmg (List (Option Nat)) :=
  let et := s.sf n StreamRec.elemType
  let z := elemBytes et
  let total := recElems (s.streamRec n)
  let per := 4096 / z
  match s.readTiles n ((es.filter (· < total)).map (· / per)).eraseDups with
  | .error d => .error d.2
  | .ok m =>
    let arr := m.map (fun e => (e.1, e.2.toArray))
    .ok (es.map (fun e => if e < total then
      let a := SMap.getD arr (e / per) #[]
      some (widen et (leNat ((List.range z).map (fun i => a.getD (z * (e % per) + i) 0)))) else none))

/-- The stream's Philox key (R266). -/
def State.streamPhilox (s : State) (n : Nat) : Nat := (s.contexts.getD (s.sf n StreamRec.context) ⟨0, 0, 0, 0⟩).philox

/-- A source stream, if one is named. -/
def State.sourceOf (s : State) (n : Nat) (f : Fld) : Option Nat := let m := s.sf n f; if m < s.streamCount then some m else none

/-- The environment of one unit of a REGEN stream's program. -/
def State.regenEnv (s : State) (n level u : Nat) (mode : NMode) (weight : Option (Nat × Nat)) : Env :=
  let prog := s.prog (s.sf n StreamRec.program)
  let total := recElems (s.streamRec n)
  let a := unitAt prog total u
  { prog := prog, level := level, mode := mode, unit := u, first := a.first, count := a.count, outLo := a.outLo, outN := a.outN,
    key := s.streamPhilox n, ctr := s.sf n StreamRec.philoxCtr, srcA := s.sourceOf n StreamRec.sourceA, srcB := s.sourceOf n StreamRec.sourceB,
    weight := weight, upd := none
    rows := match s.sourceOf n StreamRec.sourceA with | some m => ceilDiv (recElems (s.streamRec m)) (ProgRec.rowElems.get prog) | none => 0 }

/-- The constants of a program copied to the start of an area (R252, R253). -/
def State.copyConsts (s : State) (v : Env) (b : Bench) : Except Dmg Bench :=
  let a := ProgRec.constAddr.get v.prog
  let n := ProgRec.constBytes.get v.prog
  match s.failing a n with
  | some k => .error (.sector k)
  | none => .ok { b with dbuf := putBytes b.dbuf v.dbufAddr 0 (s.rd a n) }

/-- One unit of a nested program run whole. -/
def State.runUnit (s : State) (rd : Reader) (n level u : Nat) (v : Env) (b : Bench) : Except Dmg (Bench × Regs) :=
  let env := s.regenEnv n level u v.mode v.weight
  let start := if b.started.contains (level, n) then Except.ok b
    else (s.copyConsts env b).map (fun b => { b with started := (level, n) :: b.started })
  match start with
  | .error d => .error d
  | .ok b => runInsns s env rd (s.progCode (s.sf n StreamRec.program)) runFuel b (startRegs u (unitAt env.prog (recElems (s.streamRec n)) u))

/-- What an output element that no instruction wrote holds: a free value of the element's width (log entry 45, DESIGN CHOICE). -/
def State.unwritten (s : State) (n e z : Nat) : Nat := (Config.unwritten (s.aux n).bornStep n e).toNat % 2 ^ (8 * z)

/-- Elements of a REGEN stream made by its program at a nesting level, for the units that cover them; its own sources are read by `rd`. A program that is not VALID gives nothing to read. -/
def State.regenElems (s : State) (rd : Reader) (level : Nat) : Reader := fun v n es b =>
  let p := s.sf n StreamRec.program
  let prog := s.prog p
  let total := recElems (s.streamRec n)
  let inR := es.filter (· < total)
  if !s.progValid p then .ok (b, es.map (fun e => if e < total then some 0 else none)) else
  let units := (inR.flatMap (fun e => unitsFor prog e (e + 1))).eraseDups.mergeSort (· ≤ ·)
  let run := units.foldl (fun (acc : Except Dmg (Bench × SMap Nat)) u =>
    match acc with
    | .error d => .error d
    | .ok (b, m) =>
      match s.runUnit rd n level u v b with
      | .error d => .error d
      | .ok (b, r) => .ok (b, r.out.foldl (fun (m : SMap Nat) e => m.put e.1 e.2) m)) (.ok (b, []))
  let z := elemBytes (ProgRec.outType.get prog)
  run.map (fun bm => (bm.1, es.map (fun e => if e < total then some (widen (ProgRec.outType.get prog) ((bm.2.find e).getD (s.unwritten n e z))) else none)))

/-- Elements of a source read: through its Skerry, or for a REGEN source by a run nested one level deeper, `depth` of them at most (R47, R253). -/
def State.readSource (s : State) : Nat → Reader
  | 0, _, _, es, b => .ok (b, es.map (fun _ => none))
  | depth + 1, v, n, es, b =>
    if s.cls n ≠ Cl.regen then (s.storedElems n es).map (fun x => (b, x))
    else s.regenElems (s.readSource depth) (v.level + 1) v n es b

/-- The reader of an engine's outermost program: sources nest to a depth of 4 (R47). (log entry 45, DESIGN CHOICE.) -/
def State.reader (s : State) : Reader := s.readSource 5

/-- The environment of a built-in program: only its mode and its task's weight port matter to what it reads. -/
def builtInEnv (mode : NMode) (weight : Option (Nat × Nat)) : Env :=
  { prog := 0, level := 0, mode := mode, unit := 0, first := 0, count := 0, outLo := 0, outN := 0, key := 0, ctr := 0,
    srcA := none, srcB := none, weight := weight, rows := 0, upd := none }

/-- What a run counted on an engine (R40, R258, R259, R268): the first clip of a task is reported. -/
def State.noteCounts (s : State) (e task stream : Nat) (seen : Bool) (b : Bench) : State :=
  let s := if b.nans = 0 then s else s.count (Ch.nanResults + 256 * e) 64 b.nans
  let s := if b.nanForms = 0 ∨ stream = noRef then s else s.soundStream stream StreamSnd.nanForms b.nanForms
  let s := if b.srOver = 0 then s else s.countSticky Ch.srOverflows b.srOver
  if b.clips = 0 then s else
  let s := (s.countSticky (Ch.clipped + 256 * e) b.clips).countSticky Ch.clips b.clips
  if seen then s else
  let f := b.firstClip.getD (0, 0)
  let ctx := if task ≠ noRef then some (s.tf task TaskRec.context) else if stream ≠ noRef then some (s.sf stream StreamRec.context) else none
  s.raise ⟨0x0602, e, task + f.2 * 2 ^ 32, f.1, ctx, []⟩

end Sys2Proof.Machine
end

