-- ==== Sys2Proof/Machine/Reduce.lean ====
section
/-! DEFINITION. The built-in programs that reduce a tensor to a DERIV or PROJ stream (R269 to R272), and recompute on detect (R58, R219). -/

namespace Sys2Proof.Machine

/-- The numeric mode of an engine (R245). -/
def State.engineMode (s : State) (e : Nat) : NMode := if s.ch (Ch.numericMode + 256 * e) = 1 then .g2 else .native

/-- How a reduction reads its input's elements, beside what its task keeps on the engine. -/
abbrev Input := List Nat → Bench → Except Dmg (Bench × List (Option Nat))

/-- The weight port of a task: its shard's slot at the version it pins (R94, R253). -/
def State.taskWeight (s : State) (x : TaskRef) : Option (Nat × Nat) :=
  (s.pinned x).map (fun p => (s.slotBase p.1 p.2, s.shf p.1 ShardRec.slotBytes))

/-- The input of a reduction in stored mode: SOURCE_A as the outermost program reads it. -/
def State.storedInput (s : State) (x : TaskRef) (n : Nat) (mode : NMode) : Input := fun es b =>
  s.reader (builtInEnv mode (s.taskWeight x)) (s.sf n StreamRec.sourceA) es b

/-- The input of a reduction in ingest mode: the tiles of the tensor taken from ring 0. -/
def State.takenInput (s : State) (n : Nat) : Input := fun es b =>
  let et := s.sf n StreamRec.elemType
  let z := elemBytes et
  let per := 4096 / z
  let total := recElems (s.streamRec n)
  let m := (s.aux n).taken.map (fun e => (e.1, e.2.toArray))
  .ok (b, es.map (fun e => if e < total then
    let a := SMap.getD m (e / per) #[]
    some (widen et (leNat ((List.range z).map (fun i => a.getD (z * (e % per) + i) 0)))) else none))

/-- Codes packed little-end first (R41). -/
def packCodes (bits : Nat) (codes : List Nat) : List Byte :=
  let b := packBits (codes.flatMap (lsbBits bits))
  b ++ List.replicate (4096 - b.length) 0

/-- The codes `lo` to `lo + k - 1` of a form; a NaN derivative is counted, and among the NaN results where the element is none (R38, R40, R259, R270). -/
def formCodes (mode : NMode) (form param total lo k : Nat) (inp : Input) (b : Bench) : Except Dmg (Bench × List Nat) :=
  if form = 0x10 then
    let ws := (List.range k).map (fun i => ((List.range param).map (· + (lo + i) * param)).filter (· < total))
    match inp ws.flatten b with
    | .error d => .error d
    | .ok (b, xs) =>
      .ok (b, (ws.foldl (fun (a : List (Option Nat) × List Nat) w => (a.1.drop w.length, a.2 ++ [maxPool mode ((a.1.take w.length).map (fun x => x.getD 0))])) (xs, [])).2)
  else match inp ((List.range k).map (· + lo)) b with
    | .error d => .error d
    | .ok (b, xs) =>
      let ys := xs.map (fun x => x.getD negZero)
      let cs := ys.map (formCode mode form param)
      let bad := (List.zip ys cs).filter (fun p => p.2.2)
      .ok ({ b with nanForms := b.nanForms + bad.length, nans := b.nans + (bad.filter (fun p => !isNan32 p.1)).length }, cs.map Prod.fst)

/-- The codes of tile `t` of a DERIV stream: the first and their number. -/
def derivCodes (rec_ t : Nat) : Nat × Nat :=
  let bits := formBits (StreamRec.form.get rec_)
  let per := if bits = 0 then 0 else 32768 / bits
  (per * t, min per (recCodes rec_ - per * t))

/-- The tile `t` of a DERIV stream's packed form (R270). -/
def State.derivTile (s : State) (n t : Nat) (mode : NMode) (inp : Input) (b : Bench) : Except Dmg (Bench × List Byte) :=
  let rec_ := s.streamRec n
  let form := StreamRec.form.get rec_
  let c := derivCodes rec_ t
  (formCodes mode form (StreamRec.formParam.get rec_) (recElems rec_) c.1 c.2 inp b).map (fun r => (r.1, packCodes (formBits form) r.2))

/-- One element of P = X A: ceil(K ÷ 32) chunks in ascending k, rounded to bfloat16; whether it is a NaN that no operand is (R259, R272). -/
def projElem (mode : NMode) (xs as : List Nat) : Nat × Bool :=
  let r := (chunks 32 (List.zip xs as)).foldl (fun acc c => mmaSum mode acc (c.map some)) 0
  (narrow 1 r, isNan32 r && !(xs.any isNan32) && !(as.any isNan32))

/-- The rows of X that tile `t` of a PROJ stream comes from: the first, their number, and the elements of the tile. -/
def projRows (rec_ t : Nat) : Nat × Nat × Nat :=
  let r := StreamRec.rank.get rec_
  let lo := 2048 * t
  let cnt := min 2048 (recStoredBytes Cl.proj rec_ / 2 - lo)
  (lo / r, (lo + cnt - 1) / r + 1 - lo / r, cnt)

/-- The tile `t` of a PROJ stream, with A at address `w` (R272). -/
def State.projTile (s : State) (n t w : Nat) (mode : NMode) (inp : Input) (b : Bench) : Except Dmg (Bench × List Byte) :=
  let rec_ := s.streamRec n
  let k := StreamRec.formParam.get rec_
  let r := StreamRec.rank.get rec_
  let lo := 2048 * t
  let (row0, rows, cnt) := projRows rec_ t
  if cnt = 0 then .ok (b, List.replicate 4096 0) else
  match s.failing w (2 * k * r) with
  | some sec => .error (.sector sec)
  | none =>
    let a := ((chunksOf 2 (k * r) (s.rd w (2 * k * r))).map (fun b => leNat b * 65536)).toArray
    match inp ((List.range (rows * k)).map (· + row0 * k)) b with
    | .error d => .error d
    | .ok (b, xs) =>
      let xa := (xs.map (fun x => x.getD negZero)).toArray
      let vals := (List.range cnt).map (fun i =>
        let q := lo + i
        projElem mode ((List.range k).map (fun j => xa.getD ((q / r - row0) * k + j) 0)) ((List.range k).map (fun j => a.getD (j * r + q % r) 0)))
      let bs := vals.flatMap (fun v => leBytes 2 v.1)
      .ok ({ b with nans := b.nans + (vals.filter Prod.snd).length }, bs ++ List.replicate (4096 - bs.length) 0)

/-- The slot of A for the REDUCE `x` (R94, R272). -/
def State.reduceWeight (s : State) (x : TaskRef) : Nat :=
  match s.pinned x with
  | some (k, v) => s.slotBase k v
  | none => 0

/-- One tile of a reduced stream. -/
def State.reduceTile (s : State) (x : TaskRef) (n t : Nat) (mode : NMode) (inp : Input) (b : Bench) : Except Dmg (Bench × List Byte) :=
  if s.cls n = Cl.proj then s.projTile n t (s.reduceWeight x) mode inp b else s.derivTile n t mode inp b

/-- The tiles of the tensor that tile `t` of a reduced stream is made of: the first, and the one after the last. -/
def State.reduceNeeds (s : State) (n t : Nat) : Nat × Nat :=
  let rec_ := s.streamRec n
  let z := elemBytes (StreamRec.elemType.get rec_)
  let k := StreamRec.formParam.get rec_
  let (lo, hi) := if s.cls n = Cl.proj then
      let p := projRows rec_ t
      (p.1 * k, (p.1 + p.2.1) * k)
    else
      let c := derivCodes rec_ t
      let w := if StreamRec.form.get rec_ = 0x10 then k else 1
      (c.1 * w, min (recElems rec_) ((c.1 + c.2) * w))
  (lo * z / 4096, ceilDiv (hi * z) 4096)

/-! ### Recompute on detect (R58, R219) -/

/-- The stream has a recompute route, and its region's policy is RECOMPUTE. -/
def State.recomputes (s : State) (n : Nat) : Bool :=
  let src := s.sf n StreamRec.sourceA
  s.ch (Ch.detectPolicy + 256 * s.sf n StreamRec.region) == 1
  && (s.cls n == Cl.deriv || s.cls n == Cl.proj) && decide (src < s.streamCount)
  && (s.stateOf src == Ss.held || s.stateOf src == Ss.serving)

/-- The tile made again from its source, on engine 2h + DIE. -/
def State.recomputeTile (s : State) (n t : Nat) : Option (List Byte) :=
  let mode := s.engineMode (2 * (t % 20) + s.sf n StreamRec.die)
  match s.producer n with
  | none => none
  | some p =>
    let x : TaskRef := ⟨(s.aux n).bornStep - 1, p⟩
    match s.reduceTile x n t mode (s.storedInput x n mode) Bench.empty with
    | .ok r => some r.2
    | .error _ => none

def State.entry (s : State) (n t : Nat) : Nat := s.rdNat (s.entryAddr n t) 8

/-- The block made again with the generation its entry names, if it has the entry's MODE and LEN. -/
def State.recomputeBlock (s : State) (n t : Nat) : Option (List Byte × List Byte) :=
  if (s.failing (s.entryAddr n t) 8).isSome then none else
  let e := s.entry n t
  match s.recomputeTile n t with
  | none => none
  | some tile =>
    let g := s.genSlot (IndexEnt.tableGen.get e)
    let c := codeTile (s.streamKind n) (g.map (fun g => (g.gen, g.lengths))) tile
    if c.mode = IndexEnt.mode.get e ∧ c.len = IndexEnt.lenM1.get e + 1 then some (tile, blockBytes (s.streamKey n) n t c) else none

/-- The blocks of the stream that lie in bytes `lo` to `hi - 1` of a segment: tile, first byte, end. -/
def State.blocksIn (s : State) (n h lo hi : Nat) : List (Nat × Nat × Nat) :=
  ((List.range (ceilDiv (s.tiles n) 20)).map (fun j => 20 * j + h)).filterMap (fun t =>
    if s.tiles n ≤ t then none else
    let e := s.entry n t
    let a := s.segment n h + 32 * IndexEnt.offset.get e
    let b := a + 32 * (IndexEnt.lenM1.get e + 1)
    if IndexEnt.valid.get e = 1 ∧ a < hi ∧ lo < b then some (t, a, b) else none)

/-- A damaged block rewritten in place, each sector whole; nothing where a neighbour or a foreign byte forbids it (R219). A staging slot holds the one block, and its sectors are filled up with zero bytes (R176; log entry 96, DESIGN CHOICE). -/
def State.rewriteBlock (s : State) (n t : Nat) : Option (State × List Byte) :=
  match s.recomputeBlock n t with
  | none => none
  | some (tile, bytes) =>
    match s.stagedAt n t with
    | some k => some (s.store (s.slotAddr k) (bytes ++ List.replicate (roundUp bytes.length 256 - bytes.length) 0), tile)
    | none =>
    let a := s.segment n (t % 20) + 32 * IndexEnt.offset.get (s.entry n t)
    let lo := a / 256 * 256
    let hi := roundUp (a + bytes.length) 256
    let parts := (s.blocksIn n (t % 20) lo hi).map (fun b =>
      if b.1 = t then some (a, bytes) else (s.recomputeBlock n b.1).map (fun r => (b.2.1, r.2)))
    if parts.any Option.isNone then none else
    let ps := parts.filterMap id
    let at_ := fun i => (ps.find? (fun p => decide (p.1 ≤ i ∧ i < p.1 + p.2.length))).map (fun p => nth p.2 (i - p.1) 0)
    let img := (List.range (hi - lo)).map (fun i => at_ (lo + i))
    if img.any Option.isNone then none else some (s.store lo (img.filterMap id), tile)

/-- The stored bytes of a block at a granule of its segment: in its staging slot, on the Reef, or in the Harbour; none where they cannot be read. -/
def State.storedBytes (s : State) (n t offset len : Nat) : Option (List Byte) :=
  let a := s.blockAddr n t offset
  if (s.residence n = Rs.reef ∨ s.residence n = Rs.toHarbour) ∧ (s.stagedAt n t).isNone then
    if reefPartner a ≠ 0 then none else match (s.reefRead a len true).2 with | .ok bs => some bs | .error _ => none
  else some (s.rd a len)

/-- The index entry whose block equals the stored bytes: ZERO and RAW first, then each resident generation in ascending number (R219). -/
def State.matchEntry (s : State) (n t offset : Nat) : Option Nat :=
  match s.recomputeTile n t with
  | none => none
  | some tile =>
    let kind := s.streamKind n
    let gens := ((s.skerry.gens.filter (fun g => (g.state == 2 || g.state == 3) && g.kind == kind)).map (fun g => (g.gen, g.lengths))).mergeSort (fun a b => a.1 ≤ b.1)
    let cands := codeTile kind none tile :: gens.map (fun g => codeTile kind (some g) tile)
    (cands.find? (fun c => decide (some (blockBytes (s.streamKey n) n t c) = s.storedBytes n t offset (32 * c.len)))).map (fun c =>
      [(IndexEnt.tableGen, c.gen), (IndexEnt.mode, c.mode), (IndexEnt.valid, 1), (IndexEnt.lenM1, c.len - 1), (IndexEnt.offset, offset)].foldl (fun v p => p.1.set v p.2) 0)

/-- A damaged sector of the index table made again: its entries' offsets chained from 20 tiles before (R186, R219). -/
def State.rebuildIndex (s : State) (n sec : Nat) : Option State :=
  let t0 := (256 * sec - s.sf n StreamRec.indexBase) / 8
  let build := (List.range 32).foldl (fun (m : Option (SMap Nat)) i =>
    match m with
    | none => none
    | some m =>
      let t := t0 + i
      if s.tiles n ≤ t then some m else
      let before : Option Nat := if t < 20 then some 0
        else
          let e := if t0 + 20 ≤ t then m.find (t - 20) else if (s.failing (s.entryAddr n (t - 20)) 8).isSome then none else some (s.entry n (t - 20))
          e.map (fun e => IndexEnt.offset.get e + IndexEnt.lenM1.get e + 1)
      match before with
      | none => none
      | some o => (s.matchEntry n t o).map (fun e => m.put t e)) (some [])
  build.map (fun m => s.store (256 * sec) ((List.range 32).flatMap (fun i => leBytes 8 (m.getD (t0 + i) 0))))

/-- The failing sector lies in the stream's index table. -/
def State.indexSector (s : State) (n sec : Nat) : Bool :=
  hasIndex (s.cls n) && decide (s.sf n StreamRec.indexBase / 256 ≤ sec ∧ 256 * sec < s.sf n StreamRec.indexBase + 8 * s.tiles n)

/-- A tile read for delivery: damage is reported, recomputed where R58 allows, and faults the stream otherwise; the answer is the tile or the status the reader ends with (R216, R218, R219). `fuel` bounds the failures repaired. -/
def State.fetchWith : Nat → State → Nat → Nat → State × Except Nat (List Byte)
  | 0, s, n, _ => (s.faultStream n St.detected, .error St.detected)
  | fuel + 1, s, n, t =>
    match s.readStored n t with
    | .ok b => (s, .ok b)
    | .error d =>
      let s := s.reportDamage n t d
      let ctx := some (s.sf n StreamRec.context)
      let lost := (s.faultStream n d.status, Except.error d.status)
      if !s.recomputes n then lost else
      let done := fun (s : State) => s.raise ⟨0x0302, n, t, s.sf n StreamRec.region, ctx, []⟩
      match d with
      | .sector k =>
        if s.indexSector n k then
          match s.rebuildIndex n k with
          | some s => State.fetchWith fuel (done s) n t
          | none => lost
        else match s.rewriteBlock n t with
          | some (s, tile) => (done s, .ok tile)
          | none => lost
      | .block _ _ =>
        match s.rewriteBlock n t with
        | some (s, tile) => (done s, .ok tile)
        | none => lost

def State.fetchTile (s : State) (n t : Nat) : State × Except Nat (List Byte) := s.fetchWith 3 n t

end Sys2Proof.Machine
end

