-- ==== Sys2Proof/Machine/Tables.lean ====
section
/-! DEFINITION. Generation slots (R203 to R206), prefix tables and codebook records loaded, built and held (R200 to R208, R231 to R235), first passes. -/

namespace Sys2Proof.Machine

/-! ### Reads of a command that has no channel (R139, R484) -/

/-- A page fault or a bus error of a command without a channel, reported (R476). -/
def State.memFault (s : State) (d : Dispatched) (m : MemResult) : State :=
  s.raise ⟨0x0402, noRef, evAddr m.addr m.status, cmdGet d.word Cmd.sequence, some (s.cmdContext d), [d.queue]⟩

/-- The command goes no further because `n` bytes at `a` cannot be read: it waits while their region is FILLING (R217), and ends where the read fails; nothing where they can be read. -/
def State.readEnds (s : State) (d : Dispatched) (m : MemResult) (a n : Nat) : Option State :=
  if s.filling a n then some s
  else if m ≠ .ok then some ((s.memFault d m).failCmd d m.status)
  else match s.failing a n with
    | some k => some ((s.sectorFound k (some (s.cmdContext d))).failCmd d St.detected)
    | none => none

/-! ### Generation slots -/

def State.setGen (s : State) (k : Nat) (g : GenSlot) : State := s.setGens (s.skerry.gens.set k g)

/-- The current generation of a scope: of a stream, or the DEFAULT of a kind. -/
def State.currentGen (s : State) (scope kind stream : Nat) : Option Nat :=
  (List.range 4).find? (fun k => let g := nth s.skerry.gens k GenSlot.reset
    g.state == 2 && g.scope == scope && (if scope = 0 then g.stream == stream else g.kind == kind))

/-- The slot of the DEFAULT that a new one replaces, when nothing refers to it (R205). -/
def State.replacedSlot (s : State) (scope kind : Nat) : Option Nat :=
  if scope = 1 then (s.currentGen 1 kind 0).filter (fun k => s.genRefs (nth s.skerry.gens k GenSlot.reset) == 0) else none

/-- A slot that can be taken: that of the DEFAULT to be replaced, or a FREE one (R205). -/
def State.slotFor (s : State) (scope kind : Nat) : Option Nat :=
  match s.replacedSlot scope kind with
  | some k => some k
  | none => (List.range 4).find? (fun k => (nth s.skerry.gens k GenSlot.reset).state == 0)

/-- The number after the last one issued, skipping 0 and those resident (R203). -/
def State.nextGen (s : State) : Nat :=
  ((List.range 255).map (fun i => (s.skerry.lastGen + i) % 255 + 1)).find? (fun g => !s.skerry.gens.any (fun x => x.state != 0 && x.gen == g)) |>.getD 1

/-- A slot enters BUILDING with a new number. -/
def State.takeSlot (s : State) (k kind scope stream ctx : Nat) : State :=
  let g := s.nextGen
  let s := s.setGen k ⟨g, 1, kind, scope, if scope = 0 then stream else noRef, ctx, []⟩
  { s with skerry := { s.skerry with lastGen := g } }

/-- The generation built in a slot is CURRENT; the one it replaces retires (R205). -/
def State.makeCurrent (s : State) (k : Nat) (lens : List Nat) : State :=
  let g := nth s.skerry.gens k GenSlot.reset
  let s := match s.currentGen g.scope g.kind g.stream with
    | some j => s.setGen j { nth s.skerry.gens j GenSlot.reset with state := 3 }
    | none => s
  (s.setGen k { g with state := 2, lengths := lens }).settleGens

/-- The place of a waiter in the order of dispatch: a first pass has that of its TABLE_BUILD (R206). -/
def State.slotOrder (s : State) : SlotWaiter → Nat
  | .cmd tag => tag
  | .pass n => ((s.aux n).pass.bind FirstPass.cmd).getD s.nextTag

/-- What waits for a slot, in dispatch order. -/
def State.waitInOrder (s : State) (w : SlotWaiter) (l : List SlotWaiter) : List SlotWaiter :=
  let before := fun (x : SlotWaiter) => decide (s.slotOrder x ≤ s.slotOrder w)
  l.takeWhile before ++ w :: l.dropWhile before

/-- A command or a first pass waits for a slot, counted and reported (R206). -/
def State.waitSlot (s : State) (w : SlotWaiter) (obj : Nat) (ctx : Nat) : State :=
  let s : State := { s with skerry := { s.skerry with slotWait := s.waitInOrder w s.skerry.slotWait } }
  let s := s.count Ch.tableWaits 32
  s.raise ⟨0x0202, obj, s.ch Ch.tableWaits, 0, some ctx, []⟩

/-! ### Held records (R234) -/

/-- A record becomes the held record of its stream; nothing where its region has no room. -/
def State.holdRecord (s : State) (n : Nat) (bytes : List Byte) : Option State :=
  let rg := s.sf n StreamRec.region
  match s.placeTable rg bytes.length with
  | none => none
  | some a =>
    let old := (s.aux n).heldRec
    let s := (s.take rg a bytes.length).store a bytes
    let s := if old = 0 then s else s.give rg old
    some (s.modAux n (fun x => { x with heldRec := a, recSize := bytes.length }))

/-- The region has no room for a held record. -/
def State.noRoom (s : State) (n size : Nat) : State :=
  s.raise ⟨0x0304, n, size / 32, s.sf n StreamRec.region, some (s.sf n StreamRec.context), []⟩

/-! ### TABLE_LOAD (R207, R234, R235) -/

/-- The table in memory at SOURCE. (log entry 46, DESIGN CHOICE.) -/
def State.sourceTable (s : State) (d : Dispatched) : Except Nat (Nat × Nat × List Nat) :=
  readTable (s.rd (cmdGet d.word CmdTable.source) (cmdGet d.word CmdTable.bytes))

/-- A table that has been read and checked is loaded into slot `k`. -/
def State.loadInto (s : State) (d : Dispatched) (k : Nat) (t : Nat × Nat × List Nat) : State :=
  let s := s.takeSlot k t.1 t.2.1 (cmdGet d.word CmdTable.stream) (s.cmdContext d)
  let s := s.makeCurrent k t.2.2
  s.endCmd d St.success (nth s.skerry.gens k GenSlot.reset).gen

/-- An accepted table command meets the running plan (R109, R208). -/
def State.tableOverlaps (s : State) (d : Dispatched) : State :=
  let n := cmdGet d.word CmdTable.stream
  s.overlapEvent d.queue (s.cmdContext d) (cmdGet d.word Cmd.opcode) (fun m => m == n) (fun _ => false)

/-- TABLE_LOAD with KIND 0: the checks of R207 on the table read, then a slot. -/
def State.tableLoad (s : State) (d : Dispatched) (waits : Bool) : State :=
  let w := d.word
  let n := cmdGet w CmdTable.stream
  let ctx := s.cmdContext d
  match s.sourceTable d with
  | .error c => (s.raise ⟨0x0203, n, c, cmdGet w CmdTable.bytes, some ctx, []⟩).failCmd d St.codecDamage
  | .ok t =>
    if t.2.1 = 1 ∧ n ≠ noRef then s.endCmd d St.badEncoding CmdTable.stream.lo
    else if t.2.1 = 1 ∧ ctx ≠ s.ch Ch.planOwner then s.endCmd d St.notPlanOwner (s.ch Ch.planOwner)
    else if t.2.1 = 0 ∧ (s.streamCount ≤ n) then s.endCmd d St.noObject CmdTable.stream.lo
    else if t.2.1 = 0 ∧ (!hasIndex (s.sf n StreamRec.classF) ∨ s.streamKind n ≠ t.1) then s.endCmd d St.streamState (s.streamDetail n)
    else match (if waits ∧ !s.skerry.slotWait.isEmpty then s.replacedSlot t.2.1 t.1 else s.slotFor t.2.1 t.1) with
      | some k => (if waits then s.tableOverlaps d else s).loadInto d k t
      | none => if waits then ((s.tableOverlaps d).setStage d.tag .waiting 0).waitSlot (.cmd d.tag) (if t.2.1 = 0 then n else noRef) ctx else s

/-- A codebook and envelope record fails a check (R235). -/
def State.badRecord (s : State) (n cause : Nat) (ctx : Nat) : State := s.raise ⟨0x0205, n, cause, 0, some ctx, []⟩

/-- TABLE_LOAD with KIND 1: the record is read, checked and held. -/
def State.recordLoad (s : State) (d : Dispatched) : State :=
  let w := d.word
  let n := cmdGet w CmdTable.stream
  let bytes := s.rd (cmdGet w CmdTable.source) (cmdGet w CmdTable.bytes)
  let bad := fun (c : Nat) => (s.badRecord n c (s.cmdContext d)).failCmd d St.codecDamage
  match readRecord n (s.sf n StreamRec.lossyCb) (s.sf n StreamRec.lossyEnv) (s.sf n StreamRec.elemType) bytes with
  | .error c => bad (c - 1)
  | .ok _ =>
    if FrRecHdr.recordBytes.get (leNat (bytes.take 64)) ≠ bytes.length then bad 0
    else let s := s.tableOverlaps d
      match s.holdRecord n bytes with
      | some s => s.endCmd d St.success 0
      | none => (s.noRoom n bytes.length).failCmd d St.capacity

/-- TABLE_LOAD (R207, R234). -/
def execTableLoad (c : Nat) (m : MemResult) (s : State) : Host.Outcome State Fault Refusal :=
  match s.cmd c Op.tableLoad with
  | none => .next s
  | some d =>
    if d.stage ≠ .ready then .next s
    else if cmdGet d.word CmdTable.bytes = 0 then .next (s.endCmd d St.success 0)
    else match s.readEnds d m (cmdGet d.word CmdTable.source) (cmdGet d.word CmdTable.bytes) with
      | some s => .next s
      | none => .next (if cmdGet d.word CmdTable.kind = 0 then s.tableLoad d true else s.recordLoad d)

/-! ### TABLE_BUILD (R201, R202, R233, R234) -/

/-- The sample tiles of a build command. -/
def State.sampleTiles (s : State) (w : Nat) : List (List Byte) :=
  (List.range (cmdGet w CmdTable.bytes)).map (fun i => s.rd (cmdGet w CmdTable.samples + 4096 * i) 4096)

/-- The serialised table or the record written at COPY, if it is not 0. -/
def State.writeCopy (s : State) (copy : Nat) (bytes : List Byte) : State := if copy = 0 then s else s.store copy bytes

/-- A table built from samples in memory, into slot `k`. -/
def State.buildInto (s : State) (d : Dispatched) (k : Nat) : State :=
  let n := cmdGet d.word CmdTable.stream
  let kind := s.streamKind n
  let lens := buildTable kind (s.sampleTiles d.word)
  let s := (s.takeSlot k kind 0 n (s.cmdContext d)).makeCurrent k lens
  let s := s.writeCopy (cmdGet d.word CmdTable.source) (serialTable kind 0 lens)
  s.endCmd d St.success (nth s.skerry.gens k GenSlot.reset).gen

/-- A pass armed for a stream replaces the earlier one, whose command ends FLUSHED (R202). A record's first pass that runs goes on without a command, since no tile of its stream can be coded without the record, and the new one takes its place when it has ended (log entry 84, DEDUCED). -/
def State.armPass (s : State) (d : Dispatched) : State :=
  let n := cmdGet d.word CmdTable.stream
  let old := s.passCmds n
  let goesOn := (s.aux n).pass.any (fun p => p.active && p.kind == 1)
  let s := if goesOn then s.modAux n (fun a => { a with pass := a.pass.map (fun p => { p with cmd := none }), armed := none }) else (s.dropPass n).dropPass n
  let s := old.foldl (fun (s : State) e => s.endCmd e St.flushed 0) s
  let s := s.setStage d.tag .underway 0
  let new : FirstPass := ⟨some d.tag, cmdGet d.word CmdTable.kind, cmdGet d.word CmdTable.bytes, cmdGet d.word CmdTable.source, false, none, [], 0, 0⟩
  s.modAux n (fun a => if goesOn then { a with armed := some new } else { a with pass := some new })

/-- The record built from tiles for stream `n` with the build entries' GROUP and PERIOD. -/
def State.recordFor (s : State) (n grp period : Nat) (tiles : List (List Byte)) : List Byte :=
  buildRecord n (s.sf n StreamRec.lossyCb) (s.sf n StreamRec.lossyEnv) (s.sf n StreamRec.elemType) grp period tiles.length tiles

/-- The check of R231 and R232 that a record built for a stream breaks (R235). -/
def State.recordBreaks (s : State) (n : Nat) (bytes : List Byte) : Option Nat :=
  match readRecord n (s.sf n StreamRec.lossyCb) (s.sf n StreamRec.lossyEnv) (s.sf n StreamRec.elemType) bytes with
  | .error c => some (c - 1)
  | .ok _ => none

/-- TABLE_BUILD (R201, R202, R233, R234). -/
def execTableBuild (c : Nat) (m : MemResult) (s : State) : Host.Outcome State Fault Refusal :=
  match s.cmd c Op.tableBuild with
  | none => .next s
  | some d =>
    let w := d.word
    let n := cmdGet w CmdTable.stream
    if d.stage ≠ .ready then .next s
    else if cmdGet w CmdTable.samples = 0 then .next (s.armPass d)
    else match s.readEnds d m (cmdGet w CmdTable.samples) (4096 * cmdGet w CmdTable.bytes) with
      | some s => .next s
      | none =>
        if cmdGet w CmdTable.kind = 0 then
          match (if s.skerry.slotWait.isEmpty then s.slotFor 0 (s.streamKind n) else none) with
          | some k => .next (s.buildInto d k)
          | none => .next ((s.setStage c .waiting 0).waitSlot (.cmd c) n (s.cmdContext d))
        else
          let r := s.recordFor n (s.ch Ch.frGroup) (s.ch Ch.frPeriod) (s.sampleTiles w)
          match s.recordBreaks n r with
          | some c => .next ((s.badRecord n c (s.cmdContext d)).failCmd d St.codecDamage)
          | none => match s.holdRecord n r with
            | some s => .next ((s.writeCopy (cmdGet w CmdTable.source) r).endCmd d St.success 0)
            | none => .next ((s.noRoom n r.length).failCmd d St.capacity)

/-- TABLE_SLOT_GRANT: the oldest that waits takes a slot that can be taken; a command then goes on, a first pass builds in it (R206). -/
def execTableSlotGrant (s : State) : Host.Outcome State Fault Refusal :=
  match s.skerry.slotWait with
  | [] => .next s
  | .pass n :: rest =>
    match s.slotFor 0 (s.streamKind n) with
    | none => .next s
    | some k =>
      let s : State := { s with skerry := { s.skerry with slotWait := rest } }
      .next ((s.takeSlot k (s.streamKind n) 0 n (s.sf n StreamRec.context)).modAux n (fun a => { a with pass := a.pass.map (fun p => { p with slot := some k }) }))
  | .cmd tag :: rest =>
    let s' : State := { s with skerry := { s.skerry with slotWait := rest } }
    match s.dispatched.find? (fun d => d.tag == tag) with
    | none => .next s'
    | some d =>
      if cmdGet d.word Cmd.opcode = Op.tableBuild then
        match s.slotFor 0 (s.streamKind (cmdGet d.word CmdTable.stream)) with
        | none => .next s
        | some k => .next (s'.buildInto d k)
      else match s.sourceTable d with
        | .error _ => .next (s'.tableLoad d false)
        | .ok t => if (s.slotFor t.2.1 t.1).isNone then .next s else .next (s'.tableLoad d false)

/-! ### First passes -/

/-- The tiles of a stream that a KIND 1 pass holds as plaintext in their Skerries. -/
def State.heldTiles (s : State) (n : Nat) : List (List Byte) :=
  (((s.skerry.ingest.filter (fun i => i.stream == n)).map (fun i => (i.tile, i.data))).mergeSort (fun a b => a.1 ≤ b.1)).map Prod.snd

/-- A pass begins, with the build entries as they stand at the entry into FILLING, which fix the size of the record (R226, R237; log entry 92, DEDUCED). -/
def State.beginPass (s : State) (n : Nat) (p : FirstPass) : State :=
  s.modAux n (fun a => { a with pass := some { p with active := true, slot := none, tiles := [], group := s.ch Ch.frGroup, period := s.ch Ch.frPeriod } })

/-- A LOSSY stream with no pass of a record: its held record is copied into segment 0, or the automatic first pass begins, and a pass armed for a table stays armed (R234). -/
def State.startRecord (s : State) (n : Nat) : State :=
  let a := s.aux n
  if a.heldRec ≠ 0 then s.store (s.recordAddr n) (s.rd a.heldRec a.recSize)
  else (s.modAux n (fun a => { a with armed := a.pass })).beginPass n ⟨none, 1, s.ch Ch.autoSampleTiles, 0, false, none, [], 0, 0⟩

/-- A stream that enters FILLING starts the pass armed for it, or the automatic one of a LOSSY stream without a held record; a held record is copied into segment 0 (R202, R234). A stream without tiles starts none. -/
def State.startPasses (s : State) (n : Nat) : State :=
  let lossy := s.cls n == Cl.lossy
  if s.tiles n = 0 then s else
  match (s.aux n).pass with
  | some p =>
    if (p.kind == 1) != lossy ∨ (p.kind = 0 ∧ !hasIndex (s.cls n)) then (if lossy then s.startRecord n else s)
    else
      let s := s.beginPass n p
      if p.kind = 1 then s else
      match (if s.skerry.slotWait.isEmpty then s.slotFor 0 (s.streamKind n) else none) with
      | some k => (s.takeSlot k (s.streamKind n) 0 n (s.sf n StreamRec.context)).modAux n (fun a => { a with pass := a.pass.map (fun p => { p with slot := some k }) })
      | none => s.waitSlot (.pass n) n (s.sf n StreamRec.context)
  | none => if lossy then s.startRecord n else s

/-- The command behind a pass ends. -/
def State.passEnds (s : State) (p : FirstPass) (status detail : Nat) : State :=
  match p.cmd.bind (fun t => s.dispatched.find? (fun e => e.tag == t)) with
  | some d => if detailIsEvent status then s.failCmd d status else s.endCmd d status detail
  | none => s

/-- The running task that produces a stream. -/
def State.producing (s : State) (n : Nat) : Option TaskRef :=
  (s.plan.runs.find? (fun r => s.tf r.ref.task TaskRec.stream == n && !r.finished &&
    (let k := s.tf r.ref.task TaskRec.taskKind
     k == Tk.stow || k == Tk.reduce || k == Tk.exchange))).map TaskRun.ref

/-- The tiles that a STOW command, or an IMPORT of a stream, stores: the stream, the first tile and their number. -/
def storeRange (w : Nat) : Option (Nat × Nat × Nat) :=
  if cmdGet w Cmd.opcode = Op.stow then some (cmdGet w CmdStow.stream, cmdGet w CmdStow.tileFirst, cmdGet w CmdStow.tileCount)
  else if cmdGet w Cmd.opcode = Op.importC ∧ cmdGet w CmdExport.objectKind = 0 then some (cmdGet w CmdExport.object, 0, noRef)
  else none

/-- A stream cannot be filled any further: its producing task's group is aborted, or its storing commands end and it is ABORTED. (log entry 82, DEDUCED.) -/
def State.fillStops (s : State) (n status : Nat) : State :=
  match s.producing n with
  | some x => s.abortGroup x status
  | none =>
    let cs := s.dispatched.filter (fun d => d.stage == .underway && (storeRange d.word).any (fun r => r.1 == n))
    (cs.foldl (fun (s : State) d => (s.endWork (.cmd d.tag) status).endCmd d status (s.nextEvent - 1)) s).abortStream n

/-- A first pass of KIND 0 that has its sample makes its generation, in slot `k`, CURRENT; a stream that is FILLING is bound to it (R202, R204). -/
def State.tableMade (s : State) (n : Nat) (p : FirstPass) (k : Nat) : State :=
  let kind := s.streamKind n
  let lens := buildTable kind (p.tiles.vals.take (min p.sample (s.tiles n)))
  let s := s.makeCurrent k lens
  let g := (nth s.skerry.gens k GenSlot.reset).gen
  let filling := s.stateOf n == Ss.filling
  let s := (s.modAux n (fun a => { a with pass := a.armed, armed := none, bound := if filling then g else a.bound })).settleGens
  (s.writeCopy p.copy (serialTable kind 0 lens)).passEnds p St.success g

/-- A first pass of KIND 1 writes the record it builds and holds it (R234); a record that breaks R232 is not held, and its stream cannot be filled (R235; log entry 93, DESIGN CHOICE). -/
def State.recordMade (s : State) (n : Nat) (p : FirstPass) : State :=
  let r := s.recordFor n p.group p.period ((s.heldTiles n).take (min p.sample (s.tiles n)))
  let s := s.modAux n (fun a => { a with pass := a.armed, armed := none })
  match s.recordBreaks n r with
  | some c => ((s.badRecord n c (s.sf n StreamRec.context)).passEnds p St.codecDamage 0).fillStops n St.codecDamage
  | none =>
    let s := (s.store (s.recordAddr n) r).writeCopy p.copy r
    match s.holdRecord n r with
    | some s => s.passEnds p St.success 0
    | none => (s.noRoom n r.length).passEnds p St.capacity 0

/-- FIRST_PASS: enough tiles have been sampled; the generation is CURRENT and bound, or the record is written and held (R202, R204, R234). -/
def execFirstPass (n : Nat) (s : State) : Host.Outcome State Fault Refusal :=
  match (s.aux n).pass with
  | none => .next s
  | some p =>
    if !p.active then .next s
    else if p.kind = 0 then
      match p.slot with
      | none => .next s
      | some k => if p.tiles.length < min p.sample (s.tiles n) ∨ (s.tiles n < p.sample ∧ s.stateOf n = Ss.filling) then .next s else .next (s.tableMade n p k)
    else if ((s.heldTiles n).take (min p.sample (s.tiles n))).length < min p.sample (s.tiles n) then .next s
    else .next (s.recordMade n p)

end Sys2Proof.Machine
end

