-- ==== Sys2Proof/Machine/Cow.lean ====
section
/-! DEFINITION. Digest trees (R356, R357), the copy of a set page by page, and the writes that force a page (R363, R366). -/

namespace Sys2Proof.Machine

/-! ### Digest trees -/

def treeLeaf (page : List Byte) : List Byte := sha256 (0 :: page)

/-- The level above a level. -/
def treeUp : List (List Byte) → List (List Byte)
  | a :: b :: r => sha256 (1 :: (a ++ b)) :: treeUp r
  | l => l

/-- The levels of a tree from its leaves up (`fuel` bounds their number). -/
def treeLevels : Nat → List (List Byte) → List (List (List Byte))
  | 0, l => [l]
  | fuel + 1, l => if l.length ≤ 1 then [l] else l :: treeLevels fuel (treeUp l)

def treeOf (bs : List Byte) : List (List (List Byte)) := treeLevels 64 ((chunksOf 65536 (bs.length / 65536 + 1) bs).map treeLeaf)

def treeRoot (ls : List (List (List Byte))) : List Byte := (ls.getLast?.getD []).headD []

/-- The stored tree (R357). -/
def treeBytes (ls : List (List (List Byte))) : List Byte := ls.flatten.flatten

/-! ### Sets -/

abbrev Sst.empty : Nat := 0
abbrev Sst.taking : Nat := 1
abbrev Sst.complete : Nat := 2
abbrev Sst.broken : Nat := 3
abbrev Sst.restoring : Nat := 4
abbrev Sst.adopting : Nat := 5

def SetAux.fresh : SetAux := ⟨[], [], false, none, [], []⟩
def State.setAt (s : State) (k : Nat) : SetAux := s.sets.getD k SetAux.fresh
def State.modSet (s : State) (k : Nat) (f : SetAux → SetAux) : State := { s with sets := s.sets.put k (f (s.setAt k)) }
def State.setBase (s : State) (k : Nat) : Nat := s.ch Ch.setsBase + 128 * k
def State.stf (s : State) (k : Nat) (f : Fld) : Nat := s.fld (s.setBase k) f
def State.setStf (s : State) (k : Nat) (f : Fld) (v : Nat) : State := s.setFld (s.setBase k) f v

/-- The command behind a set ends. -/
def State.setEnds (s : State) (k status detail : Nat) : State :=
  match (s.setAt k).cmd.bind (fun t => s.dispatched.find? (fun d => d.tag == t)) with
  | some d => (s.modSet k (fun a => { a with cmd := none })).endCmd d status detail
  | none => s.modSet k (fun a => { a with cmd := none })

/-- TAKING becomes BROKEN: protections dropped, the page reported (R363). -/
def State.breakSet (s : State) (k addr status : Nat) : State :=
  if s.stf k SetRec.state ≠ Sst.taking then s else
  let s := (s.setStf k SetRec.state Sst.broken).modSet k (fun a => { a with pages := [], pieces := [], content := [], gens := [] })
  let s := s.raise ⟨0x0702, k, evAddr addr status, 0, some (s.stf k SetRec.context), []⟩
  s.setEnds k status (s.nextEvent - 1)

/-- An adoption fails: EMPTY again, with its event (R363, R370): `cause` 1 root mismatch, 2 read fault. -/
def State.adoptFails (s : State) (k cause : Nat) : State :=
  (s.setStf k SetRec.state Sst.empty).raise ⟨0x0706, k, cause, 0, none, []⟩

/-- The last page is copied: the tree stored, ROOT written, COMPLETE (R363). -/
def State.completeSet (s : State) (k : Nat) : State :=
  let tree := treeOf (s.setAt k).content
  let s := s.store (s.stf k SetRec.treeBase) (treeBytes tree)
  let s := (s.setStf k SetRec.root (leNat (treeRoot tree))).setStf k SetRec.state Sst.complete
  let s := s.modSet k (fun a => { a with content := [], pieces := [] })
  let s := s.raise ⟨0x0701, k, s.stf k SetRec.copyBytes, s.stf k SetRec.itemsAbsent, some (s.stf k SetRec.context), []⟩
  s.setEnds k St.success 0

/-- One page of a copy is written to its destination: the Harbour, the local Reef, or the partner's Reef (R360). A source that fails detection breaks the set (R363). -/
def State.copyPage (s : State) (k page : Nat) : State :=
  match ((s.setAt k).pieces.filterMap (fun x => let r := pieceIn x page; s.failing r.1 r.2)).head? with
  | some sec => (s.sectorFound sec (some (s.stf k SetRec.context))).breakSet k (256 * sec / 65536 * 65536) St.detected
  | none =>
  let bytes := ((s.setAt k).content.drop (65536 * page)).take 65536
  let dest := s.stf k SetRec.destBase + 65536 * page
  let kind := s.stf k SetRec.destKind
  let r : State × Option Nat :=
    if kind = 0 then (s.store dest bytes, none)
    else if kind = 1 then s.reefStore dest bytes
    else (s.sendRun (s.stf k SetRec.partner) Dk.setWrite dest bytes, none)
  match r with
  | (s, some st) => s.breakSet k dest st
  | (s, none) =>
    let s := s.modSet k (fun a => { a with pages := a.pages.filter (· != page) })
    let s := s.count Ch.pagesCopied 64
    if (s.setAt k).pages.isEmpty then s.completeSet k else s

/-- A write of `n` bytes at `a` reaches protected pages: each is copied first and counted (R366). -/
def State.cow (s : State) (a n : Nat) : State :=
  if s.sets.isEmpty then s else
  match s.sets.flatMap (fun e => (e.2.pages.filter (fun q => e.2.pieces.any (fun x => let r := wholePages (pieceIn x q).1 (pieceIn x q).2; r.2 != 0 && overlap a n r.1 r.2))).map (fun q => (e.1, q))) with
  | [] => s
  | ps => ps.foldl (fun (s : State) kp => s.copyPage kp.1 kp.2) (s.countSticky Ch.cowWaits)

/-- Bytes written by a Ferry, a Skerry, an engine, a Quay, a server core or a device. -/
def State.put (s : State) (a : Nat) (bs : List Byte) : State := (s.cow a bs.length).store a bs

/-- Bytes written to the Reef where a set's copy may still be to read them (R366, R377). -/
def State.reefPut (s : State) (a : Nat) (bs : List Byte) : State × Option Nat := (s.cow (reefMark + a) bs.length).reefStore a bs

/-- A sector of which the bytes are only a part fails its check: the merge read fails and the write is not made (R155). -/
def State.mergeFails (s : State) (a n : Nat) : Option Nat :=
  if n = 0 then none else
  (s.checkWords.find? (fun e => decide (a / 256 ≤ e.1 ∧ e.1 ≤ (a + n - 1) / 256) && !decide (a ≤ 256 * e.1 ∧ 256 * e.1 + 256 ≤ a + n))).map Prod.fst

end Sys2Proof.Machine
end

