-- ==== Sys2Proof/Machine/Rings.lean ====
section
/-! DEFINITION. Quay rings: records, indices, buffers, tags and the held pool (R167 to R172). -/

namespace Sys2Proof.Machine

abbrev Ag.matrix : Nat := 1
abbrev Ag.stow : Nat := 2
abbrev Ag.feed : Nat := 3
abbrev Ag.drain : Nat := 4
abbrev Ag.ferry : Nat := 5

def State.ringBase (s : State) (d r : Nat) : Nat := s.ch (Ch.qringBase + 256 * d) + 32 * r
def State.ringCount (s : State) (d : Nat) : Nat := s.ch (Ch.qringCount + 256 * d)
def State.rgf (s : State) (d r : Nat) (f : Fld) : Nat := s.fld (s.ringBase d r) f
def State.setRgf (s : State) (d r : Nat) (f : Fld) (v : Nat) : State := s.setFld (s.ringBase d r) f v

def State.ringOn (s : State) (d r : Nat) : Bool := decide (r < s.ringCount d) && s.rgf d r RingRec.state == 1
def State.rings (s : State) (d : Nat) : List Nat := (List.range (s.ringCount d)).filter (s.ringOn d)

/-- The stage index fields and agents. -/
def idxFld (i : Nat) : Fld := if i = 0 then RingRec.idx0 else if i = 1 then RingRec.idx1 else if i = 2 then RingRec.idx2 else RingRec.idx3
def agentFld (i : Nat) : Fld := if i = 0 then RingRec.agent0 else if i = 1 then RingRec.agent1 else if i = 2 then RingRec.agent2 else RingRec.agent3
def State.idx (s : State) (d r i : Nat) : Nat := s.rgf d r (idxFld i)
def State.stages (s : State) (d r : Nat) : Nat := s.rgf d r RingRec.stages
def State.ringEntries (s : State) (d r : Nat) : Nat := 2 ^ s.rgf d r RingRec.entriesLog2
def State.bufTiles (s : State) (d r : Nat) : Nat := 2 ^ s.rgf d r RingRec.bufTilesLog2

/-- can_take (R170). -/
def State.canTake (s : State) (d r i : Nat) : Bool :=
  if i = 0 then decide ((s.idx d r 0 + 65536 - s.idx d r (s.stages d r - 1)) % 65536 < s.ringEntries d r)
  else s.idx d r i != s.idx d r (i - 1)

/-- Stage `i` passes its handle. -/
def State.passStage (s : State) (d r i : Nat) : State := s.setRgf d r (idxFld i) ((s.idx d r i + 1) % 65536)

def State.quay (s : State) (d : Nat) : Quay := s.quays.getD d Quay.reset
def State.modQuay (s : State) (d : Nat) (f : Quay → Quay) : State := { s with quays := updateAt s.quays d f }

/-- The first tile slot of the buffer of a handle. -/
def State.bufSlot (s : State) (d r i : Nat) : Nat := s.rgf d r RingRec.bufBase + i % s.ringEntries d r * s.bufTiles d r

/-- Bytes put into tile slots from a slot on. -/
def Quay.fill (q : Quay) (slot : Nat) (bs : List Byte) : Quay :=
  { q with slots := (List.zip (List.range bs.length) bs).foldl (fun (m : SMap Byte) ib =>
      let k := 4096 * slot + ib.1
      if ib.2 = 0 then m.erase k else m.put k ib.2) q.slots }

def Quay.tile (q : Quay) (slot : Nat) : List Byte := (List.range 4096).map (fun i => q.slots.getD (4096 * slot + i) 0)

def padTile (bs : List Byte) : List Byte := bs.take 4096 ++ List.replicate (4096 - bs.length) 0

def tagKey (r i : Nat) : Nat := r * 65536 + i
def State.tagOf (s : State) (d r i : Nat) : Option HandleTag := (s.quay d).tags.find (tagKey r i)
def State.setTag (s : State) (d r i : Nat) (t : HandleTag) : State := s.modQuay d (fun q => { q with tags := q.tags.put (tagKey r i) t })

/-- The handles that stage 0 has passed and stage `i` has not, oldest first. -/
def State.unpassed (s : State) (d r i : Nat) : List Nat :=
  (List.range ((s.idx d r 0 + 65536 - s.idx d r i) % 65536)).map (fun k => (s.idx d r i + k) % 65536)

/-- The tiles of the handle's buffer. -/
def State.handleTiles (s : State) (d r i n : Nat) : List (List Byte) :=
  (List.range (min n (s.bufTiles d r))).map (fun k => (s.quay d).tile (s.bufSlot d r i + k))

/-- Tile slots of the die in no enabled ring (R172). -/
def State.inRing (s : State) (d slot : Nat) : Bool :=
  (s.rings d).any (fun r => decide (s.rgf d r RingRec.bufBase ≤ slot ∧ slot < s.rgf d r RingRec.bufBase + s.ringEntries d r * s.bufTiles d r))

def State.heldPool (s : State) (d : Nat) : Nat :=
  16384 - ((s.rings d).map (fun r => s.ringEntries d r * s.bufTiles d r)).foldl (· + ·) 0

/-- A tile copied into the held pool; nothing where no slot is free. -/
def State.holdTile (s : State) (d n t : Nat) (bytes : List Byte) : Option State :=
  let q := s.quay d
  match (List.range 16384).find? (fun k => !s.inRing d k && !(q.held.any (fun e => e.2 == k))) with
  | none => none
  | some k => some (s.modQuay d (fun q => { (q.fill k bytes) with held := q.held.put (n * 2 ^ 20 + t) k }))

end Sys2Proof.Machine
end

