-- ==== Sys2Proof/Machine/Produce.lean ====
section
/-! DEFINITION. Storing streams: the dispatch of STOW and REDUCE tasks (R50, R56, R61 to R65, R84, R173, R269), coding and writing a tile (R183, R198, R224), the end of a block's write (R213) and of a stream's filling (R188). -/

namespace Sys2Proof.Machine

/-! ### What waits for a stream that is complete -/

def storesTile (w n t : Nat) : Bool := (storeRange w).any (fun r => r.1 == n && decide (r.2.1 ≤ t ∧ t < r.2.1 + r.2.2))

/-- The commands under way that store a tile. -/
def State.stowCmds (s : State) (n t : Nat) : List Dispatched := s.dispatched.filter (fun d => d.stage == .underway && storesTile d.word n t)

/-- A storing command has read its last tile, and each of its blocks is written. -/
def State.stowEnded (s : State) (d : Dispatched) : Bool :=
  !(s.ferry.items.any (fun i => i.source == .cmd d.tag))
  && !(s.skerry.ingest.any (fun i => storesTile d.word i.stream i.tile)) && !(s.skerry.blocks.any (fun b => storesTile d.word b.stream b.tile))

/-- Storing commands of a stream that have nothing left to do complete, a STOW with the sum of LEN in DETAIL (R139, R188). -/
def State.settleStows (s : State) (n : Nat) : State :=
  (s.dispatched.filter (fun d => d.stage == .underway && (storeRange d.word).any (fun r => r.1 == n))).foldl
    (fun (s : State) d => if s.stowEnded d then s.endCmd d St.success (if cmdGet d.word Cmd.opcode = Op.stow then d.detail else 0) else s) s

/-- The last tile is stored: the stream is HELD; the producing task is finished with it, or with the last tile of its own range (R50, R76, R188). -/
def State.checkHeld (s : State) (n : Nat) : State :=
  if s.stateOf n ≠ Ss.filling then s else
  let whole : Bool := decide (s.tiles n ≤ (s.aux n).written)
  let s := if whole then s.streamHeld n else s
  match s.producing n with
  | some x => if whole || (s.tf x.task TaskRec.taskKind != Tk.exchange && decide (s.tileCount x.task n ≤ (s.aux n).written)) then s.finishRun x else s
  | none => s

/-- A tile of a stream has been stored: the task or command that stored it may be finished. -/
def State.tileStored (s : State) (n t len : Nat) : State :=
  let s := s.modAux n (fun a => { a with written := a.written + 1 })
  let tags := (s.stowCmds n t).map Dispatched.tag
  let s : State := { s with dispatched := s.dispatched.map (fun d => if tags.contains d.tag then { d with detail := d.detail + len } else d) }
  (s.checkHeld n).settleStows n

/-! ### INGEST (R183, R187, R198, R224, R229) -/

/-- A tile whose turn it is in its Skerry: its stream fills, its segment's earlier tiles are coded, and no first pass holds it (R187, R202, R234). -/
def State.canCode (s : State) (i : IngestTile) : Bool :=
  let h := i.tile % 20
  let a := s.aux i.stream
  s.stateOf i.stream == Ss.filling && s.ch (Ch.sliceState + 256 * h) == 0 && a.coded.getD h 0 == i.tile / 20
  && (match a.pass with
      | none => true
      | some p => !p.active || (p.kind == 0 && decide (i.tile < p.sample)))

/-- The block of a tile: its bytes as written, mode, generation, LEN, and its non-finite and saturated groups. -/
structure Block where
  bytes : List Byte
  mode  : Nat
  gen   : Nat
  len   : Nat
  nonfinite : Nat
  saturated : Nat

def State.codeBlock (s : State) (i : IngestTile) : Option Block :=
  let n := i.stream
  let key := s.streamKey n
  let c := s.cls n
  if c = Cl.lossy then
    match s.recordAt n (s.recordAddr n) with
    | .error _ => none
    | .ok r =>
      let f := codeFixed r (s.rate n) i.tile i.data
      some ⟨xtsEncrypt key (tileTweak n i.tile) f.1, 4, 0, fixedGranules (s.rate n), f.2.1, f.2.2⟩
  else
    let b := if c = Cl.raw then rawBlock i.data else codeTile (s.streamKind n) (s.boundTable n) i.data
    some ⟨blockBytes key n i.tile b, b.mode, b.gen, b.len, 0, 0⟩

/-- Blocks are counted by slice and mode (R209, R237), RAW blocks of coded streams and lossy groups against the stream (R198, R229). -/
def State.countBlock (s : State) (i : IngestTile) (b : Block) : State :=
  let h := 256 * (i.tile % 20)
  let n := i.stream
  let s := if b.mode = 4 then s.count (Ch.blocksFixed + h) 64 else s.count (Ch.blocksCoded + h) 64
  let s := if b.mode = 3 then s.count (Ch.blocksRaw + h) 64 else if b.mode = 1 then s.count (Ch.blocksZero + h) 64 else s
  let s := if b.mode = 3 ∧ hasIndex (s.cls n) then s.soundStream n StreamSnd.rawBlocks else s
  let s := if b.nonfinite = 0 then s else (s.count Ch.groupsNonfinite 64 b.nonfinite).soundStream n StreamSnd.nonfiniteGroups b.nonfinite
  if b.saturated = 0 then s else (s.count Ch.groupsSaturated 64 b.saturated).soundStream n StreamSnd.saturatedGroups b.saturated

/-- The Skerry codes, encrypts, checks and writes the next tile of its queue that may be coded. -/
def State.ingest (s : State) (h : Nat) : State :=
  match s.skerry.ingest.find? (fun i => i.tile % 20 == h && s.canCode i) with
  | none => s
  | some i =>
    match s.codeBlock i with
    | none => s
    | some b =>
      let n := i.stream
      let a := s.aux n
      let off := if b.mode = 4 then b.len * (i.tile / 20) else a.offsets.getD h 0
      let addr := s.segment n h + 32 * off
      let rest := s.skerry.ingest.filter (fun j => !(j.stream == n && j.tile == i.tile))
      let s : State := { s with skerry := { s.skerry with ingest := rest } }
      match s.mergeFails addr b.bytes.length with
      | some k => (s.sectorDetected k n i.tile (some (s.sf n StreamRec.context))).fillStops n St.detected
      | none =>
        let s := (s.put addr b.bytes).countBlock i b
        let pass := a.pass.map (fun (p : FirstPass) => if p.active ∧ p.kind = 0 ∧ i.tile < p.sample then { p with tiles := p.tiles.put i.tile i.data } else p)
        let s := s.modAux n (fun a => { a with
          coded := a.coded.put h (i.tile / 20 + 1), offsets := a.offsets.put h (off + b.len), pass := pass
          gens := if b.gen = 0 ∨ a.gens.contains b.gen then a.gens else b.gen :: a.gens })
        { s with skerry := { s.skerry with blocks := s.skerry.blocks ++ [⟨n, i.tile, b.gen, b.mode, b.len, off⟩] } }

/-- BLOCK_WRITTEN: the entry is written with VALID once the block's write responses have returned (R213), which they do not while the region is FILLING (R217); where its sector fails its check the entry cannot be written, and the stream cannot be filled. -/
def execBlockWritten (n t : Nat) (s : State) : Host.Outcome State Fault Refusal :=
  match s.skerry.blocks.find? (fun b => b.stream == n && b.tile == t) with
  | none => .next s
  | some b =>
    if s.stateOf n = Ss.filling ∧ s.filling (s.segment n (t % 20)) 32 then .next s else
    let s : State := { s with skerry := { s.skerry with blocks := s.skerry.blocks.filter (fun c => !(c.stream == n && c.tile == t)) } }
    if s.stateOf n ≠ Ss.filling then .next (s.settleStows n) else
    let e := [(IndexEnt.tableGen, b.gen), (IndexEnt.mode, b.mode), (IndexEnt.valid, 1), (IndexEnt.lenM1, b.len - 1), (IndexEnt.offset, b.offset)].foldl (fun v p => p.1.set v p.2) 0
    if !hasIndex (s.cls n) then .next (s.tileStored n t b.len) else
    match s.mergeFails (s.entryAddr n t) 8 with
    | some k => .next ((s.sectorDetected k n t (some (s.sf n StreamRec.context))).fillStops n St.detected)
    | none => .next ((s.put (s.entryAddr n t) (leBytes 8 e)).tileStored n t b.len)

/-! ### Tiles that arrive for a stream -/

/-- The last tile of the tensor is filled with zero bytes beyond BYTE_LENGTH (R189). -/
def State.padLast (s : State) (n t : Nat) (data : List Byte) : List Byte :=
  padTile (data.take (s.sf n StreamRec.byteLength - 4096 * t))

/-- The entries of a Skerry's expand queue that hold a tile: an expanded one, or one that a first pass of a record holds as plaintext (R234, R237). -/
def State.entriesHeld (s : State) (h : Nat) : Nat :=
  (s.skerry.queue.filter (fun e => e.tile % 20 == h)).length
  + (s.skerry.ingest.filter (fun i => i.tile % 20 == h && (s.aux i.stream).pass.any (fun p => p.active && p.kind == 1 && decide (i.tile < p.sample)))).length

/-- The largest number of entries a Skerry's queue has held. -/
def State.notePeak (s : State) (h : Nat) : State :=
  if s.ch (Ch.queuePeak + 256 * h) < s.entriesHeld h then s.setCh (Ch.queuePeak + 256 * h) (s.entriesHeld h) else s

/-- Entries of each Skerry that are spoken for: by consumers, and by tiles of a record's first pass (R235, R240). -/
def State.entriesUsed (s : State) : Nat :=
  ((s.skerry.consumers.filter Consumer.granted).map Consumer.entries).foldl (· + ·) 0
  + (s.streams.map (fun e => match e.2.pass with | some p => if p.active ∧ p.kind = 1 then ceilDiv p.sample 20 else 0 | none => 0)).foldl (· + ·) 0

/-- A first pass of a record holds the tile in its Skerry's expand queue (R234). -/
def State.passHolds (s : State) (n t : Nat) : Bool := (s.aux n).pass.any (fun p => p.active && p.kind == 1 && decide (t < p.sample))

/-- The tile's Skerry has room for it: no earlier tile of its stream waits there to be coded; one that a first pass holds needs an entry of the expand queue (R12, R15, R187, R234; log entry 97, DESIGN CHOICE). -/
def State.hasRoom (s : State) (n t : Nat) : Bool :=
  s.stateOf n != Ss.filling || s.sf n StreamRec.place == Pc.quay
  || (if s.passHolds n t then decide (s.entriesUsed ≤ 2048)
      else !(s.skerry.ingest.any (fun i => i.stream == n && i.tile % 20 == t % 20 && !s.passHolds n i.tile)))

/-- A tile arrives to be stored: to its Skerry, or into the held pool of the die (R172); nothing where it cannot be taken yet. -/
def State.takeTile (s : State) (n t : Nat) (data : List Byte) : Option State :=
  let bytes := s.padLast n t data
  if s.stateOf n ≠ Ss.filling ∨ s.tiles n ≤ t then some s
  else if s.sf n StreamRec.place = Pc.quay then
    (s.holdTile (s.sf n StreamRec.die) n t bytes).map (fun s => s.tileStored n t 128)
  else
    let s : State := { s with skerry := { s.skerry with ingest := s.skerry.ingest ++ [⟨n, t, bytes⟩] } }
    some (s.notePeak (t % 20))

/-! ### The start of production (R50, R56, R61 to R65, R84) -/

/-- A producing task meets its stream neither RELEASED nor UNBORN and waits; reported once (R56). -/
def State.reportWait (s : State) (x : TaskRef) (n : Nat) : State :=
  let st := s.stateOf n
  if st = Ss.unborn ∨ st = Ss.released ∨ !s.atHead x ∨ s.plan.waitSeen.contains x then s else
  let s : State := { s with plan := { s.plan with waitSeen := x :: s.plan.waitSeen } }
  s.raise ⟨0x0A01, n, x.task, st, some (s.sf n StreamRec.context), []⟩

/-- The producing task may start: its stream is released and the ledger's credits are paid (R56, R62). -/
def State.mayProduce (x : TaskRef) (n : Nat) (s : State) : Bool :=
  (s.stateOf n == Ss.unborn || s.stateOf n == Ss.released) && s.creditsPaid x.step x.task (s.sf n StreamRec.region)

/-- A task stores the tiles of its range only: those before it count as coded in their Skerries (R71, R187). -/
def State.seedRange (s : State) (n first : Nat) : State :=
  if first = 0 then s else
  s.modAux n (fun a => { a with nextTile := first, coded := (List.range 20).foldl (fun (m : SMap Nat) h => m.put h ((first + 19 - h) / 20)) a.coded })

/-- A stored stream starts to fill; with no tiles it is HELD at once (R45). -/
def State.beginFill (s : State) (x : TaskRef) (n : Nat) : State :=
  match s.startStream n x.step x.task with
  | .waits => s
  | .failed s => s.abortGroup x St.capacity
  | .filling s => ((s.startPasses n).seedRange n (s.tf x.task TaskRec.tileFirst)).checkHeld n

/-- The tile lies in the range of the task that stores it. -/
def State.storesIn (s : State) (t n i : Nat) : Bool :=
  decide (s.tf t TaskRec.tileFirst ≤ i ∧ i < s.tf t TaskRec.tileFirst + s.tileCount t n)

/-- The work of a STOW task (R50, R75, R76). -/
def State.stowWork (x : TaskRef) (n : Nat) (s : State) : State :=
  let c := s.cls n
  let none_ := s.tileCount x.task n == 0
  let born := (s.bornAgain n).modAux n (fun a => { a with bornStep := x.step + 1 })
  if c = Cl.drop then
    let s := born.setSf n StreamRec.state Ss.released
    if none_ then s.finishRun x else s
  else if c = Cl.regen then born.finishRun x
  else
    let s := s.beginFill x n
    if none_ then s.finishRun x else s

/-- STOW_TASK (R173): dispatched without wait edges before its producer. -/
def execStowTask (x : TaskRef) (s : State) : Host.Outcome State Fault Refusal :=
  let n := s.tf x.task TaskRec.stream
  if s.tf x.task TaskRec.taskKind ≠ Tk.stow ∨ s.taskCount ≤ x.task then .next s
  else .next ((s.reportWait x n).dispatch x Tk.stow (State.mayProduce x n) (State.stowWork x n))

/-! ### REDUCE (R269 to R272) -/

/-- The tiles of a source are read and checked, and recomputed where R58 allows; a REGEN source through its own sources. The status of the first that cannot be had. -/
def State.checkSource : Nat → State → Nat → State × Option Nat
  | 0, s, _ => (s, none)
  | fuel + 1, s, n =>
    if s.cls n = Cl.regen then
      (s.sourcesOf n).foldl (fun (acc : State × Option Nat) m => match acc.2 with
        | some _ => acc
        | none => State.checkSource fuel acc.1 m) (s, none)
    else (List.range (s.tiles n)).foldl (fun (acc : State × Option Nat) t => match acc.2 with
      | some _ => acc
      | none => match acc.1.fetchTile n t with
        | (s, .ok _) => (s, none)
        | (s, .error st) => (s, some st)) (s, none)

/-- Every tile of the task's range of the reduced stream, and what the task counted. -/
def State.reduceAll (s : State) (x : TaskRef) (n : Nat) (mode : NMode) (inp : Input) : Except Dmg (Bench × List IngestTile) :=
  let first := s.tf x.task TaskRec.tileFirst
  (List.range (s.tileCount x.task n)).foldl (fun (acc : Except Dmg (Bench × List IngestTile)) t =>
    match acc with
    | .error d => .error d
    | .ok (b, ts) => (s.reduceTile x n (first + t) mode inp b).map (fun r => (r.1, ts ++ [⟨n, first + t, r.2⟩]))) (.ok (Bench.empty, []))

/-- The units of the built-in program (R251). -/
def State.reduceUnits (s : State) (n : Nat) : Nat :=
  if s.cls n = Cl.proj then ceilDiv (ceilDiv (recElems (s.streamRec n)) (s.sf n StreamRec.formParam)) 32 else ceilDiv (recElems (s.streamRec n)) 2048

/-- A REDUCE whose input cannot be read ends, a failing sector with DETECTED. -/
def State.reduceFails (s : State) (x : TaskRef) (n : Nat) (d : Dmg) : State :=
  match d with
  | .sector k => (s.sectorFound k (some (s.sf n StreamRec.context))).abortGroup x St.detected
  | .block _ _ => s.abortGroup x St.codecDamage

/-- Tiles that an engine has derived go to their Skerries. -/
def State.giveTiles (s : State) (ts : List IngestTile) : State :=
  let s : State := { s with skerry := { s.skerry with ingest := s.skerry.ingest ++ ts } }
  (ts.map (fun t => t.tile % 20)).eraseDups.foldl State.notePeak s

/-- A stored-mode REDUCE derives all the tiles of its range. -/
def State.reduceNow (s : State) (x : TaskRef) (n : Nat) (inp : Input) : State :=
  let e := s.execIndex x.task
  match s.reduceAll x n (s.engineMode e) inp with
  | .error d => s.reduceFails x n d
  | .ok (b, ts) => ((s.noteCounts e x.task n false b).count (Ch.invocations + 256 * e) 64 (s.reduceUnits n)).giveTiles ts

/-- The stored-mode REDUCE reads its sources, whose fetch lasts as long as the reading. -/
def State.reduceStored (s : State) (x : TaskRef) (n : Nat) : State :=
  let srcs := s.sourcesOf n
  if srcs.any (fun m => !s.fetchable m) then s.abortGroup x St.streamState else
  let s := srcs.foldl State.fetchStarts s
  let c := srcs.foldl (fun (acc : State × Option Nat) m => match acc.2 with
    | some _ => acc
    | none => acc.1.checkSource 5 m) (s, none)
  match c.2 with
  | some st => (srcs.foldl State.fetchEnds c.1).abortGroup x st
  | none =>
    let s := c.1.reduceNow x n (c.1.storedInput x n (c.1.engineMode (c.1.execIndex x.task)))
    srcs.foldl State.fetchEnds s

/-- The work of a REDUCE task: its stream fills; a form without stored data, or a range without tiles, is complete at once; a stored source is read; otherwise the tensor comes through ring 0. Its engine runs until it is over (R76, R245, R269). -/
def State.reduceWork (x : TaskRef) (n : Nat) (s : State) : State :=
  let s := s.beginFill x n
  if s.stateOf n ≠ Ss.filling then s
  else if s.tileCount x.task n = 0 then s.finishRun x
  else
    let s := s.setCh (Ch.engineState + 256 * s.execIndex x.task) 1
    if s.storedMode n then s.reduceStored x n else s

/-- The tiles of an ingest-mode REDUCE that can be derived from what has been taken are, in order, and tiles of the tensor that none still needs are given up (R12; `fuel` bounds them). -/
def State.derive : Nat → State → TaskRef → Nat → State
  | 0, s, _, _ => s
  | fuel + 1, s, x, n =>
    let e := s.execIndex x.task
    let t := (s.aux n).nextTile
    let last := s.tf x.task TaskRec.tileFirst + s.tileCount x.task n
    let need := s.reduceNeeds n t
    if last ≤ t ∨ !(List.range (need.2 - need.1)).all (fun i => ((s.aux n).taken.find (need.1 + i)).isSome) then s else
    match s.reduceTile x n t (s.engineMode e) (s.takenInput n) Bench.empty with
    | .error d => s.reduceFails x n d
    | .ok (b, data) =>
      let next := (s.reduceNeeds n (t + 1)).1
      let s := (s.noteCounts e x.task n true b).giveTiles [⟨n, t, data⟩]
      let s := s.modAux n (fun a => { a with nextTile := t + 1, taken := if last ≤ t + 1 then [] else a.taken.filter (fun p => next ≤ p.1) })
      let s := if last ≤ t + 1 then s.count (Ch.invocations + 256 * e) 64 (s.reduceUnits n) else s
      State.derive fuel s x n

/-- A tile of the tensor that an ingest-mode REDUCE takes (R269). -/
def State.reduceTake (s : State) (x : TaskRef) (t : Nat) (data : List Byte) : State :=
  let n := s.tf x.task TaskRec.stream
  if s.stateOf n ≠ Ss.filling ∨ recTensorTiles (s.streamRec n) ≤ t ∨ (s.tf x.task TaskRec.tileFirst + s.tileCount x.task n ≤ (s.aux n).nextTile) then s else
  State.derive (s.tiles n + 1) (s.modAux n (fun a => { a with taken := a.taken.put t (s.padLast n t data) })) x n

/-- A REDUCE can take more of its tensor: what it derived last is coded (R15). -/
def State.reduceRoom (s : State) (n : Nat) : Bool := !(s.skerry.ingest.any (fun i => i.stream == n))

end Sys2Proof.Machine
end

