-- ==== Sys2Proof/Machine/Deliver.lean ====
section
/-! DEFINITION. Deliveries: consumers and their reservations (R240), expansion of tiles into them (R175, R176, R214, R242), the handles they fill (R171, R178, R181), consumption, and the dispatch of FEED tasks (R172). -/

namespace Sys2Proof.Machine

/-! ### State records of shards (R305, R306) -/

/-- The element type of a shard's weights: of its state record, else bfloat16 (log entry 55, DESIGN CHOICE). -/
def State.weightType (s : State) (k : Nat) : Nat := match s.shardOpt k with | some a => s.fld a OptRec.weightType | none => 1

/-! ### Consumers -/

def Consumer.fresh : Consumer :=
  { id := 0, source := .armed, stream := noRef, shard := false, first := 0, count := 0, look := 0, asked := 0, filled := 0, taken := 0, die := 0, ring := none,
    dest := 0, transpose := false, drain := false, entries := 0, granted := true, channel := noRef, version := 0, engine := false, clipSeen := false, buf := [] }

/-- A delivery begins: a fetch of its stream is in progress from now on (R50). -/
def State.addConsumer (s : State) (c : Consumer) : State :=
  let c := { c with id := s.skerry.nextConsumer }
  let s : State := { s with skerry := { s.skerry with consumers := s.skerry.consumers ++ [c], nextConsumer := c.id + 1 } }
  if c.shard then s else s.fetchStarts c.stream

def State.consumer (s : State) (i : Nat) : Option Consumer := s.skerry.consumers.find? (fun c => c.id == i)

def State.modConsumer (s : State) (i : Nat) (f : Consumer → Consumer) : State :=
  { s with skerry := { s.skerry with consumers := s.skerry.consumers.map (fun c => if c.id = i then f c else c) } }

/-- A consumer reads expanded tiles out of the Skerries' queues; the others take weights, tiles of the held pool, or what a Shoal engine makes. -/
def State.queued (s : State) (c : Consumer) : Bool := !c.shard && !c.engine && s.residence c.stream != Rs.quay && s.cls c.stream != Cl.regen

/-- The entries a lookahead reserves in each Skerry (R240). -/
def lookEntries (look : Nat) : Nat := max 1 (ceilDiv look 20)

/-- The window of a delivery; LOOKAHEAD 0 asks for one tile at a time (R175). -/
def Consumer.window (c : Consumer) : Nat := c.taken + max c.look 1

/-- The task or command behind a source: its urgency class. -/
def State.sourceUrgency (s : State) : ItemFrom → Nat
  | .task x => s.tf x.task TaskRec.urgency
  | .cmd tag => match s.dispatched.find? (fun d => d.tag == tag) with | some d => cmdGet d.word Cmd.urgency | none => 2
  | .armed => 1
  | .ended => 2

/-- A command's delivery starts when a lane has taken its work item; a task's at its dispatch. -/
def State.started (s : State) (c : Consumer) : Bool :=
  c.channel == noRef || s.ferry.items.any (fun i => i.source == c.source && s.ferry.lanes.any (fun e => e.2.item == i.id))

/-- The layer a source's counts go to. -/
def State.sourceLayer (s : State) : ItemFrom → Option Nat
  | .task x => some (s.tf x.task TaskRec.layer)
  | _ => none

/-- A queue drains for a consumer: it has taken all it was given, at its start nothing, and its next tile is not there; counted against that tile's Skerry and the consumer's layer (R242; log entry 53, DEDUCED). -/
def State.noteDrain (s : State) (i : Nat) : State :=
  match s.consumer i with
  | none => s
  | some c =>
    if c.granted ∧ c.asked < c.count ∧ c.taken = c.asked ∧ s.queued c then
      let s := s.countSticky (Ch.queueDrains + 256 * ((c.first + c.asked) % 20))
      match s.sourceLayer c.source with
      | some l => s.soundLayer l LayerSnd.queueDrains
      | none => s
    else s

/-- RESERVATION_GRANT (R240): the waiting consumer of the most urgent class, the first of it, takes its entries in every Skerry in service. -/
def execReservationGrant (s : State) : Host.Outcome State Fault Refusal :=
  match (s.skerry.consumers.filter (fun c => !c.granted && s.started c)).mergeSort (fun a b => s.sourceUrgency a.source ≤ s.sourceUrgency b.source) with
  | [] => .next s
  | c :: _ => .next (if s.entriesUsed + c.entries ≤ 2048 then (s.modConsumer c.id (fun c => { c with granted := true })).noteDrain c.id else s)

/-! ### Input tiles -/

def State.columns (s : State) (c : Consumer) : Nat := match c.ring with | some r => s.rgf c.die r RingRec.cols | none => 0
def State.consType (s : State) (c : Consumer) : Nat := if c.shard then s.weightType c.stream else s.sf c.stream StreamRec.elemType
/-- The bytes of a band of 32 rows (R178). -/
def State.bandBytes (s : State) (c : Consumer) : Nat := 32 * s.columns c * elemBytes (s.consType c)

/-- Input tile `k` of the range may be requested (R175). -/
def State.inWindow (s : State) (c : Consumer) (k : Nat) : Bool :=
  if c.transpose ∧ s.bandBytes c ≠ 0 then decide ((4096 * k / s.bandBytes c) * s.bandBytes c / 4096 < c.window) else decide (k < c.window)

/-- The bytes of input tile `k` once they have arrived. -/
def State.inputTile (s : State) (c : Consumer) (k : Nat) : Option (List Byte) :=
  if c.shard then
    let ps := (List.range 16).map (fun i => c.buf.find (16 * k + i))
    if ps.all Option.isSome then some ((ps.filterMap id).flatten) else none
  else if s.residence c.stream = Rs.quay then
    ((s.quay (s.sf c.stream StreamRec.die)).held.find (c.stream * 2 ^ 20 + c.first + k)).map (s.quayBytes (s.sf c.stream StreamRec.die))
  else (s.skerry.queue.find? (fun e => e.consumer == c.id && e.tile == c.first + k)).map QueueEntry.data

/-- The input tiles that output tile `j` is made of. -/
def State.inputsOf (s : State) (c : Consumer) (j : Nat) : List Nat :=
  let bb := s.bandBytes c
  if c.transpose ∧ bb ≠ 0 then
    let b0 := 4096 * j / bb
    let b1 := (min (4096 * j + 4095) (4096 * c.count - 1)) / bb
    let t0 := b0 * bb / 4096
    let t1 := min (c.count - 1) (((b1 + 1) * bb - 1) / 4096)
    (List.range (t1 + 1 - t0)).map (· + t0)
  else [j]

/-- The element of the range delivered at position `p` (R178). -/
def transposedFrom (cols p : Nat) : Nat :=
  let b := p / (32 * cols)
  let q := p % (32 * cols)
  (32 * b + q % 32) * cols + 32 * (q / 1024) + q % 1024 / 32

/-- Output tile `j` of a delivery. -/
def State.outTile (s : State) (c : Consumer) (j : Nat) : Option (List Byte) :=
  if c.count ≤ j then none
  else if !(c.transpose ∧ s.bandBytes c ≠ 0) then s.inputTile c j
  else
    let ts := (s.inputsOf c j).map (fun k => (k, (s.inputTile c k).map List.toArray))
    if ts.any (fun t => t.2.isNone) then none else
    let z := elemBytes (s.consType c)
    let at_ := fun (i : Nat) => match SMap.find ts (i / 4096) with | some (some a) => a.getD (i % 4096) 0 | _ => 0
    some ((List.range 4096).map (fun i => let p := (4096 * j + i) / z; at_ (transposedFrom (s.columns c) p * z + i % z)))

/-! ### Handles -/

/-- The number of a delivery's tag (R171). -/
def State.tagNumber (s : State) (c : Consumer) : Nat := if c.shard then s.shf c.stream ShardRec.shardId else c.stream

/-- The tag of the handle that begins at output tile `j`. -/
def State.tagFor (s : State) (c : Consumer) (j n : Nat) : HandleTag :=
  ⟨s.tagNumber c, c.first + j, n, c.transpose, c.drain, false, c.shard⟩

/-- What a buffer of ring 4 holds once it has `n` tiles of a weight feed from output tile `j` on. -/
def State.residentOf (s : State) (c : Consumer) (j n : Nat) : Resident := ⟨s.tagNumber c, c.version, c.first + j, n, c.transpose⟩

/-- The buffer of ring 4 at an index holds these weights already, all that a handle takes of them (R181). -/
def State.residentAt (s : State) (c : Consumer) (r i j : Nat) : Bool :=
  c.shard && r == 4 && (s.quay c.die).resident.find (tagKey 4 (i % s.ringEntries c.die 4)) == some (s.residentOf c j (min (s.bufTiles c.die r) (c.count - j)))

/-- Output tile `j` lies in a handle that is passed already, or that is resident where it will be filled. -/
def State.heldResident (s : State) (c : Consumer) (r j : Nat) : Bool :=
  let h := (j - c.filled) / s.bufTiles c.die r
  decide (j < c.filled) || (decide (h < s.ringEntries c.die r) && s.residentAt c r (s.idx c.die r 0 + h) (c.filled + h * s.bufTiles c.die r))

/-- Input tile `k` need not be read: what it goes into is resident. -/
def State.skips (s : State) (c : Consumer) (k : Nat) : Bool :=
  match c.ring with
  | none => false
  | some r => (s.inputsOf c k).all (s.heldResident c r)

/-- The expanded tiles that no output still needs are taken from the queue. -/
def State.freeEntries (s : State) (c : Consumer) : State :=
  let need := ((List.range (c.count - c.filled)).take 64).flatMap (fun j => s.inputsOf c (c.filled + j))
  let lo := need.foldl min c.count
  { s with skerry := { s.skerry with queue := s.skerry.queue.filter (fun e => !(e.consumer == c.id && decide (e.tile < c.first + lo))) } }

/-- One handle filled and passed by stage 0, if a buffer is free and its tiles are there: the whole buffer, or what the window allows. -/
def State.fillHandle (s : State) (c : Consumer) (r : Nat) : Option State :=
  let d := c.die
  let n := min (s.bufTiles d r) (c.count - c.filled)
  if n = 0 ∨ !s.ringOn d r ∨ !s.canTake d r 0 then none else
  let i := s.idx d r 0
  let pass := fun (s : State) (k : Nat) (bs : List (List Byte)) =>
    let tag := s.tagFor c c.filled k
    let s := (s.setTag d r i tag).passStage d r 0
    let s := s.modConsumer c.id (fun c => { c with filled := c.filled + k, asked := max c.asked (c.filled + k), buf := c.buf.filter (fun e => 16 * (c.filled + k) ≤ e.1 || c.transpose) })
    s.out (.handle d r i tag bs.flatten)
  if s.residentAt c r i c.filled then some (pass s n (s.handleTiles d r i n)) else
  let ready := ((List.range n).map (fun k => s.outTile c (c.filled + k))).takeWhile Option.isSome
  let tiles := ready.filterMap id
  let k := tiles.length
  let more := (s.inputsOf c (c.filled + k)).any (fun t => s.inWindow c t)
  if k = 0 ∨ (k < n ∧ more) then none else
  let s := s.modQuay d (fun q => q.fill (s.bufSlot d r i) tiles.flatten)
  let s := if c.shard ∧ r = 4 then s.modQuay d (fun q => { q with resident := q.resident.put (tagKey 4 (i % s.ringEntries d 4)) (s.residentOf c c.filled k) }) else s
  let s := pass s k tiles
  some (match s.consumer c.id with | some c => s.freeEntries c | none => s)

/-- Handles are filled as long as one can be (`fuel` bounds them). -/
def State.deliver : Nat → State → Nat → State
  | 0, s, _ => s
  | fuel + 1, s, i =>
    match s.consumer i with
    | none => s
    | some c =>
      match c.ring with
      | none => s
      | some r => match s.fillHandle c r with
        | some s => State.deliver fuel s i
        | none => s

/-- All the ring deliveries of a die go on. -/
def State.deliverAll (s : State) (d : Nat) : State :=
  ((s.skerry.consumers.filter (fun c => c.die == d && c.ring.isSome && c.granted)).map Consumer.id).foldl (fun (s : State) i => State.deliver 1024 s i) s

/-! ### The end of a delivery -/

/-- The work behind a source has ended well. -/
def State.sourceEnds (s : State) (src : ItemFrom) : State :=
  let s := (s.ferry.items.filter (fun (i : WorkItem) => i.source == src)).foldl State.dropItem s
  match src with
  | .task x => s.finishRun x
  | .cmd tag => match s.dispatched.find? (fun d => d.tag == tag) with
    | some d => s.endCmd d St.success d.detail
    | none => s
  | .armed => s
  | .ended => s

/-- The work behind a source has ended early: its deliveries and items are gone, its task's group is aborted or its command ends (R102, R182). -/
def State.sourceFails (s : State) (src : ItemFrom) (status : Nat) : State :=
  match src with
  | .task x => s.abortGroup x status
  | .cmd tag =>
    let ev := s.nextEvent - 1
    let s := s.endWork src status
    match s.dispatched.find? (fun d => d.tag == tag) with
    | some d => s.endCmd d status (if detailIsEvent status then ev else 0)
    | none => s
  | .armed => s.endWork src status
  | .ended => s

/-- A command that a loss strikes ends with a status; DETAIL names the end of its item where it had one. -/
def State.cmdStruck (s : State) (tag status : Nat) : State :=
  let t := s.endWork (.cmd tag) status
  match t.dispatched.find? (fun d => d.tag == tag) with
  | some d => t.endWith d status (if t.nextEvent = s.nextEvent then 0 else t.nextEvent - 1)
  | none => t

/-- The fetches of a stream by commands end with a status (R50, R60). -/
def State.endFetches (s : State) (n status : Nat) : State :=
  let tags := s.skerry.consumers.filterMap (fun c => match c.source with | .cmd t => if c.shard ∨ c.stream ≠ n then none else some t | _ => none)
  tags.foldl (fun (s : State) t => s.cmdStruck t status) s

/-- The drain tiles of a stream (R179). -/
def State.drainTiles (s : State) (n : Nat) : Nat := ceilDiv (recElems (s.streamRec n)) 2048

/-- A delivery is complete once every tile has been consumed, or every factor presented of a form without tiles. -/
def State.delivered (s : State) (c : Consumer) : Bool :=
  decide (c.count ≤ c.taken)
  && (!(c.drain && !c.shard && s.sf c.stream StreamRec.form == 0x11 && s.cls c.stream == Cl.deriv)
      || (List.range (s.drainTiles c.stream)).all ((s.quay c.die).shown.contains))

/-- A delivery that is complete ends (R50). -/
def State.settleConsumer (s : State) (i : Nat) : State :=
  match s.consumer i with
  | some c => if s.delivered c then (s.dropConsumer c).sourceEnds c.source else s
  | none => s

/-! ### EGRESS -/

/-- A tile of a REGEN stream made by its program on engine 2h + DIE, as an outermost program, and whether an access of it was clipped (R258, R271, R273). -/
def State.regenTile (s : State) (n t task : Nat) (seen : Bool) : State × Except Nat (List Byte × Bool) :=
  let et := s.sf n StreamRec.elemType
  let z := elemBytes et
  let per := 4096 / z
  let e := 2 * (t % 20) + s.sf n StreamRec.die
  let make := fun (s : State) => s.regenElems s.reader 0 (builtInEnv (s.engineMode e) none) n ((List.range per).map (· + per * t)) Bench.empty
  let give := fun (s : State) (r : Bench × List (Option Nat)) =>
    (s.noteCounts e task n seen r.1, Except.ok (r.2.flatMap (fun x => leBytes z (match x with | some b => narrow et b | none => 0)), r.1.clips != 0))
  match make s with
  | .ok r => give s r
  | .error d =>
    match s.checkSource 5 n with
    | (s, some st) => (s, .error st)
    | (s, none) => match make s with
      | .ok r => give s r
      | .error _ => (s, .error d.status)

/-- The tile has left its staging slot: the slot is free, and with the last one the stream is back on the Reef (R51, R176). -/
def State.unstage (s : State) (n t : Nat) : State :=
  match s.stagedAt n t with
  | none => s
  | some _ =>
    let s := s.modAux n (fun a => { a with staged := a.staged.erase t })
    if (s.aux n).staged.isEmpty ∧ s.residence n = Rs.toHarbour then s.setSf n StreamRec.residence Rs.reef else s

/-- A PREFETCH whose last staged tile has been read is complete (R176). -/
def State.settlePrefetch (s : State) (n : Nat) : State :=
  if (s.aux n).staged.isEmpty then
    (s.ferry.items.filter (fun i => match i.work with
      | .prefetch m first count _ => m == n && (s.ferry.lanes.any (fun e => e.2.item == i.id && e.2.next == .done && e.2.issued.isEmpty))
          && !(s.skerry.consumers.any (fun c => !c.shard && c.stream == n && c.first + c.asked < first + count))
      | _ => false)).foldl (fun (s : State) i => s.sourceEnds i.source) s
  else s

/-- The consumer's next tile can be expanded now: the window asks for it, its block is there, and an entry of the consumer is free; a band that is transposed takes what it spans, as long as the Skerry has an entry at all (R175, R240; log entry 98, DEDUCED). -/
def State.canExpand (s : State) (c : Consumer) : Bool :=
  let t := c.first + c.asked
  !c.engine && !c.shard && c.granted && s.started c && decide (c.asked < c.count) && s.inWindow c c.asked
  && (!s.queued c || ((decide ((s.skerry.queue.filter (fun e => e.consumer == c.id && e.tile % 20 == t % 20)).length < c.entries)
        || (c.transpose && decide (s.entriesHeld (t % 20) < 2048)))
      && s.ch (Ch.sliceState + 256 * (t % 20)) == 0
      && (!(s.residence c.stream == Rs.reef || s.residence c.stream == Rs.toHarbour) || (s.stagedAt c.stream t).isSome)))

/-- Of the consumers that a Skerry could expand for it is the one of the most urgent class, and of them the oldest (R240). -/
def State.firstInLine (s : State) (c : Consumer) : Bool :=
  !s.queued c || s.skerry.consumers.all (fun k =>
    let a := s.sourceUrgency k.source
    let b := s.sourceUrgency c.source
    !(s.queued k && s.canExpand k && (k.first + k.asked) % 20 == (c.first + c.asked) % 20) || decide (b < a ∨ (a = b ∧ c.id ≤ k.id)))

/-! ### FEED (R172) -/

/-- A ring of the die is free for another plan task. -/
def State.ringFree (s : State) (d r : Nat) : Bool :=
  !(s.skerry.consumers.any (fun c => c.die == d && c.ring == some r && (match c.source with | .task _ => true | _ => false)))

/-- The feed ring that a delivery of the plan uses: ring 2 while ring 1 is busy, if it is enabled. -/
def State.feedAB (s : State) (d : Nat) : Nat := if s.ringFree d 1 ∨ !s.ringOn d 2 then 1 else 2

/-- The ring a FEED uses. -/
def State.feedRing (s : State) (t : Nat) : Nat :=
  let d := s.execIndex t
  if s.tf t TaskRec.toDrain = 1 then 3
  else if s.tf t TaskRec.stream = noRef then 4
  else s.feedAB d

/-- The tiles a FEED delivers; of a shard, to the end of its slot when TILE_COUNT says all. -/
def State.feedCount (s : State) (t : Nat) : Nat :=
  let n := s.tf t TaskRec.stream
  if n ≠ noRef then s.tileCount t n
  else if s.tf t TaskRec.tileCount = noRef then s.shf (s.tf t TaskRec.shard) ShardRec.slotBytes / 4096 - s.tf t TaskRec.tileFirst
  else s.tf t TaskRec.tileCount

/-- The work of a FEED task: a delivery into its ring. -/
def State.feedWork (x : TaskRef) (s : State) : State :=
  let t := x.task
  let d := s.execIndex t
  let r := s.feedRing t
  let n := s.tf t TaskRec.stream
  let look := s.tf t TaskRec.lookahead
  if !s.ringOn d r then s.abortGroup x St.dieLost
  else if n ≠ noRef ∧ !s.fetchable n then s.abortGroup x St.streamState
  else
    let c : Consumer := { Consumer.fresh with
      source := .task x, first := s.tf t TaskRec.tileFirst, count := s.feedCount t, look := look, die := d, ring := some r,
      transpose := s.tf t TaskRec.transpose == 1, drain := s.tf t TaskRec.toDrain == 1, entries := lookEntries look }
    let c := if n = noRef then { c with stream := s.tf t TaskRec.shard, shard := true, version := (match s.pinned x with | some (_, v) => v | none => 0), granted := true }
      else { c with stream := n, granted := !(s.queued { c with stream := n }) }
    let s := if r = 3 then s.modQuay d (fun q => { q with shown := [], drainWait := [] }) else s
    let id := s.skerry.nextConsumer
    State.deliver 1024 ((s.addConsumer c).settleConsumer id) id

/-- FEED (R172): a FEED whose ring is busy waits at the head of the queue. -/
def execFeed (x : TaskRef) (s : State) : Host.Outcome State Fault Refusal :=
  .next (s.dispatch x Tk.feed (fun s => s.ringFree (s.execIndex x.task) (s.feedRing x.task)) (State.feedWork x))

end Sys2Proof.Machine
end

