-- ==== Sys2Proof/Machine/Gradients.lean ====
section
/-! DEFINITION. Gradient contributions: windows (R312), landing (R310, R311), and their addition in index order (R311, R319). -/

namespace Sys2Proof.Machine

/-! ### Sizes (R304, R306) -/

def State.optParams (s : State) (a : Nat) : Nat := s.fld a OptRec.rows * s.fld a OptRec.cols
def State.gradBytes (s : State) (a : Nat) : Nat := s.optParams a * elemBytes (s.fld a OptRec.gradType)
/-- Accumulator buffer `i`. -/
def State.accBuf (s : State) (a i : Nat) : Nat := s.fld a OptRec.accBase + i * roundUp (4 * s.optParams a) 4096
/-- The landing buffer of contribution `j`. -/
def State.landBuf (s : State) (a j : Nat) : Nat := s.fld a OptRec.landBase + j % s.fld a OptRec.landSlots * roundUp (s.gradBytes a) 4096

/-! ### Windows -/

/-- A COMPUTE task contributes to a shard (R310). -/
def State.contributes (s : State) (t k : Nat) : Bool :=
  s.tf t TaskRec.taskKind == Tk.compute && s.tf t TaskRec.phase == 1 && s.tf t TaskRec.shard == k && (s.shardOpt k).isSome

/-- The contributions to a shard among the tasks `lo` to `hi - 1` of a step. -/
def State.contribsIn (s : State) (k lo hi : Nat) : Nat := (s.tasksWhere (fun t => s.contributes t k && decide (lo ≤ t ∧ t < hi))).length

/-- The tasks of a step that write a version of the shard. -/
def State.updatesOf (s : State) (k : Nat) : List Nat := s.tasksWhere (fun t => s.updates t k)

/-- The window and index of the contribution that task `x` makes. -/
def State.contribution (s : State) (x : TaskRef) (k a : Nat) : Nat × Nat :=
  if s.fld a OptRec.delay ≠ 0 then (x.step, s.contribsIn k 0 x.task) else
  let us := s.updatesOf k
  let w := s.updatesBefore x k
  match (us.filter (· < x.task)).getLast? with
  | some u => (w, s.contribsIn k (u + 1) x.task)
  | none =>
    let before := match us.getLast? with
      | some u => if x.step = 0 then 0 else s.contribsIn k (u + 1) s.taskCount
      | none => x.step * s.contribsIn k 0 s.taskCount
    (w, before + s.contribsIn k 0 x.task)

/-- The local contributions of a window; none where no UPDATE ever ends it. -/
def State.localContribs (s : State) (k a w : Nat) : Option Nat :=
  if s.fld a OptRec.delay ≠ 0 then some (s.contribsIn k 0 s.taskCount) else
  let us := s.updatesOf k
  let v := w - s.plan.baseUpdates.getD k 0
  if us.isEmpty then none else
  let i := v % us.length
  if i = 0 then
    some ((if v = 0 then 0 else s.contribsIn k (us.getLast?.getD 0 + 1) s.taskCount) + s.contribsIn k 0 (us.headD 0))
  else some (s.contribsIn k (nth us (i - 1) 0 + 1) (nth us i 0))

/-- L + REMOTE_CONTRIBS. -/
def State.windowTotal (s : State) (k a w : Nat) : Option Nat := (s.localContribs k a w).map (· + s.fld a OptRec.remoteContribs)

/-- The accumulator buffer of a window. -/
def State.windowBuf (s : State) (a w : Nat) : Nat := w % (s.fld a OptRec.delay + 1)

/-! ### Landing -/

/-- The contribution has landed whole, or has been added already. -/
def State.landedAll (s : State) (x : TaskRef) (k a : Nat) : Bool :=
  let c := s.contribution x k a
  let z := s.shard k
  decide (c.1 < z.open_) || (z.open_ == c.1 && decide (c.2 < s.fld a OptRec.added))
  || z.landings.any (fun l => l.window == c.1 && l.index == c.2 && decide (s.gradBytes a ≤ l.filled))

/-- A contribution before contribution `j` of window `w` that lands in the same buffer has still to be added. -/
def State.landsBefore (s : State) (k a w j : Nat) : Bool :=
  let n := s.fld a OptRec.landSlots
  let o := (s.shard k).open_
  let later := fun (v lo hi : Nat) => (List.range (if v = w then j else hi)).any (fun i => decide (lo ≤ i) && i % n == j % n)
  (List.range (w + 1 - o)).any (fun i => later (o + i) (if i = 0 then s.fld a OptRec.added else 0) ((s.windowTotal k a (o + i)).getD 0))

/-- The buffer that contribution `j` lands in is free for it, and no earlier contribution is still to use it (R311; log entry 43, DEDUCED). -/
def State.mayLand (s : State) (k a w j : Nat) : Bool :=
  (s.shard k).landings.all (fun l => l.index % s.fld a OptRec.landSlots != j % s.fld a OptRec.landSlots || (l.window == w && l.index == j)) && !s.landsBefore k a w j

/-- The accumulator buffer of a window is held by an earlier one that is not yet applied: a complete window, or one that is still open (R319). -/
def State.bufferHeld (s : State) (k a w : Nat) : Bool :=
  s.fld a OptRec.delay != 0 && ((s.shard k).complete.any (fun c => c.2 == s.windowBuf a w && c.1 != (w : Int)) || decide ((s.shard k).open_ + s.fld a OptRec.delay < w))

/-- A contribution that has landed but must wait for its buffer: counted and reported (R319). -/
def State.delayWait (s : State) (k a w : Nat) : State :=
  if s.bufferHeld k a w then
    let s := (s.countSticky Ch.delayWaits).soundLayer (s.fld a OptRec.layer) LayerSnd.delayWaits
    s.raise ⟨0x0604, s.fld a OptRec.shardId, w, s.fld a OptRec.layer, none, []⟩
  else s

/-- Tiles of a contribution land in ascending parameter order. -/
def State.land (s : State) (x : TaskRef) (k a : Nat) (bytes : List Byte) : State :=
  let c := s.contribution x k a
  let z := s.shard k
  let filled := ((z.landings.find? (fun l => l.window == c.1 && l.index == c.2)).map Landing.filled).getD 0
  let bs := bytes.take (s.gradBytes a - filled)
  let s := s.put (s.landBuf a c.2 + filled) bs
  let full := filled + bs.length
  let s := s.modShard k (fun z => { z with landings := z.landings.filter (fun l => !(l.window == c.1 && l.index == c.2)) ++ [⟨c.1, c.2, full, []⟩] })
  if s.gradBytes a ≤ full ∧ filled < s.gradBytes a ∧ z.open_ ≤ c.1 then s.delayWait k a c.1 else s

/-- The window that a message numbers modulo 4,096: the next with that number from the open one on. -/
def State.windowOf (s : State) (k m : Nat) : Nat := let o := (s.shard k).open_; o + (m + 4096 - o % 4096) % 4096

/-- Remote contributions that have come whole land, each after the local ones, once their buffers are free (R310, R311). -/
def State.landRemote (s : State) (k a : Nat) : State :=
  s.cascade.incoming.foldl (fun (s : State) e =>
    match e.1 with
    | .gradient id i m =>
      let w := s.windowOf k m
      (match (if id = s.fld a OptRec.shardId ∧ i < s.fld a OptRec.remoteContribs ∧ 4 * s.optParams a ≤ e.2.length then s.localContribs k a w else none) with
       | none => s
       | some l =>
         if !s.mayLand k a w (l + i) then s else
         let bs := e.2.take (4 * s.optParams a)
         let fits := s.fld a OptRec.gradType = 3
         let s := (s.takeInbox e.1).modShard k (fun z => { z with landings := z.landings ++ [⟨w, l + i, s.gradBytes a, if fits then [] else bs⟩] })
         (if fits then s.put (s.landBuf a (l + i)) bs else s).delayWait k a w)
    | _ => s) s

/-- A contribution that did not land whole is discarded (R326). -/
def State.dropLanding (s : State) (x : TaskRef) (k a : Nat) : State :=
  let c := s.contribution x k a
  s.modShard k (fun z => { z with landings := z.landings.filter (fun l => !(l.window == c.1 && l.index == c.2 && decide (l.filled < s.gradBytes a))) })

/-! ### CONTRIBUTION_ADD (R311) -/

/-- Elements of a contribution as binary32. -/
def gradElems (et : Nat) (bs : List Byte) : List Nat := (chunksOf (elemBytes et) bs.length bs).map (fun b => widen et (leNat b))

/-- The numeric mode of the engines beside the accumulator's stack (R311; log entry 56, DEDUCED). -/
def State.addMode (s : State) (a : Nat) : NMode := s.engineMode (2 * (s.fld a OptRec.accBase / 2 ^ 38))

/-- A sector whose sum came from a damaged sector fails its check too (log entry 57, DESIGN CHOICE). -/
def State.spoil (s : State) (sec : Nat) : State :=
  { s with checkWords := s.checkWords.put sec (BitVec.ofNat 32 (crc32c (s.sector sec) ^^^ 1)) }

/-- The failing sectors of a range. -/
def State.failingSectors (s : State) (a n : Nat) : List Nat :=
  if n = 0 then [] else (s.checkWords.keys).filter (fun k => decide (a / 256 ≤ k ∧ k ≤ (a + n - 1) / 256))

/-- The contribution is added to the accumulator: contribution 0 is written, each later one added with one rounding. -/
def State.accumulate (s : State) (a w j : Nat) (xs : List Nat) (srcBad : List Nat) : State :=
  let acc := s.accBuf a (s.windowBuf a w)
  let n := 4 * s.optParams a
  let accBad := if j = 0 then [] else s.failingSectors acc n
  let old := (chunksOf 4 (s.optParams a + 1) (s.rd acc n)).map leNat
  let mode := s.addMode a
  let new := if j = 0 then xs else List.zipWith (vAdd mode false) old xs
  let s := s.put acc (new.flatMap (leBytes 4))
  (accBad ++ srcBad).eraseDups.foldl State.spoil s

/-- ADDED has risen: a window of a delayed shard that is complete waits to be applied (R312). -/
def State.settleWindow (s : State) (k a : Nat) : State :=
  let w := (s.shard k).open_
  if s.fld a OptRec.delay ≠ 0 ∧ s.windowTotal k a w = some (s.fld a OptRec.added) then
    let s := s.modShard k (fun z => { z with complete := z.complete ++ [((w : Int), s.windowBuf a w)], open_ := w + 1 })
    s.setFlds a [(OptRec.added, 0), (OptRec.pending, min 7 (s.fld a OptRec.pending + 1))]
  else s

end Sys2Proof.Machine
end

