-- ==== Sys2Proof/Machine/Quay.lean ====
section
/-! DEFINITION. The Quays: rings enabled and disabled (R169), handles passed and ring 0 routed (R170 to R173), the gradient drain (R179, R271), COMPUTE tasks suspended and completed (R90, R91, R310), EGRESS and CONTRIBUTION_ADD, which both let handles go on. -/

namespace Sys2Proof.Machine

/-! ### RING_CONTROL (R169) -/

abbrev Cw.idle : Nat := 1
abbrev Cw.training : Nat := 2
abbrev Cw.exchange : Nat := 3
abbrev Cw.up : Nat := 4
abbrev Cw.hold : Nat := 5
abbrev Cw.sleep : Nat := 6
abbrev Cw.down : Nat := 7
abbrev Cw.strapFault : Nat := 8
abbrev Cw.trainFault : Nat := 9
def State.cwState (s : State) (d : Nat) : Nat := s.ch (Ch.cwState + 256 * d)

abbrev RingCtl.die : Fld := ⟨48, 48⟩
abbrev RingCtl.ring : Fld := ⟨41, 32⟩

/-- The agents of a ring are those R168 asks, and none stands beyond STAGES. -/
def agentsOk (r stages a0 a1 a2 a3 : Nat) : Bool :=
  let later := [a1, a2, a3]
  (later.drop (stages - 1)).all (· == 0)
  && (if r = 0 then stages == 2 && a0 == Ag.matrix && a1 == Ag.stow
      else if r = 3 then stages == 2 && a0 == Ag.feed && a1 == Ag.drain
      else if r < 5 then stages == 2 && a0 == Ag.feed && a1 == Ag.matrix
      else a0 == Ag.ferry && (later.take (stages - 1)).all (fun a => a == Ag.matrix || a == Ag.drain))

/-- The record of a ring passes the checks of R169. -/
def State.ringValid (s : State) (d r : Nat) : Bool :=
  let w := s.rdNat (s.ringBase d r) 32
  let e := RingRec.entriesLog2.get w
  let b := RingRec.bufTilesLog2.get w
  let st := RingRec.stages.get w
  let base := RingRec.bufBase.get w
  let n := 2 ^ (e + b)
  let cols := RingRec.cols.get w
  decide (1 ≤ e ∧ e ≤ 10 ∧ b ≤ 6 ∧ 2 ≤ st ∧ st ≤ 4 ∧ cols % 32 = 0 ∧ cols ≤ 16384 ∧ base + n ≤ 16384)
  && agentsOk r st (RingRec.agent0.get w) (RingRec.agent1.get w) (RingRec.agent2.get w) (RingRec.agent3.get w)
  && (if r < 5 then RingRec.context.get w == 0 else s.contextExists (RingRec.context.get w))
  && RingRec.rsvd.all (fun f => f.get w == 0) && RingRec.cFields.all (fun f => f.get w == 0)
  && (s.rings d).all (fun q => !overlap base n (s.rgf d q RingRec.bufBase) (s.ringEntries d q * s.bufTiles d q))
  && (!s.planLoaded || decide (s.planHdr (if d = 0 then PlanHdr.quayAllow0 else PlanHdr.quayAllow1) + n ≤ s.heldPool d))

/-- ENABLE of a ring (R169). -/
def execRingEnable (r : Req) (s : State) : Host.Outcome State Fault Refusal :=
  if !actionIs r actF 1 then .next s else
  let d := RingCtl.die.get r.value
  let q := RingCtl.ring.get r.value
  .next (s.chartDo 0x5042 0 r
    { range := onlyBits r.value [RingCtl.die, RingCtl.ring, actF] && decide (q < s.ringCount d)
      state := s.rgf d q RingRec.state == 0 && (s.cwState d == Cw.up || s.cwState d == Cw.sleep)
      params := s.ringValid d q
      effect := fun s => s.setFlds (s.ringBase d q) [(RingRec.idx0, 0), (RingRec.idx1, 0), (RingRec.idx2, 0), (RingRec.idx3, 0), (RingRec.state, 1)] })

/-- A ring is DISABLED: its tags and what its buffers held are forgotten. -/
def State.closeRing (s : State) (d r : Nat) : State :=
  (s.setRgf d r RingRec.state 0).modQuay d (fun q => { q with tags := q.tags.filter (fun e => e.1 / 65536 != r), resident := if r = 4 then [] else q.resident })

/-- DISABLE of a ring: with no handle held, and for rings 0 to 4 with no plan loaded (R169). -/
def execRingDisable (r : Req) (s : State) : Host.Outcome State Fault Refusal :=
  if !actionIs r actF 2 then .next s else
  let d := RingCtl.die.get r.value
  let q := RingCtl.ring.get r.value
  .next (s.chartDo 0x5042 0 r
    { range := onlyBits r.value [RingCtl.die, RingCtl.ring, actF] && decide (q < s.ringCount d)
      state := s.rgf d q RingRec.state == 1 && (List.range (s.stages d q)).all (fun i => s.idx d q i == s.idx d q 0) && !(decide (q < 5) && s.planLoaded)
      params := true
      effect := fun s => s.closeRing d q })

/-! ### Ring 0 (R173) -/

/-- The COMPUTE tasks that are under way on a die, suspended or waiting for their handles among them. -/
def State.computesOn (s : State) (d : Nat) : List TaskRun :=
  s.plan.runs.filter (fun r => s.tf r.ref.task TaskRec.taskKind == Tk.compute && s.execIndex r.ref.task == d)

/-- The running ring-0 tasks of a die that take a stream's tiles: its STOW, and the ingest-mode REDUCE that reads it. -/
def State.takers (s : State) (d n : Nat) : List TaskRun :=
  let cs := s.computesOn d
  s.plan.runs.filter (fun r =>
    let t := r.ref.task
    let k := s.tf t TaskRec.taskKind
    let m := s.tf t TaskRec.stream
    r.begun && !r.finished && cs.any (fun c => c.ref == ⟨r.ref.step, s.tf t TaskRec.producer⟩)
    && ((k == Tk.stow && m == n) || (k == Tk.reduce && !s.storedMode m && (if s.tf t TaskRec.streamB = noRef then m else s.tf t TaskRec.streamB) == n)))

/-- A tile of a DROP stream is counted as it passes (R50, R182). -/
def State.dropTile (s : State) (x : TaskRef) (n : Nat) : State :=
  let s := s.modAux n (fun a => { a with written := a.written + 1 })
  if s.tileCount x.task n ≤ (s.aux n).written then s.finishRun x else s

/-- One destination takes the tiles of a handle; nothing where it cannot take them all now. -/
def State.takerTakes (s : State) (r : TaskRun) (n first : Nat) (tiles : List (List Byte)) : Option State :=
  let x := r.ref
  let dt := (List.range tiles.length).map (fun k => (first + k, nth tiles k []))
  if s.tf x.task TaskRec.taskKind = Tk.reduce then
    if s.reduceRoom (s.tf x.task TaskRec.stream) then some (dt.foldl (fun (s : State) p => s.reduceTake x p.1 p.2) s) else none
  else if s.cls n = Cl.drop then some (dt.foldl (fun (s : State) _ => s.dropTile x n) s)
  else
    let mine := dt.filter (fun p => s.storesIn x.task n p.1)
    if mine.all (fun p => s.hasRoom n p.1) then mine.foldl (fun (o : Option State) p => o.bind (fun s => s.takeTile n p.1 p.2)) (some s) else none

/-- The oldest handle of ring 0 is routed by its tag: none while a destination holds it back; an unmatched one goes back with ABORTED and aborts the COMPUTE task's group (R173). -/
def State.routeOne (s : State) (d : Nat) : Option State :=
  let i := s.idx d 0 1
  if !s.ringOn d 0 ∨ !s.canTake d 0 1 then none else
  match s.tagOf d 0 i with
  | none => some (s.passStage d 0 1)
  | some tag =>
    if tag.aborted then some (s.passStage d 0 1) else
    let tiles := s.handleTiles d 0 i tag.tiles
    let bad := fun (_ : Unit) =>
      let s := (s.setTag d 0 i { tag with aborted := true }).passStage d 0 1
      some (match s.computing d with | some x => s.abortGroup x St.ringTag | none => s)
    if tag.shard then
      match (s.computesOn d).find? (fun c => let k := s.tf c.ref.task TaskRec.shard; s.contributes c.ref.task k && s.shf k ShardRec.shardId == tag.number) with
      | none => bad ()
      | some c =>
        let k := s.tf c.ref.task TaskRec.shard
        match s.shardOpt k with
        | none => bad ()
        | some a =>
          let wj := s.contribution c.ref k a
          if s.mayLand k a wj.1 wj.2 then some ((s.land c.ref k a tiles.flatten).passStage d 0 1) else none
    else
      match s.takers d tag.number with
      | [] => bad ()
      | rs => (rs.foldl (fun (o : Option State) r => o.bind (fun s => s.takerTakes r tag.number tag.firstTile tiles)) (some s)).map (fun s => s.passStage d 0 1)

def State.routeRing0 : Nat → State → Nat → State
  | 0, s, _ => s
  | fuel + 1, s, d =>
    match s.routeOne d with
    | some s => State.routeRing0 fuel s d
    | none => s

/-- Both dies' rings 0 go on as far as they can. -/
def State.routeAll (s : State) : State := State.routeRing0 1024 (State.routeRing0 1024 s 0) 1

/-! ### The end of a COMPUTE task -/

/-- Handles of ring 0 that have not been routed. -/
def State.ring0Pending (s : State) (d : Nat) : Bool := s.ringOn d 0 && s.canTake d 0 1

/-- The gradient that the task owes has landed (R310). -/
def State.gradientIn (s : State) (x : TaskRef) : Bool :=
  let k := s.tf x.task TaskRec.shard
  !s.contributes x.task k || (match s.shardOpt k with | some a => s.landedAll x k a | none => true)

/-- A task ends DONE; the one whose place a slip alternative took goes on (R91). -/
def State.taskEnds (s : State) (x : TaskRef) : State :=
  match (s.run x).bind TaskRun.slipOf with
  | none => s.completeTask x
  | some y =>
    let back := (s.run y).any TaskRun.suspended
    let s := (s.modRun y (fun r => { r with suspended := false })).completeTask x
    if back ∧ (s.run y).isSome then s.out (.resumeCompute y) else s

/-- A COMPUTE task that its sequencer has reported: once its handles are routed it is DONE, or aborted with parameters missing (R74, R310). -/
def State.settleCompute (s : State) (x : TaskRef) : State :=
  if s.ring0Pending (s.execIndex x.task) then s.finishRun x
  else if s.gradientIn x then s.taskEnds x
  else
    let k := s.tf x.task TaskRec.shard
    let s := match s.shardOpt k with | some a => s.dropLanding x k a | none => s
    s.abortGroup x St.groupAborted

/-- COMPUTE_COMPLETE: the sequencer of a die reports its task complete. -/
def execComputeComplete (d : Nat) (s : State) : Host.Outcome State Fault Refusal :=
  match s.computing d with
  | none => .next s
  | some x => if (s.run x).any TaskRun.finished then .next s else .next ((s.routeAll).settleCompute x)

/-- COMPUTE_SUSPEND (R90): the running COMPUTE task of a die whose feed has drained stops at a tile boundary, and a slip is sought for it. -/
def execComputeSuspend (d : Nat) (s : State) : Host.Outcome State Fault Refusal :=
  match s.computing d with
  | none => .next s
  | some x =>
    let dry := s.skerry.consumers.any (fun c => c.die == d && c.ring.isSome && !c.shard && decide (c.taken = c.filled ∧ c.filled < c.count)
      && (match c.source with | .task y => decide (y.step = x.step) | _ => false))
    if !dry ∨ (s.run x).any TaskRun.finished then .next s else
    let s := (s.modRun x (fun r => { r with suspended := true })).out (.suspendCompute x)
    let s : State := { s with plan := { s.plan with lateSeen := if s.plan.lateSeen.contains x then s.plan.lateSeen else s.plan.lateSeen ++ [x] } }
    .next (s.slip x)

/-- A suspended task for which no alternative runs goes on when its feed has a tile again (R90; log entry 59, DEDUCED). -/
def State.resumeFed (s : State) (d : Nat) : State :=
  match s.plan.runs.find? (fun r => s.tf r.ref.task TaskRec.taskKind == Tk.compute && s.execIndex r.ref.task == d && r.suspended) with
  | none => s
  | some r =>
    if s.slipRuns r.ref.task ∨ (s.computing d).isSome then s
    else if s.skerry.consumers.any (fun c => c.die == d && decide (c.taken < c.filled)) then
      let s : State := { s with plan := { s.plan with lateSeen := s.plan.lateSeen.filter (· != r.ref) } }
      (s.modRun r.ref (fun r => { r with suspended := false })).out (.resumeCompute r.ref)
    else s

/-! ### The gradient drain (R179, R271) -/

/-- The delivery that fills the drain ring of a die. -/
def State.drainConsumer (s : State) (d : Nat) : Option Consumer := s.skerry.consumers.find? (fun c => c.die == d && c.drain)

/-- A tile that lies in a handle of the drain ring. -/
def State.drainTileAt (s : State) (d r t : Nat) : Option (List Byte) :=
  ((s.unpassed d r 1).findSome? (fun i => match s.tagOf d r i with
    | some tag => if !tag.aborted ∧ tag.firstTile ≤ t ∧ t < tag.firstTile + tag.tiles then some ((s.quay d).tile (s.bufSlot d r i + (t - tag.firstTile))) else none
    | none => none))

/-- Several tiles of the drain ring; none while one is missing. -/
def State.drainTilesAt (s : State) (d r : Nat) (ts : List Nat) : Option (SMap (Array Byte)) :=
  ts.foldl (fun (o : Option (SMap (Array Byte))) t => o.bind (fun m => (s.drainTileAt d r t).map (fun b => SMap.put m t b.toArray))) (some [])

/-- The stream carries a form of its own. -/
def State.hasForm (s : State) (n : Nat) : Bool := s.cls n == Cl.deriv

/-- Codes that a tile holds. -/
def State.codesPerTile (s : State) (n : Nat) : Nat :=
  if s.hasForm n then (let b := formBits (s.sf n StreamRec.form); if b = 0 then 0 else 32768 / b) else 4096 / elemBytes (s.sf n StreamRec.elemType)

/-- Elements that share one code. -/
def State.elemsPerCode (s : State) (n : Nat) : Nat := if s.hasForm n ∧ s.sf n StreamRec.form = 0x10 then max 1 (s.sf n StreamRec.formParam) else 1

/-- The factor of a code; the codes of MAXPOOL_IDX4 are presented as they are. -/
def drainValue (form param code : Nat) : Nat := if form = 0x10 then code else formValue form param code

/-- Dropout factors of a drain tile (R267). -/
def State.dropTileFactors (s : State) (n t theta : Nat) : List Nat :=
  (List.range 2048).map (fun i => dropFactor (s.streamPhilox n) (s.sf n StreamRec.philoxCtr) theta (2048 * t + i))

/-- The factors of drain tile `t` of a DERIV stream, once its codes lie in the ring. -/
def State.derivFactors (s : State) (d r n t : Nat) : Option (List Nat) :=
  let form := s.sf n StreamRec.form
  let param := s.sf n StreamRec.formParam
  if form = 0x11 then some (s.dropTileFactors n t param) else
  let bits := formBits form
  let per := s.codesPerTile n
  if per = 0 then none else
  let es := s.elemsPerCode n
  let last := recCodes (s.streamRec n) - 1
  let codeOf := fun (i : Nat) => min last ((2048 * t + i) / es)
  let ts := ((List.range (codeOf 2047 / per + 1 - codeOf 0 / per)).map (· + codeOf 0 / per))
  (s.drainTilesAt d r ts).map (fun m => (List.range 2048).map (fun i =>
    let q := codeOf i
    let byte := ((SMap.getD m (q / per) #[]).getD (q % per * bits / 8) 0).toNat
    drainValue form param ((byte >>> (q % per * bits % 8)) % 2 ^ bits)))

/-- The factors that an engine derives from elements that lie in the ring (R271). -/
def State.madeFactors (s : State) (d r n t form param : Nat) : Option (Bench × List Nat) :=
  if form = 0x11 then some (Bench.empty, s.dropTileFactors n t param) else
  let z := elemBytes (s.sf n StreamRec.elemType)
  let per := 4096 / z
  let total := recElems (s.streamRec n)
  let es := if form = 0x10 then max 1 param else 1
  let q0 := 2048 * t / es
  let q1 := (2048 * t + 2047) / es
  let e1 := min (total - 1) ((q1 + 1) * es - 1)
  let ts := (List.range (e1 / per + 1 - q0 * es / per)).map (· + q0 * es / per)
  match s.drainTilesAt d r ts with
  | none => none
  | some m =>
    let mode := s.engineMode (2 * (nth ts 0 0 % 20) + s.sf n StreamRec.die)
    let inp : Input := fun xs b => .ok (b, xs.map (fun e => if e < total then
      let a := SMap.getD m (e / per) #[]
      some (widen (s.sf n StreamRec.elemType) (leNat ((List.range z).map (fun i => a.getD (z * (e % per) + i) 0)))) else none))
    match formCodes mode form param total q0 (q1 + 1 - q0) inp Bench.empty with
    | .error _ => none
    | .ok cs => let a := cs.2.toArray; some (cs.1, (List.range 2048).map (fun i => drainValue form param (a.getD ((2048 * t + i) / es - q0) 0)))

/-- A drain tile is presented. -/
def State.present (s : State) (d t : Nat) (fs : List Nat) : State :=
  (s.modQuay d (fun q => { q with shown := if q.shown.contains t then q.shown else q.shown ++ [t], drainWait := q.drainWait.filter (fun w => w.1 != t) })).out
    (.drainFactors d t (fs.map (BitVec.ofNat 32)))

/-- The requests of the drain that can be answered from a stored form are. -/
def State.serveDrain (s : State) (d : Nat) : State :=
  match s.drainConsumer d with
  | none => s
  | some c =>
    if !s.hasForm c.stream then s else
    let s := (s.quay d).drainWait.foldl (fun (s : State) w => match s.derivFactors d (c.ring.getD 3) c.stream w.1 with
      | some fs => s.present d w.1 fs
      | none => s) s
    s.settleConsumer c.id

/-- DRAIN_REQUEST (R179): the drain asks for a drain tile, naming the form and its parameter; it waits until the elements are present. -/
def execDrainRequest (d t form param : Nat) (s : State) : Host.Outcome State Fault Refusal :=
  match s.drainConsumer d with
  | none => .next s
  | some c =>
    if s.drainTiles c.stream ≤ t ∨ (s.quay d).drainWait.any (fun w => w.1 == t) then .next s
    else .next ((s.modQuay d (fun q => { q with drainWait := q.drainWait ++ [(t, form, param)] })).serveDrain d)

/-- An engine stands between two units, or has no work. -/
def State.atUnit (s : State) (e : Nat) : Bool := let g := s.engines.getD e Engine.reset; g.run.isNone || g.regs.pc == 0

/-- FORM_DERIVATION (R271): an engine derives the oldest waiting drain tile of an EXACT, RAW or REGEN stream whose elements have come. -/
def execFormDerivation (d : Nat) (s : State) : Host.Outcome State Fault Refusal :=
  match s.drainConsumer d with
  | none => .next s
  | some c =>
    if s.hasForm c.stream then .next s else
    let z := elemBytes (s.sf c.stream StreamRec.elemType)
    let engine := fun (t : Nat) => 2 * (2048 * t * z / 4096 % 20) + s.sf c.stream StreamRec.die
    match (s.quay d).drainWait.findSome? (fun w => if s.atUnit (engine w.1) then (s.madeFactors d (c.ring.getD 3) c.stream w.1 w.2.1 w.2.2).map (fun fs => (w.1, fs)) else none) with
    | none => .next s
    | some p => .next ((s.noteCounts (engine p.1) noRef c.stream true p.2.1).present d p.1 p.2.2)

/-- Every element that a handle of the drain ring covers has been presented. -/
def State.handleShown (s : State) (d : Nat) (c : Consumer) (tag : HandleTag) : Bool :=
  let n := c.stream
  let per := s.codesPerTile n * s.elemsPerCode n
  let lo := tag.firstTile * per
  let hi := min (recElems (s.streamRec n)) ((tag.firstTile + tag.tiles) * per)
  tag.aborted || decide (hi ≤ lo) || (List.range ((hi - 1) / 2048 + 1 - lo / 2048)).all (fun k => (s.quay d).shown.contains (lo / 2048 + k))

/-! ### HANDLE_PASS (R170) -/

/-- A handle that stage 1 has passed is consumed by its delivery (R175). -/
def State.consume (s : State) (d r : Nat) (tag : HandleTag) : State :=
  if tag.aborted then s else
  match s.skerry.consumers.find? (fun c => c.die == d && c.ring == some r && c.shard == tag.shard && s.tagNumber c == tag.number && c.first + c.taken == tag.firstTile) with
  | none => s
  | some c => ((s.modConsumer c.id (fun c => { c with taken := c.taken + tag.tiles })).noteDrain c.id).settleConsumer c.id

/-- The MATRIX agent fills and passes a handle of ring 0. -/
def State.matrixFills (s : State) (d : Nat) (tag : HandleTag) (data : List Byte) : State :=
  let i := s.idx d 0 0
  if !s.canTake d 0 0 ∨ tag.tiles = 0 ∨ s.bufTiles d 0 < tag.tiles then s else
  let bs := data.take (4096 * tag.tiles)
  let s := s.modQuay d (fun q => q.fill (s.bufSlot d 0 i) (bs ++ List.replicate (4096 * tag.tiles - bs.length) 0))
  State.routeRing0 1024 ((s.setTag d 0 i tag).passStage d 0 0) d

/-- HANDLE_PASS: the MATRIX or DRAIN agent of a stage passes the handle it holds; a handle of the drain ring only once its factors are presented. -/
def execHandlePass (d r i : Nat) (tag : HandleTag) (data : List Byte) (s : State) : Host.Outcome State Fault Refusal :=
  if 2 ≤ d ∨ !s.ringOn d r ∨ s.stages d r ≤ i then .next s
  else
    let agent := s.rgf d r (agentFld i)
    if agent ≠ Ag.matrix ∧ agent ≠ Ag.drain then .next s
    else if i = 0 then .next (s.matrixFills d tag data)
    else if !s.canTake d r i then .next s
    else
      let t := s.tagOf d r (s.idx d r i)
      let held := agent == Ag.drain && i == 1 && (match t, s.skerry.consumers.find? (fun c => c.die == d && c.ring == some r && c.drain) with
        | some t, some c => !s.handleShown d c t
        | _, _ => false)
      if held then .next s else
      let s := s.passStage d r i
      let s := match t with | some t => if i = 1 then s.consume d r t else s | none => s
      .next (s.deliverAll d)

/-- What follows when a delivery has brought tiles to a die. -/
def State.fedDie (s : State) (d : Nat) : State := ((s.serveDrain d).resumeFed d).recheckSlips

/-- The consumer's next tile, expanded or recomputed. -/
def State.egressTile (s : State) (c : Consumer) : State × Except Nat (List Byte × Bool) :=
  let t := c.first + c.asked
  if s.cls c.stream = Cl.regen then s.regenTile c.stream t (match c.source with | .task x => x.task | _ => noRef) c.clipSeen
  else let r := s.fetchTile c.stream t; (r.1, r.2.map (fun b => (b, false)))

/-- EGRESS (R214, R218, R240): the next tile of a consumer is checked, decrypted and expanded into one of its entries, or copied out of the held pool, or recomputed; a tile that cannot be delivered ends its reader. -/
def execEgress (i : Nat) (s : State) : Host.Outcome State Fault Refusal :=
  match s.consumer i with
  | none => .next s
  | some c =>
    if !s.canExpand c ∨ !s.firstInLine c then .next s else
    let n := c.stream
    let t := c.first + c.asked
    match s.egressTile c with
    | (s, .error st) => .next (s.sourceFails c.source st)
    | (s, .ok (data, clipped)) =>
      let s := s.modConsumer i (fun c => { c with asked := c.asked + 1, clipSeen := c.clipSeen || clipped })
      let s := if s.residence n = Rs.quay then s else { s with skerry := { s.skerry with queue := s.skerry.queue ++ [⟨i, n, t, data⟩] } }
      .next ((State.deliver 1024 (((s.unstage n t).settlePrefetch n).notePeak (t % 20)) i).fedDie c.die)

/-! ### CONTRIBUTION_ADD (R311) -/

/-- The next contribution in index order of the open window, once it has landed and its buffer is free; one of a window that is complete already is dropped (log entry 58, DEDUCED). (log entry 43, DESIGN CHOICE.) -/
def State.contributionAdd (k : Nat) (s : State) : State :=
  match (if k < s.shardCount then s.shardOpt k else none) with
  | none => s
  | some a =>
    let s := s.landRemote k a
    let z := s.shard k
    let full := fun (l : Landing) => decide (s.gradBytes a ≤ l.filled)
    let old := z.landings.filter (fun l => full l && (decide (l.window < z.open_) || (l.window == z.open_ && decide (l.index < s.fld a OptRec.added))))
    if !old.isEmpty then (s.modShard k (fun z => { z with landings := z.landings.filter (fun l => !old.contains l) })) else
    let w := z.open_
    let j := s.fld a OptRec.added
    match z.landings.find? (fun m => m.window == w && m.index == j && full m) with
    | none => s
    | some m =>
      if s.bufferHeld k a w then s else
      let b := s.landBuf a j
      let et := s.fld a OptRec.gradType
      let acc := s.accBuf a (s.windowBuf a w)
      let bad := if m.wide.isEmpty then s.failingSectors b (s.gradBytes a) else []
      let spoilt := bad.flatMap (fun c => let e := (256 * c - b) / elemBytes et; (List.range 3).map (fun i => (acc + 4 * e) / 256 + i) |>.take (if et = 3 then 1 else 2))
      let s := bad.foldl (fun (s : State) c => s.sectorFound c none) s
      let s := s.accumulate a w j (if m.wide.isEmpty then gradElems et (s.rd b (s.gradBytes a)) else gradElems 3 m.wide) spoilt
      let s := s.modShard k (fun z => { z with landings := z.landings.filter (fun m => !(m.window == w && m.index == j)) })
      ((s.setFld a OptRec.added (j + 1)).settleWindow k a).landRemote k a

/-- CONTRIBUTION_ADD (R311): the landing buffer that it frees may let a handle of ring 0 go on. -/
def execContributionAdd (k : Nat) (s : State) : Host.Outcome State Fault Refusal :=
  .next (State.contributionAdd k s).routeAll

end Sys2Proof.Machine
end

