-- ==== Sys2Proof/Machine/Protection.lean ====
section
/-! DEFINITION. What Charov protects against writes (R48, R111, R149, R248, R305, R329, R362, R382, R395, R480), and which addresses memory has (R8, R185). -/

namespace Sys2Proof.Machine

/-- The registered regions that are ENABLED: their records' addresses (R382). -/
def State.devRecords (s : State) : List Nat := (List.range (s.ch Ch.regCount)).map (fun i => s.ch Ch.regBase + 32 * i)
def State.devEnabled (s : State) (a : Nat) : Bool := s.fld a DevRegion.state == 1
/-- The record of region `g`. -/
def State.regBase (s : State) (g : Nat) : Nat := s.ch Ch.regBase + 32 * g
/-- The region of a record is ENABLED and no DISABLE of it waits: it takes new requests (R383, R406). -/
def State.devOpen (s : State) (a : Nat) : Bool := s.devEnabled a && s.closing.all (fun g => s.regBase g != a)

/-- A Ferry's request to the region is in flight, or a device's waits for its bytes to be filled. -/
def State.regionBusy (s : State) (g : Nat) : Bool :=
  let touches := fun (a n : Nat) => overlap a n (s.fld (s.regBase g) DevRegion.base) (s.fld (s.regBase g) DevRegion.bytes)
  s.ferry.requests.any (fun q => !q.reef && touches q.addr q.len)
  || s.heldAccesses.any (fun x => match x with
    | .devRead _ a n => touches a n
    | .devWrite _ a d => touches a d.length
    | _ => false)

/-- The DISABLEs that wait are done where nothing of their region is in flight any more (R383). -/
def State.closeRegions (s : State) : State :=
  (s.closing.filter (fun g => !s.regionBusy g)).foldl (fun (t : State) g => t.setFld (t.regBase g) DevRegion.state 0) { s with closing := s.closing.filter s.regionBusy }

/-- DISABLE of a registered region: done at once where nothing of it is in flight. -/
def State.closeRegion (s : State) (g : Nat) : State := ({ s with closing := if s.closing.contains g then s.closing else s.closing ++ [g] } : State).closeRegions

/-- Ranges of bytes that are protected now: first byte and number. (log entry 38, DEDUCED.) -/
def State.protectedRanges (s : State) : List (Nat × Nat) :=
  let loaded := s.planLoaded
  let region := s.planHdr PlanHdr.tableRegion
  (if loaded then
    (List.range 20).map (fun k => (k * 2 ^ 38 + s.regionBase region, s.stackBytes region))
    ++ [(s.ch Ch.ostateBase, 128 * s.ch Ch.ostateCount), (s.ch Ch.pkgMapBase, 16 * s.ch Ch.pkgMapCount)]
    ++ (if s.ch Ch.layerSndBase = 0 then [] else [(s.ch Ch.layerSndBase, 1048576)])
    ++ (if s.ch Ch.streamSndBase = 0 then [] else [(s.ch Ch.streamSndBase, 4194304)])
   else [])
  ++ s.openQueues.map (fun q => (s.queueBase q, 64))
  ++ ((List.range (s.ch Ch.chtableCount)).filter (fun c => s.chf c ChanRec.state != Cn.disabled)).map (fun c => (s.chan c, 64))
  ++ ((List.range (s.ch Ch.progCount)).filter s.progValid).flatMap (fun p =>
      [(s.progAddr p, 32), (ProgRec.image.get (s.prog p), 8 * ProgRec.insns.get (s.prog p)), (ProgRec.constAddr.get (s.prog p), ProgRec.constBytes.get (s.prog p))])
  ++ (s.devRecords.filter s.devEnabled).map (fun a => (a, 32))
  ++ (List.range (s.ch Ch.setsCount)).map (fun k => (s.setBase k, 128))

/-- The bytes touch a range that Charov protects; a set record's own fields that software may set while it is EMPTY are left to the set's commands (R362). -/
def State.protects (s : State) (a n : Nat) : Bool := n != 0 && s.protectedRanges.any (fun r => r.2 != 0 && overlap a n r.1 r.2)

/-- A Reef range that lies in the plan area of a loaded plan (R329). -/
def State.reefProtects (s : State) (a n : Nat) : Bool := s.planLoaded && n != 0 && reefPartner a == 0 && decide (s.ch Ch.swBytes < a + n)

/-- Where the control aperture begins: no memory lies there (R449, log entry 60, DEDUCED). -/
def controlAperture : Nat := 0x000FF00000000000

/-- Bytes that touch ENABLED peer regions, and of which none holds them all with an ACCESS that permits the direction (R386). -/
def State.peerForbids (s : State) (a n : Nat) (write : Bool) : Bool :=
  let peers := s.devRecords.filter (fun g => s.devOpen g && s.fld g DevRegion.peer == 1 && overlap a n (s.fld g DevRegion.base) (s.fld g DevRegion.bytes))
  !peers.isEmpty && peers.all (fun g =>
    !(decide (s.fld g DevRegion.base ≤ a ∧ a + n ≤ s.fld g DevRegion.base + s.fld g DevRegion.bytes) && bit (s.fld g DevRegion.access) (if write then 1 else 0)))

/-- Bytes that lie outside every assigned region, every server-core range and every ENABLED peer region whose ACCESS permits the direction (R386, log entry 60, DEDUCED). -/
def State.unreachable (s : State) (a n : Nat) (write : Bool) : Bool :=
  n != 0 && (if inHarbour a then (s.firstOutside a n).isSome
    else decide (controlAperture < a + n) || s.peerForbids a n write)

/-- The lowest byte of a range that Charov may not read or write for software: protected, or outside every range of memory (R48, R139, R386). -/
def State.offending (s : State) (a n : Nat) (write : Bool) : Option Nat :=
  let prot := if write ∧ n ≠ 0 then (s.protectedRanges.filter (fun r => r.2 != 0 && overlap a n r.1 r.2)).map (fun r => max a r.1) else []
  let out := if !s.unreachable a n write then []
    else if inHarbour a then (s.firstOutside a n).toList
    else if controlAperture < a + n then [max a controlAperture] else [a]
  (prot ++ out).foldl (fun m x => match m with | none => some x | some y => some (min x y)) none

end Sys2Proof.Machine
end

