-- ==== Sys2Proof/Machine/Ferry.lean ====
section
/-! DEFINITION. The Ferries: work items and lanes (R142 to R147), descriptors (R151 to R157), pacing (R159), completion (R161), errors (R162, R163). -/

namespace Sys2Proof.Machine

/-! ### Work items -/

/-- A work item reaches its channel (R145, R150). -/
def State.addItem (s : State) (channel : Nat) (src : ItemFrom) (work : ItemWork) (urgency : Nat) : State :=
  let i : WorkItem := ⟨s.ferry.nextId, channel, src, work, urgency, s.ferry.nextId + 1, none⟩
  let s : State := { s with ferry := { s.ferry with items := s.ferry.items ++ [i], nextId := i.id + 1 } }
  if s.chf channel ChanRec.state = Cn.idle then s.setChf channel ChanRec.state Cn.ready else s

def State.item (s : State) (i : Nat) : Option WorkItem := s.ferry.items.find? (fun w => w.id == i)
def State.modItem (s : State) (i : Nat) (f : WorkItem → WorkItem) : State :=
  { s with ferry := { s.ferry with items := s.ferry.items.map (fun w => if w.id = i then f w else w) } }

def State.lane (s : State) (l : Nat) : Option LaneRun := s.ferry.lanes.find l
def State.modLane (s : State) (l : Nat) (f : LaneRun → LaneRun) : State :=
  match s.lane l with
  | some r => { s with ferry := { s.ferry with lanes := s.ferry.lanes.put l (f r) } }
  | none => s

/-- The work item at the head of a channel. -/
def State.headItem (s : State) (c : Nat) : Option WorkItem := s.ferry.items.find? (fun i => i.channel == c)

def WorkItem.armedChain (i : WorkItem) : Bool := i.source == .armed

/-- The item a free lane takes (R144): most urgent class, then earliest ready, then lowest channel. -/
def State.nextItem (s : State) (l : Nat) : Option WorkItem :=
  let heads := (s.ferry.items.map WorkItem.channel).eraseDups.filterMap s.headItem
  let ok := heads.filter (fun i => s.chf i.channel ChanRec.lane == l && s.chf i.channel ChanRec.state == Cn.ready && !s.paused i.urgency)
  (ok.mergeSort (fun a b => a.urgency < b.urgency || (a.urgency == b.urgency && (a.ready < b.ready || (a.ready == b.ready && decide (a.channel ≤ b.channel)))))).head?

/-- What the lane issues first for an item. -/
def WorkItem.start (i : WorkItem) : NextDesc :=
  match i.work with
  | .chain a => if a = 0 then .done else .at a
  | .built [] => .done
  | .built ds => .built ds
  | .stow _ first _ _ => .tile first
  | .prefetch _ first _ _ => .tile first
  | .fetch _ => .tile 0
  | .reefWrite _ => .done
  | .exchange _ => .done
  | .carry _ => .done

/-- The lane runs an item. -/
def State.runItem (s : State) (l : Nat) (i : WorkItem) (next : NextDesc) : State :=
  let r : LaneRun := { item := i.id, issued := [], next := next, failing := none, failAddr := 0, failIdx := 0, failDesc := 0, failTag := 0, failPos := 0, haltCause := 0, ticked := false }
  let s : State := { s with ferry := { s.ferry with lanes := s.ferry.lanes.put l r } }
  let s := s.setFlds (s.chan i.channel) [(ChanRec.state, Cn.running)]
  (s.setCh (Ch.laneState + 256 * l) 1).setCh (Ch.laneChannel + 256 * l) i.channel

/-! ### Descriptors (R151 to R156) -/

def descTotal (w : Nat) : Nat := Desc.len0.get w * Desc.count1.get w * Desc.count2.get w

/-- The byte `lin` of the loop: i2, i1, k (R152). -/
def descPos (w lin : Nat) : Nat × Nat × Nat :=
  let n := Desc.len0.get w
  let c1 := Desc.count1.get w
  (lin / n / c1, lin / n % c1, lin % n)

/-- `wrap` of R152. -/
def wrapAddr (base : Nat) (off : Int) (w : Nat) : Nat :=
  let a := (((base : Int) + off) % (2 : Int) ^ 64).toNat
  if w = 0 then a else base / 2 ^ w * 2 ^ w + a % 2 ^ w

/-- The source or destination address of byte `lin`. -/
def descAddr (w lin : Nat) (dst : Bool) : Nat :=
  let p := descPos w lin
  let f := fun (a b : Fld) => signedOf 32 ((if dst then b else a).get w)
  let off := (p.1 : Int) * f Desc.srcStride2 Desc.dstStride2 + (p.2.1 : Int) * f Desc.srcStride1 Desc.dstStride1 + (p.2.2 : Int)
  wrapAddr ((if dst then Desc.dst else Desc.src).get w) off ((if dst then Desc.dstWrapLog2 else Desc.srcWrapLog2).get w)

/-- The bytes of one request from byte `lin` on: within the run and one 256-byte block, or one 4 KiB block of the Reef (R146, R155). -/
def descPiece (w lin : Nat) (dst : Bool) : Nat :=
  let block := if (if dst then Desc.dstReef else Desc.srcReef).get w = 1 then 4096 else 256
  min (Desc.len0.get w - lin % Desc.len0.get w) (block - descAddr w lin dst % block)

def swapUnit (sw : Nat) : Nat := if sw = 1 then 2 else if sw = 2 ∨ sw = 3 then 4 else if sw = 4 then 8 else 1

/-- Where byte `lin` of the source goes in the loop: its place in its swap unit (R154). -/
def swapped (w lin : Nat) : Nat :=
  let sw := Desc.swap.get w
  let u := swapUnit sw
  let n := Desc.len0.get w
  let k := lin % n
  let i := k % u
  lin - i + (if sw = 3 then (i + 2) % 4 else u - 1 - i)

/-- The bytes from the lowest to past the highest source or destination of a descriptor (R153). -/
def descBounds (w : Nat) (dst : Bool) : Nat × Nat :=
  let f := fun (a b : Fld) => (if dst then b else a).get w
  let base := f Desc.src Desc.dst
  let lg := f Desc.srcWrapLog2 Desc.dstWrapLog2
  if descTotal w = 0 then (base, 0)
  else if lg ≠ 0 then (base / 2 ^ lg * 2 ^ lg, 2 ^ lg)
  else
    let e1 : Int := ((Desc.count1.get w : Int) - 1) * signedOf 32 (f Desc.srcStride1 Desc.dstStride1)
    let e2 : Int := ((Desc.count2.get w : Int) - 1) * signedOf 32 (f Desc.srcStride2 Desc.dstStride2)
    let lo := (base : Int) + min e1 0 + min e2 0
    let hi := (base : Int) + max e1 0 + max e2 0 + Desc.len0.get w
    (lo.toNat, (hi - max lo 0).toNat)

/-- No address of a descriptor that does not wrap lies below zero: such an address is outside the implemented width (R8, R153). -/
def descAbove (w : Nat) (dst : Bool) : Bool :=
  let f := fun (a b : Fld) => (if dst then b else a).get w
  let e1 : Int := ((Desc.count1.get w : Int) - 1) * signedOf 32 (f Desc.srcStride1 Desc.dstStride1)
  let e2 : Int := ((Desc.count2.get w : Int) - 1) * signedOf 32 (f Desc.srcStride2 Desc.dstStride2)
  descTotal w == 0 || f Desc.srcWrapLog2 Desc.dstWrapLog2 != 0 || decide (0 ≤ (f Desc.src Desc.dst : Int) + min e1 0 + min e2 0)

/-- A Reef address that a command or descriptor may name: local and inside the set, or inside a partner's grant (R402). -/
def State.reefOk (s : State) (a n : Nat) : Bool :=
  let q := reefPartner a
  let o := a % 2 ^ 47
  n == 0 || (if q = 0 then decide (o + n ≤ s.reefCapacity) else decide (q ≤ 8 ∧ o + n ≤ s.ch (Ch.borrowGranted + 256 * (q - 1))))

/-- A descriptor of a chain that software armed passes the checks of R153, for a channel. -/
def State.descValid (s : State) (c w : Nat) : Bool :=
  let sr := Desc.srcReef.get w == 1
  let dr := Desc.dstReef.get w == 1
  let wrapOk := fun (x : Nat) => x == 0 || 12 ≤ x
  let b := descBounds w true
  let r := descBounds w false
  let m32 := fun (f : Fld) => f.get w % 32 == 0
  Desc.rsvd.all (fun f => f.get w == 0)
  && Desc.pace.get w != 3 && decide (Desc.swap.get w ≤ 4) && wrapOk (Desc.dstWrapLog2.get w) && wrapOk (Desc.srcWrapLog2.get w)
  && decide (Desc.src.get w < 2 ^ 52 ∧ Desc.dst.get w < 2 ^ 52 ∧ b.1 + b.2 ≤ 2 ^ 52 ∧ r.1 + r.2 ≤ 2 ^ 52) && descAbove w true && descAbove w false
  && Desc.len0.get w % swapUnit (Desc.swap.get w) == 0
  && (!sr || (m32 Desc.src && m32 Desc.len0 && m32 Desc.srcStride1 && m32 Desc.srcStride2 && s.reefOk r.1 r.2))
  && (!dr || (m32 Desc.dst && m32 Desc.len0 && m32 Desc.dstStride1 && m32 Desc.dstStride2 && s.reefOk b.1 b.2))
  && (Desc.credit.get w == 0 || (decide (Desc.creditTo.get w < s.ch Ch.chtableCount) && s.chf (Desc.creditTo.get w) ChanRec.state != Cn.disabled
      && s.chf (Desc.creditTo.get w) ChanRec.context == s.chf c ChanRec.context))
  && (Desc.nextF.get w == 0 || (Desc.nextF.get w % 64 == 0 && inHarbour (Desc.nextF.get w)))
  && !(if dr then s.reefProtects b.1 b.2 else s.protects b.1 b.2 || s.unreachable b.1 b.2 true) && (sr || !s.unreachable r.1 r.2 false)

/-- A descriptor that Charov builds: `n` bytes from one place to another. -/
def builtDesc (src dst n : Nat) (srcReef dstReef : Bool) : Nat :=
  [(Desc.src, src), (Desc.dst, dst), (Desc.len0, n), (Desc.count1, 1), (Desc.count2, 1), (Desc.srcReef, boolNat srcReef), (Desc.dstReef, boolNat dstReef)].foldl
    (fun v p => p.1.set v p.2) 0

/-- A long move in descriptors of at most 2 GiB. -/
def builtMove (src dst : Nat) (srcReef dstReef : Bool) : Nat → Nat → List Nat
  | 0, _ => []
  | fuel + 1, n => if n = 0 then [] else
    let k := min n (2 ^ 31)
    builtDesc src dst k srcReef dstReef :: builtMove (src + k) (dst + k) srcReef dstReef fuel (n - k)

/-! ### Completion and ends of items (R161 to R163) -/

/-- A credit for a channel (R159). -/
def State.giveCredit (s : State) (c by_ : Nat) : State :=
  let lost := fun (s : State) (cause : Nat) => (s.countSticky Ch.creditsLost).raise ⟨0x0404, c, by_, cause, none, []⟩
  if s.ch Ch.chtableCount ≤ c ∨ s.chf c ChanRec.state = Cn.disabled then lost s 0
  else if s.chf c ChanRec.credits = 65535 then lost (s.setChf c ChanRec.creditOverflow 1) 1
  else s.setChf c ChanRec.credits (s.chf c ChanRec.credits + 1)

/-- The completion actions of a descriptor in their order (R161). -/
def State.descDone (s : State) (l c w : Nat) : State :=
  let s := if Desc.credit.get w = 1 then s.giveCredit (Desc.creditTo.get w) c else s
  let s := s.setFlds (s.chan c) [(ChanRec.doneCount, (s.chf c ChanRec.doneCount + 1) % 2 ^ 32), (ChanRec.lastTag, Desc.descTag.get w)]
  let s := s.count (Ch.laneDescriptors + 256 * l) 64
  if Desc.int.get w = 1 then s.chanInt c else s

/-- The stream of a REEF_WRITE or PREFETCH whose module is lost (R59). -/
def State.reefLostStream (s : State) (n : Nat) : State :=
  let res := s.residence n
  let module := (s.setPorts.find? (fun p => s.modState p != Ms.admitted)).getD 0
  let ev := fun (s : State) => s.raise ⟨0x010D, n, res, module, some (s.sf n StreamRec.context), []⟩
  if res = Rs.toReef then
    ev ((s.giveReef n).setFlds (s.streamBase n) [(StreamRec.residence, Rs.harbour), (StreamRec.dataBase, (s.aux n).harbour)])
  else if res = Rs.reef ∨ res = Rs.toHarbour then ev (s.faultStream n St.reefLost)
  else s

/-- A work item ends early: reported with the first failing byte, its interrupt given, a HALTED channel left so, its source ended (R162, R163). -/
def State.itemFails (s : State) (l : Nat) (r : LaneRun) (i : WorkItem) (status : Nat) : State :=
  if i.source = .ended then s.dropItem i else
  let p := descPos r.failDesc r.failPos
  let desc := if r.haltCause = 2 ∨ r.haltCause = 3 then r.failAddr else
    match r.issued[r.failIdx]? with
    | some d => d.addr
    | none => (match r.next with | .at a => a | _ => 0)
  let c1 := desc + p.2.2 * 2 ^ 64 + p.2.1 * 2 ^ 96 + p.1 * 2 ^ 112
  let ctx := s.chf i.channel ChanRec.context
  let s := s.raise ⟨0x0402, i.channel, evAddr r.failAddr status, r.failTag + r.haltCause * 2 ^ 16, some ctx, [c1]⟩
  let ev := s.nextEvent - 1
  let s := s.chanInt i.channel
  let s := if r.haltCause = 0 then s else s.setFlds (s.chan i.channel) [(ChanRec.state, Cn.halted), (ChanRec.haltCause, r.haltCause)]
  let s := (s.dropItem i).idleLane l
  let s := if status = St.reefLost then (match i.work with | .reefWrite n => s.reefLostStream n | .prefetch n _ _ _ => s.reefLostStream n | _ => s) else s
  match i.source with
  | .task x => s.abortGroup x status
  | .cmd tag =>
    let s := (s.skerry.consumers.filter (fun c => c.source == i.source)).foldl State.dropConsumer s
    match s.dispatched.find? (fun d => d.tag == tag) with
    | some d => s.endCmd d status ev
    | none => s
  | .armed => s
  | .ended => s

/-- The lane stops issuing for its item, with the failing byte of descriptor `k` noted, the first in the order of the chain and its loops among the failures observed; the item ends once nothing is in flight (R162, R163). -/
def State.laneFails (s : State) (l status halt addr k w pos : Nat) : State :=
  let s := s.modLane l (fun r =>
    let here := fun (r : LaneRun) => { r with failAddr := addr, failIdx := k, failDesc := w, failTag := Desc.descTag.get w, failPos := pos }
    if r.failing.isSome then (if k < r.failIdx ∨ (k = r.failIdx ∧ pos < r.failPos) then here r else r)
    else here { r with failing := some status, haltCause := halt })
  match s.lane l with
  | none => s
  | some r =>
    if s.ferry.requests.any (fun q => q.lane == l) then s else
    match s.item r.item with
    | some i => s.itemFails l r i (r.failing.getD status)
    | none => s.idleLane l

/-- A work item whose last descriptor has completed (R161). -/
def State.itemDone (s : State) (l : Nat) (i : WorkItem) : State :=
  match i.work with
  | .fetch _ => s
  | .exchange _ => s
  | .carry _ => s
  | .prefetch n first count _ =>
    if (s.aux n).staged.isEmpty ∧ !(s.skerry.consumers.any (fun c => !c.shard && c.stream == n && c.first + c.asked < first + count)) ∧ s.residence n ≠ Rs.toHarbour
    then ((s.dropItem i).idleLane l).sourceEnds i.source else s
  | .stow n _ _ _ => ((s.dropItem i).idleLane l).settleStows n
  | .reefWrite n => ((((s.dropItem i).idleLane l).modAux n (fun a => { a with reefDone := true })).reefWritten n).sourceEnds i.source
  | _ => ((s.dropItem i).idleLane l).sourceEnds i.source

/-- Every byte of a descriptor has been moved. -/
def IssuedDesc.finished (d : IssuedDesc) : Bool :=
  d.inFlight == 0 && decide (descTotal d.word ≤ d.rd) && (match d.role with | .stowTile _ _ => true | _ => decide (descTotal d.word ≤ d.wr))

/-- What a finished descriptor brings about; nothing where its tile cannot be taken yet. -/
def State.roleDone (s : State) (d : IssuedDesc) : Option State :=
  match d.role with
  | .copy => some s
  | .stowTile n t => if s.hasRoom n t then s.takeTile n t ((List.range (descTotal d.word)).map (fun k => d.buf.getD k 0)) else none
  | .fetchTile c _ => some ((s.modConsumer c (fun x => { x with taken := x.taken + 1 })).noteDrain c)
  | .stageTile n t slot =>
    let s := s.modAux n (fun a => { a with staged := a.staged.put t slot })
    some (if s.residence n = Rs.reef then s.setSf n StreamRec.residence Rs.toHarbour else s)

/-- The finished descriptors at the head of the chain complete in order, and then perhaps the item (`fuel` bounds them). -/
def State.settleLane : Nat → State → Nat → State
  | 0, s, _ => s
  | fuel + 1, s, l =>
    match s.lane l with
    | none => s
    | some r =>
      if r.failing.isSome then s else
      match s.item r.item with
      | none => s.idleLane l
      | some i =>
        match r.issued with
        | d :: ds =>
          if !d.finished then s else
          match s.roleDone d with
          | none => s
          | some s =>
            let s := s.modLane l (fun r => { r with issued := ds })
            let s : State := { s with ferry := { s.ferry with requests := s.ferry.requests.map (fun q => if q.lane = l then { q with desc := q.desc - 1 } else q) } }
            let s := s.descDone l i.channel d.word
            let s := match d.role with | .fetchTile c _ => s.settleConsumer c | _ => s
            State.settleLane fuel s l
        | [] =>
          if r.next == .done ∧ !(i.armedChain ∧ s.chf i.channel ChanRec.shadowValid = 1) then s.itemDone l i else s

/-! ### Issuing (R146, R152, R157, R159) -/

/-- An earlier write of the channel to one of the 256-byte blocks of `n` bytes at `a` is outstanding (R157). -/
def State.blockBusy (s : State) (l a n : Nat) (reef : Bool) : Bool :=
  s.ferry.requests.any (fun q => q.lane == l && q.write && q.reef == reef && decide (q.addr / 256 ≤ (a + n - 1) / 256 ∧ a / 256 ≤ (q.addr + q.len - 1) / 256))

/-- Writes that an earlier descriptor of the chain has still to issue reach the block too. -/
def earlierWrites (ds : List IssuedDesc) (a n : Nat) (reef : Bool) : Bool :=
  ds.any (fun d => (Desc.dstReef.get d.word == 1) == reef && decide (d.wr < descTotal d.word) &&
    (let b := descBounds d.word true; overlap (a / 256 * 256) (n + 256) b.1 b.2))

/-- The first request that can be issued: of descriptor `k`, whether a write. Writes that are ready go before reads. -/
def State.nextRequest (s : State) (l : Nat) (r : LaneRun) : Option (Nat × Bool) :=
  let ks := List.range r.issued.length
  let ready := fun (k : Nat) => match r.issued[k]? with
    | none => false
    | some d =>
      let n := descPiece d.word d.wr true
      let a := descAddr d.word d.wr true
      let reef := Desc.dstReef.get d.word == 1
      (match d.role with | .stowTile _ _ => false | _ => decide (d.wr < descTotal d.word))
      && (List.range n).all (fun j => (d.buf.find (d.wr + j)).isSome)
      && !s.blockBusy l a n reef && !earlierWrites (r.issued.take k) a n reef
  match ks.find? ready with
  | some k => some (k, true)
  | none =>
    let read := fun (k : Nat) => match r.issued[k]? with
      | none => false
      | some d =>
        let a := descAddr d.word d.rd false
        let reef := Desc.srcReef.get d.word == 1
        let n := descPiece d.word d.rd false
        decide (d.rd < descTotal d.word) && !s.blockBusy l a n reef && !earlierWrites (r.issued.take k) a n reef
    ((ks.find? (fun k => (r.issued[k]?).any (fun d => decide (d.rd < descTotal d.word)))).filter read).map (fun k => (k, false))

/-- The requests that count against the lane's share of a pool (R146). -/
def State.laneShare (s : State) (l : Nat) (reef : Bool) : Nat := (s.ferry.requests.filter (fun q => q.lane == l && q.reef == reef)).length
def State.poolUsed (s : State) (reef : Bool) : Nat := (s.ferry.requests.filter (fun q => q.reef == reef)).length
def State.poolRoom (s : State) (l : Nat) (reef : Bool) : Bool :=
  if reef then decide (s.poolUsed true < 16384 ∧ s.laneShare l true < 512)
  else decide (s.poolUsed false < 131072 ∧ s.laneShare l false < (if l < 256 then 4096 else 16384))

/-- A requester as a number: a lane's own, or 256 and more for a Quay. -/
def requesterPlace : Requester → Nat
  | .lane l => l
  | .quay d => 256 + d

/-- Another requester has been ready longer for a slot of the pool and has room in its own share (R147; log entry 110, DEDUCED). -/
def State.mustWait (s : State) (q : Requester) (reef : Bool) : Bool :=
  (s.ferry.slotWait.takeWhile (fun w => !(w.1 == q))).any (fun w => w.2 == reef && s.poolRoom (requesterPlace w.1) reef)

/-- A requester takes its place among those that wait for a slot (R147). -/
def State.joinWait (s : State) (q : Requester) (reef : Bool) : State :=
  if s.ferry.slotWait.any (fun w => w.1 == q) then s else { s with ferry := { s.ferry with slotWait := s.ferry.slotWait ++ [(q, reef)] } }

def State.leaveWait (s : State) (q : Requester) : State := { s with ferry := { s.ferry with slotWait := s.ferry.slotWait.filter (fun w => !(w.1 == q)) } }

/-- A request goes out; a read of a partner's Reef as a message to it (R402). -/
def State.sendRequest (s : State) (q : Request) : State :=
  let s : State := { s with ferry := { s.ferry with requests := s.ferry.requests ++ [q], nextReq := s.ferry.nextReq + 1 } }
  if q.reef ∧ !q.write ∧ reefPartner q.addr ≠ 0 then
    match s.pkgAt (reefPartner q.addr - 1) with
    | some pkg => s.sendData pkg Dk.reefAsk (q.addr % 2 ^ 47) (leBytes 8 q.tag ++ leBytes 4 q.len)
    | none => s
  else s

/-- The lane issues one request of its descriptor `k`; an access to a region that is FILLING waits (R217). -/
def State.issueRequest (s : State) (l : Nat) (r : LaneRun) (k : Nat) (write : Bool) : State :=
  match r.issued[k]? with
  | none => s
  | some d =>
    let lin := if write then d.wr else d.rd
    let n := descPiece d.word lin write
    let reef := (if write then Desc.dstReef else Desc.srcReef).get d.word == 1
    if !reef && s.filling (descAddr d.word lin write) n then s else
    let lost := reef && reefPartner (descAddr d.word lin write) == 0 && (match s.reefPlace (descAddr d.word lin write) with | some (p, _, _) => s.modState p != Ms.admitted | none => true)
    if lost then s.laneFails l St.reefLost 0 (descAddr d.word lin write) k d.word lin else
    if !s.poolRoom l reef || s.mustWait (.lane l) reef then (s.joinWait (.lane l) reef).setCh (Ch.laneState + 256 * l) 3 else
    let q : Request := { tag := s.ferry.nextReq, lane := l, desc := k, write := write, addr := descAddr d.word lin write, len := n, lin := lin, retries := 0, reef := reef,
                         data := if write then (List.range n).map (fun j => d.buf.getD (lin + j) 0) else [], moved := false }
    let d' := if write then { d with wr := lin + n, inFlight := d.inFlight + 1, buf := d.buf.filter (fun e => !(decide (lin ≤ e.1 ∧ e.1 < lin + n))) }
      else { d with rd := lin + n, inFlight := d.inFlight + 1 }
    (((s.modLane l (fun r => { r with issued := r.issued.set k d' })).sendRequest q).leaveWait (.lane l)).setCh (Ch.laneState + 256 * l) 1

/-- A descriptor begins: nothing of it has been issued. -/
def IssuedDesc.begin_ (addr word : Nat) (role : DescRole) : IssuedDesc := ⟨addr, word, 0, 0, [], 0, false, role⟩

/-- Every earlier descriptor has issued its last request (R159). -/
def LaneRun.allIssued (r : LaneRun) : Bool := r.issued.all (fun d => decide (descTotal d.word ≤ d.rd) && (match d.role with | .stowTile _ _ => true | _ => decide (descTotal d.word ≤ d.wr)))

/-- A descriptor of an item's chain is taken up, if its pacing and ORDERED let it. -/
def State.takeDesc (s : State) (l : Nat) (r : LaneRun) (c addr w : Nat) (next : NextDesc) : State :=
  let wait := s.setCh (Ch.laneState + 256 * l) 2
  if Desc.ordered.get w = 1 ∧ !r.issued.isEmpty then s
  else if Desc.pace.get w = 1 ∧ !r.ticked then wait
  else if Desc.pace.get w = 2 ∧ s.chf c ChanRec.credits = 0 then wait
  else
    let s := if Desc.pace.get w = 2 then s.setChf c ChanRec.credits (s.chf c ChanRec.credits - 1) else s
    let s := if addr = 0 then s else s.setChf c ChanRec.curDesc addr
    State.settleLane 64 ((s.modLane l (fun r => { r with issued := r.issued ++ [IssuedDesc.begin_ addr w .copy], next := next, ticked := false })).setCh (Ch.laneState + 256 * l) 1) l

/-! ### Staging (R176) -/

/-- Staging slots in use or promised to the running items. -/
def State.slotsReserved (s : State) : Nat :=
  (s.ferry.items.map (fun i => if !(s.ferry.lanes.any (fun e => e.2.item == i.id)) then 0 else match i.work with
    | .prefetch _ _ _ w => w
    | .fetch c => (match s.consumer c with
      | some c => if s.residence c.stream = Rs.reef ∨ s.residence c.stream = Rs.toHarbour then max c.look 1 else 0
      | none => 0)
    | _ => 0)).foldl (· + ·) 0

/-- Slots that hold a tile, or for which one is on its way. -/
def State.slotsHeld (s : State) : List Nat :=
  s.streams.flatMap (fun e => e.2.staged.vals)
  ++ s.ferry.lanes.flatMap (fun e => e.2.issued.filterMap (fun d => match d.role with | .stageTile _ _ k => some k | _ => none))

def State.freeSlot (s : State) : Option Nat :=
  let used := s.slotsHeld
  (List.range (min (s.ch Ch.stageSlots) (used.length + 1))).find? (fun k => !used.contains k)

/-- Tiles of a stream that are staged or on their way. -/
def State.stagingOf (s : State) (n : Nat) : List Nat :=
  (s.aux n).staged.keys ++ s.ferry.lanes.flatMap (fun e => e.2.issued.filterMap (fun d => match d.role with | .stageTile m t _ => if m = n then some t else none | _ => none))

/-- The block of a tile on the Reef: its place and length (R185, R225). -/
def State.reefBlock (s : State) (n t : Nat) : Nat × Nat :=
  let seg := s.sf n StreamRec.dataBase + t % 20 * 32 * s.segGranules n
  if s.cls n = Cl.lossy then (seg + 32 * fixedGranules (s.rate n) * (t / 20), 32 * fixedGranules (s.rate n))
  else if s.cls n = Cl.raw then (seg + 4096 * (t / 20), 4096)
  else
    let e := s.entry n t
    (seg + 32 * IndexEnt.offset.get e, 32 * (IndexEnt.lenM1.get e + 1))

/-- A tile is staged into a slot; a failing sector of its index entry ends the item. -/
def State.stageNext (s : State) (l n t : Nat) (next : NextDesc) : State :=
  match (if hasIndex (s.cls n) then s.failing (s.entryAddr n t) 8 else none) with
  | some k => (s.sectorDetected k n t (some (s.sf n StreamRec.context))).laneFails l St.detected 0 (256 * k) ((s.lane l).map (fun r => r.issued.length) |>.getD 0) 0 0
  | none =>
    match s.freeSlot with
    | none => s
    | some slot =>
      let b := s.reefBlock n t
      let d := IssuedDesc.begin_ 0 (builtDesc b.1 (s.slotAddr slot) b.2 true false) (.stageTile n t slot)
      s.modLane l (fun r => { r with issued := r.issued ++ [d], next := next })

/-! ### The tiles of built items -/

/-- Bytes of a stream's delivery in all: of the stored representation, or of the tensor. -/
def State.rangeBytes (s : State) (n : Nat) : Nat :=
  if s.cls n = Cl.regen ∨ s.cls n = Cl.drop then s.sf n StreamRec.byteLength else recStoredBytes (s.cls n) (s.streamRec n)

/-- Output tile `j` of a delivery to memory, once it is there: no byte past the end is written. -/
def State.writeTile (s : State) (l : Nat) (c : Consumer) (j : Nat) : State :=
  match s.outTile c j with
  | none => s
  | some data =>
    let n := min 4096 (s.rangeBytes c.stream - 4096 * (c.first + j))
    let w := builtDesc 0 (c.dest + 4096 * j) n false false
    let buf := (List.zip (List.range n) data).foldr (fun (p : Nat × Byte) (m : SMap Byte) => (p.1, p.2) :: m) []
    let d : IssuedDesc := { IssuedDesc.begin_ 0 w (.fetchTile c.id j) with rd := n, buf := buf }
    let s := s.modLane l (fun r => { r with issued := r.issued ++ [d], next := if j + 1 < c.count then .tile (j + 1) else .done })
    let s := s.modConsumer c.id (fun c => { c with filled := c.filled + 1 })
    match s.consumer c.id with | some c => s.freeEntries c | none => s

/-- The next descriptor of a lane's item is taken up, at a boundary that no STOP or shadow claims. `m` is what the fetch of a descriptor meets once its retries are spent. -/
def State.nextDescriptor (s : State) (l : Nat) (r : LaneRun) (i : WorkItem) (m : MemResult) : State :=
  let c := i.channel
  let k := r.issued.length
  if s.chf c ChanRec.state = Cn.stopping ∨ (i.armedChain ∧ s.chf c ChanRec.shadowValid = 1) then s else
  match r.next with
  | .done => s
  | .at a =>
    if s.filling a 64 then s else
    match m, s.failing a 64 with
    | .pageFault _, _ => s.laneFails l St.pageFault 3 a k 0 0
    | .busError _, _ => s.laneFails l St.busError 3 a k 0 0
    | .ok, some sec => (s.sectorFound sec (some (s.chf c ChanRec.context))).laneFails l St.detected 3 a k 0 0
    | .ok, none =>
      let w := s.rdNat a 64
      if i.armedChain ∧ !s.descValid c w then s.laneFails l St.badEncoding 2 a k w 0
      else s.takeDesc l r c a w (if Desc.nextF.get w = 0 then .done else .at (Desc.nextF.get w))
  | .built [] => s.modLane l (fun r => { r with next := .done })
  | .built (w :: ws) => s.takeDesc l r c 0 w (if ws.isEmpty then .done else .built ws)
  | .tile t =>
    match i.work with
    | .stow n first count src =>
      let k := min 4096 (recStoredBytes (s.cls n) (s.streamRec n) - 4096 * t)
      let d := IssuedDesc.begin_ 0 (builtDesc (src + 4096 * (t - first)) 0 k false false) (.stowTile n t)
      s.modLane l (fun r => { r with issued := r.issued ++ [d], next := if t + 1 < first + count then .tile (t + 1) else .done })
    | .prefetch n first count window =>
      if window ≤ (s.stagingOf n).length then s
      else s.stageNext l n t (if t + 1 < first + count then .tile (t + 1) else .done)
    | .fetch id =>
      (match s.consumer id with
       | none => s
       | some k =>
         let reef := s.queued k && (s.residence k.stream == Rs.reef || s.residence k.stream == Rs.toHarbour)
         let staging := s.stagingOf k.stream
         let want := (List.range (max k.look 1)).map (fun j => k.first + k.asked + j) |>.find? (fun t => decide (t < k.first + k.count) && !staging.contains t)
         match (if reef ∧ staging.length < max k.look 1 then want else none) with
         | some u => s.stageNext l k.stream u r.next
         | none => if k.ring.isNone then s.writeTile l k t else s)
    | _ => s

/-- A lane issues what it can next: a request, or the next descriptor. -/
def State.laneIssues (s : State) (l : Nat) (m : MemResult) : State :=
  match s.lane l with
  | none => s
  | some r =>
    if r.failing.isSome then s else
    match s.item r.item with
    | none => s
    | some i =>
      match s.nextRequest l r with
      | some (k, w) => s.issueRequest l r k w
      | none => State.settleLane 64 (s.nextDescriptor l r i m) l

/-! ### Weight feeds of the Quays (R180, R181) -/

/-- The next 256-byte read of a weight feed of a die: its delivery and the piece. -/
def State.weightPiece (s : State) (d : Nat) : Option (Consumer × Nat) :=
  s.skerry.consumers.findSome? (fun c =>
    if !(c.shard && c.die == d && decide (c.asked < c.count) && s.inWindow c c.asked) then none else
    let out := (s.ferry.requests.filter (fun q => q.lane == 256 + d && q.desc == c.id)).map Request.lin
    ((List.range 16).find? (fun i => (c.buf.find (16 * c.asked + i)).isNone && !out.contains (16 * c.asked + i))).map (fun i => (c, 16 * c.asked + i)))

/-- A Quay issues the next read of its weight feed; tiles that are resident are passed over. -/
def State.quayIssues (s : State) (d : Nat) : State :=
  match s.skerry.consumers.find? (fun c => c.shard && c.die == d && decide (c.asked < c.count)) with
  | none => s.leaveWait (.quay d)
  | some c =>
    if s.skips c c.asked then State.deliver 1024 (s.modConsumer c.id (fun c => { c with asked := c.asked + 1 })) c.id else
    match s.weightPiece d with
    | none => s.modConsumer c.id (fun c => if (List.range 16).all (fun i => (c.buf.find (16 * c.asked + i)).isSome) then { c with asked := c.asked + 1 } else c)
    | some (c, p) =>
      if !s.poolRoom (256 + d) false || s.mustWait (.quay d) false then s.joinWait (.quay d) false else
      let a := s.slotBase c.stream c.version + 4096 * c.first + 256 * p
      if s.filling a 256 then s else
      let s := s.leaveWait (.quay d)
      let s := s.sendRequest { tag := s.ferry.nextReq, lane := 256 + d, desc := c.id, write := false, addr := a, len := 256, lin := p, retries := 0, reef := false, data := [], moved := false }
      if p % 16 = 15 then s.modConsumer c.id (fun c => { c with asked := c.asked + 1 }) else s

/-- REQUEST_SLOT_GRANT (R147): a lane or a Quay that has something to issue gets a slot of the pool and issues it, or takes its place among those that wait; a lane with nothing to issue fetches its next descriptor. -/
def execRequestSlotGrant (q : SlotGrant) (s : State) : Host.Outcome State Fault Refusal :=
  match q.requester with
  | .lane l => .next (s.laneIssues l q.mem)
  | .quay d => .next (s.quayIssues d)

end Sys2Proof.Machine
end

