-- ==== Sys2Proof/Machine/Items.lean ====
section
/-! DEFINITION. What work reaches the Ferries and how it goes on: responses (R161 to R163), timers and shadows (R159, R164, R165), CHANNEL_CONTROL (R150) and ARM (R165), the commands STOW, FETCH and MOVE, and the tasks REEF_WRITE and PREFETCH (R175 to R177, R351). -/

namespace Sys2Proof.Machine

/-! ### REQUEST_RESPONSE -/

def State.request (s : State) (tag : Nat) : Option Request := s.ferry.requests.find? (fun q => q.tag == tag)
def State.dropRequest (s : State) (tag : Nat) : State :=
  { s with ferry := { s.ferry with requests := s.ferry.requests.filter (fun q => q.tag != tag) } }

/-- The word of the descriptor that a request belongs to. -/
def LaneRun.wordOf (r : LaneRun) (k : Nat) : Nat := match r.issued[k]? with | some d => d.word | none => 0

/-- A request has come back: one fewer is in flight for its descriptor. -/
def State.returned (s : State) (q : Request) : State :=
  (s.dropRequest q.tag).modLane q.lane (fun r => { r with issued := r.issued.modify q.desc (fun d => { d with inFlight := d.inFlight - 1 }) })

/-- The bytes a read returned go to their places in the loop, each in its swap unit (R154). -/
def State.landRead (s : State) (q : Request) (bs : List Byte) : State :=
  let put := fun (d : IssuedDesc) => (List.zip (List.range bs.length) bs).foldl (fun (m : SMap Byte) p => m.put (swapped d.word (q.lin + p.1)) p.2) d.buf
  s.modLane q.lane (fun r => { r with issued := r.issued.modify q.desc (fun d => { d with buf := put d }) })

/-- What a read finds where its response is good: the bytes, or the status its item ends with; nothing while a partner has not answered. -/
def State.readBack (s : State) (q : Request) : Option (State × Except Nat (List Byte)) :=
  if q.reef then
    if reefPartner q.addr = 0 then some (s.reefRead q.addr q.len true)
    else (s.inbox (.reefRead q.tag)).map (fun bs => (s.takeInbox (.reefRead q.tag), match unpackBlock (q.addr % 4096) bs with | some bs => .ok bs | none => .error St.detected))
  else match s.failing q.addr q.len with
    | some k => some (s.sectorFound k none, .error St.detected)
    | none => some (s, .ok (s.rd q.addr q.len))

/-- A write whose response is good has been made, unless a merge or the module forbids it (R155, R330). -/
def State.writeBack (s : State) (q : Request) : State × Option Nat :=
  if q.reef then
    if reefPartner q.addr = 0 then s.reefStore q.addr q.data true
    else match s.pkgAt (reefPartner q.addr - 1) with
      | some pkg => (s.sendData pkg Dk.reefWrite (q.addr % 2 ^ 47) (packBlock (q.addr % 4096) q.data), none)
      | none => (s, some St.noObject)
  else match s.mergeFails q.addr q.len with
    | some k => (s.sectorFound k none, some St.detected)
    | none => (s.put q.addr q.data, none)

/-- The HALT_CAUSE with which a status ends an item: a bus error that is not retried leaves the channel HALTED (R162, R346). -/
def haltOf (status : Nat) : Nat := if status = St.busError then 1 else 0

/-- A good response of a lane's request. -/
def State.goodResponse (s : State) (q : Request) (r : LaneRun) : State :=
  let w := r.wordOf q.desc
  if q.write then
    match s.writeBack q with
    | (s, none) => s.returned q
    | (s, some st) => (s.returned q).laneFails q.lane st (haltOf st) q.addr q.desc w q.lin
  else match s.readBack q with
    | none => s
    | some (s, .ok bs) => (if r.failing.isSome then s else s.landRead q bs).returned q
    | some (s, .error st) => (s.returned q).laneFails q.lane st 0 q.addr q.desc w q.lin

/-- A bus error: retried alone up to RETRY_LIMIT times, and then the end of the item with the channel HALTED (R162). -/
def State.busResponse (s : State) (q : Request) (r : LaneRun) : State :=
  let w := r.wordOf q.desc
  let c := (s.item r.item).map WorkItem.channel |>.getD 0
  if s.ch Ch.retryLimit ≤ q.retries ∨ r.failing.isSome then (s.returned q).laneFails q.lane St.busError 1 q.addr q.desc w q.lin
  else
    let first := (r.issued[q.desc]?).any (fun d => !d.retried)
    let s : State := { s with ferry := { s.ferry with requests := s.ferry.requests.map (fun x => if x.tag = q.tag then { x with retries := x.retries + 1, moved := false } else x) } }
    let s := s.modLane q.lane (fun r => { r with issued := r.issued.modify q.desc (fun d => { d with retried := true }) })
    let s := ((s.countSticky (Ch.laneRetries + 256 * q.lane)).countSticky Ch.ferryRetries).setChf c ChanRec.retried 1
    if first then s.raise ⟨0x0401, c, q.addr, Desc.descTag.get w, some (s.chf c ChanRec.context), []⟩ else s

/-- The end of a lane that was failing, once its last request is back; otherwise what has completed completes. -/
def State.afterResponse (s : State) (l : Nat) : State :=
  match s.lane l with
  | none => s
  | some r =>
    match r.failing with
    | none => State.settleLane 64 s l
    | some st => if s.ferry.requests.any (fun q => q.lane == l) then s else
      match s.item r.item with
      | some i => s.itemFails l r i st
      | none => s.idleLane l

/-- A response to a Quay's read of a weight shard (log entry 61, DEDUCED). -/
def State.quayResponse (s : State) (q : Request) (status : RespStatus) : State :=
  let s := s.dropRequest q.tag
  match s.consumer q.desc with
  | none => s
  | some c =>
    match status with
    | .ok =>
      (match s.failing q.addr q.len with
       | some k => (s.sectorFound k none).sourceFails c.source St.detected
       | none => (State.deliver 1024 (s.modConsumer c.id (fun c => { c with buf := c.buf.put q.lin (s.rd q.addr q.len) })) c.id).fedDie c.die)
    | .busError => s.sourceFails c.source St.busError
    | .pageFault => s.sourceFails c.source St.pageFault
    | .reefLost => s.sourceFails c.source St.reefLost

/-- The port still moves the request's sectors, or holds it for a relocation (R333, R349). -/
def State.onLink (s : State) (q : Request) : Bool :=
  q.reef && s.ports.any (fun (e : Nat × Port) => e.2.transfers.any (fun t => t.req == q.tag) || e.2.waiting.contains q.tag)

/-- A request's response (R161, R162). -/
def State.respond (s : State) (tag : Nat) (status : RespStatus) : State :=
  match s.request tag with
  | none => s
  | some q =>
    if s.onLink q ∧ status = .ok then s else
    if 256 ≤ q.lane then s.quayResponse q status else
    match s.lane q.lane with
    | none => s.dropRequest tag
    | some r =>
      let w := r.wordOf q.desc
      let s := match status with
        | .ok => s.goodResponse q r
        | .busError => s.busResponse q r
        | .pageFault => (s.returned q).laneFails q.lane St.pageFault 0 q.addr q.desc w q.lin
        | .reefLost => (s.returned q).laneFails q.lane St.reefLost 0 q.addr q.desc w q.lin
      s.afterResponse q.lane

/-- A request ends with a status that the port gives it (R330, R349). -/
def State.portEnds (s : State) (tag status : Nat) : State :=
  match s.request tag with
  | none => s
  | some q => match s.lane q.lane with
    | none => s.dropRequest tag
    | some r => ((s.returned q).laneFails q.lane status (haltOf status) q.addr q.desc (r.wordOf q.desc) q.lin).afterResponse q.lane

/-- REQUEST_RESPONSE. A DISABLE of a registered region may have waited for it (R383). -/
def execRequestResponse (tag : Nat) (status : RespStatus) (s : State) : Host.Outcome State Fault Refusal := .next (s.respond tag status).closeRegions

/-! ### Timers, shadows, stops (R159, R164, R165) -/

/-- The pacing of what a lane would issue next. -/
def State.nextPace (s : State) (r : LaneRun) : Option (Nat × Nat) :=
  match r.next with
  | .at a => if (s.failing a 64).isSome then none else let w := s.rdNat a 64; some (Desc.pace.get w, Desc.timer.get w)
  | _ => none

/-- PACING_TICK (R159): a tick lets the descriptors go that wait on the timer with all before them issued; it is not stored. -/
def execPacingTick (t : Nat) (s : State) : Host.Outcome State Fault Refusal :=
  if 16 ≤ t ∨ s.ch (Ch.timerPeriod + t) = 0 then .next s
  else .next { s with ferry := { s.ferry with lanes := s.ferry.lanes.map (fun e =>
    if s.nextPace e.2 = some (1, t) ∧ e.2.allIssued then (e.1, { e.2 with ticked := true }) else e) } }

/-- Nothing keeps the lane from its next descriptor but a tick or a credit (R160). -/
def State.pacedWait (s : State) (l : Nat) : Bool :=
  match s.lane l with
  | none => false
  | some r =>
    match s.item r.item with
    | none => false
    | some i =>
      r.failing.isNone && s.chf i.channel ChanRec.state == Cn.running && !(i.armedChain && s.chf i.channel ChanRec.shadowValid == 1) && r.allIssued
      && (match s.nextPace r with
        | some (1, _) => !r.ticked
        | some (2, _) => s.chf i.channel ChanRec.credits == 0
        | _ => false)

/-- The lane that runs a channel's item. -/
def State.laneOf (s : State) (c : Nat) : Option (Nat × LaneRun) :=
  match s.headItem c with
  | none => none
  | some i => s.ferry.lanes.find? (fun e => e.2.item == i.id)

/-- SHADOW_TAKEOVER (R165): at a boundary, with everything issued complete, the armed chain goes on at SHADOW. -/
def execShadowTakeover (c : Nat) (s : State) : Host.Outcome State Fault Refusal :=
  match s.headItem c, s.laneOf c with
  | some i, some (l, r) =>
    if !i.armedChain ∨ s.chf c ChanRec.state ≠ Cn.running ∨ s.chf c ChanRec.shadowValid = 0 ∨ !r.issued.isEmpty ∨ r.failing.isSome then .next s
    else
      let a := s.chf c ChanRec.shadow
      .next ((s.setFlds (s.chan c) [(ChanRec.shadowValid, 0), (ChanRec.curDesc, a)]).modLane l (fun r => { r with next := if a = 0 then .done else .at a, ticked := false }))
  | _, _ => .next s

/-- The descriptor has issued a request, or has none to issue; one whose bytes a Skerry has handed over stands as begun (log entry 87, DEDUCED). -/
def IssuedDesc.begun (d : IssuedDesc) : Bool :=
  d.rd != 0 || d.wr != 0 || descTotal d.word == 0 || (match d.role with | .fetchTile _ _ => true | _ => false)

/-- A boundary: what was taken up and has issued nothing is put back (R164, R165). -/
def LaneRun.rollBack (r : LaneRun) (work : ItemWork) : LaneRun :=
  let kept := r.issued.takeWhile IssuedDesc.begun
  let back := r.issued.drop kept.length
  match back with
  | [] => r
  | d :: _ => { r with issued := kept, next :=
      match work with
      | .fetch _ => r.next
      | _ => match d.role with
        | .copy => if d.addr ≠ 0 then .at d.addr else .built (back.map IssuedDesc.word ++ (match r.next with | .built ds => ds | _ => []))
        | .stowTile _ t => .tile t
        | .stageTile _ t _ => .tile t
        | .fetchTile _ _ => r.next }

/-- The credits that descriptors put back had taken (R159). -/
def LaneRun.creditsBack (r : LaneRun) : Nat :=
  ((r.issued.drop (r.issued.takeWhile IssuedDesc.begun).length).filter (fun d => Desc.pace.get d.word == 2)).length

/-- A running channel comes to a boundary: descriptors that have issued nothing are put back with their credits. -/
def State.rollBack (s : State) (c : Nat) : State :=
  match s.headItem c, s.laneOf c with
  | some i, some (l, r) =>
    let s := if r.creditsBack = 0 then s else s.setChf c ChanRec.credits (min 65535 (s.chf c ChanRec.credits + r.creditsBack))
    s.modLane l (fun r => r.rollBack i.work)
  | _, _ => s

/-- An item whose transfer goes in one piece: once a lane has begun it, all of it has issued. -/
def WorkItem.messages (i : WorkItem) : Bool := match i.work with | .exchange _ => true | .carry _ => true | _ => false

/-- CHANNEL_STOPPED (R164): every issued descriptor of a STOPPING channel has completed. -/
def execChannelStopped (c : Nat) (s : State) : Host.Outcome State Fault Refusal :=
  match s.headItem c, s.laneOf c with
  | some i, some (l, r) =>
    if s.chf c ChanRec.state ≠ Cn.stopping ∨ !r.issued.isEmpty ∨ r.failing.isSome ∨ i.messages then .next s
    else
      let s := s.modItem i.id (fun i => { i with rest := some r.next })
      let s := match r.next with | .at a => s.setChf c ChanRec.curDesc a | _ => s
      .next ((s.setChf c ChanRec.state Cn.stopped).idleLane l)
  | _, _ => .next s

/-! ### CHANNEL_CONTROL (R150) -/

abbrev ChanCtl.channel : Fld := ⟨47, 32⟩

/-- An action of CHANNEL_CONTROL: its number, the states that have a row for it, the checks of its parameters, its effect; an accepted one wakes the domains (R429). -/
def channelDo (a : Nat) (states : State → Nat → Bool) (params : State → Nat → Bool) (effect : Nat → State → State) (r : Req) (s : State) : State :=
  if !actionIs r actF a then s else
  let c := ChanCtl.channel.get r.value
  s.chartDo 0x5001 0 r
    { range := onlyBits r.value [ChanCtl.channel, actF] && decide (c < s.ch Ch.chtableCount)
      state := states s c
      params := params s c
      effect := fun s => (effect c s).wake }

def State.chanIs (s : State) (c : Nat) (l : List Nat) : Bool := l.contains (s.chf c ChanRec.state)

/-- CHANNEL_ENABLE: CONTEXT exists, every RSVD and C field is zero, and CREDITS is zero from then on; a chain armed before is ready at once (R150, R159, R165). -/
def execChannelEnable (r : Req) (s : State) : Host.Outcome State Fault Refusal :=
  .next (channelDo 1 (fun s c => s.chanIs c [Cn.disabled] && (s.failing (s.chan c) 64).isNone)
    (fun s c => let w := s.rdNat (s.chan c) 64; s.contextExists (ChanRec.context.get w) && (ChanRec.rsvd ++ ChanRec.cFields).all (fun f => f.get w == 0))
    (fun c s => if (s.itemsOf c).isEmpty then s.setFlds (s.chan c) [(ChanRec.credits, 0), (ChanRec.state, Cn.idle)]
      else (s.headReady c).setFlds (s.chan c) [(ChanRec.credits, 0), (ChanRec.state, Cn.ready)]) r s)

/-- A loaded plan names the channel. -/
def State.planUsesChannel (s : State) (c : Nat) : Bool :=
  s.planLoaded && (List.range s.taskCount).any (fun t =>
    let k := s.tf t TaskRec.taskKind
    (k == Tk.reefWrite || k == Tk.prefetch || k == Tk.exchange) && s.tf t TaskRec.channel == c)

/-- CHANNEL_DISABLE: from IDLE, with no loaded plan that names the channel. -/
def execChannelDisable (r : Req) (s : State) : Host.Outcome State Fault Refusal :=
  .next (channelDo 2 (fun s c => s.chanIs c [Cn.idle] && !s.planUsesChannel c) (fun _ _ => true) (fun c s => s.setChf c ChanRec.state Cn.disabled) r s)

/-- CUR_DESC of an item that has not begun. -/
def firstDesc (i : WorkItem) : Nat := match i.work with | .chain a => a | _ => 0

/-- CHANNEL_STOP (R164). -/
def execChannelStop (r : Req) (s : State) : Host.Outcome State Fault Refusal :=
  .next (channelDo 3 (fun s c => s.chanIs c [Cn.ready, Cn.running]) (fun _ _ => true)
    (fun c s =>
      if s.chf c ChanRec.state = Cn.running then (s.rollBack c).setChf c ChanRec.state Cn.stopping
      else s.setFlds (s.chan c) [(ChanRec.state, Cn.stopped), (ChanRec.curDesc, match s.headItem c with | some i => firstDesc i | none => 0)]) r s)

/-- CHANNEL_RESUME: a stopped item is READY ahead of the other ready work of its class, from its shadow if one is armed; a halted channel takes up what waits (R150, R165). -/
def State.resumeChannel (s : State) (c : Nat) : State :=
  if s.chf c ChanRec.state = Cn.halted then
    (s.headReady c).setFlds (s.chan c) [(ChanRec.haltCause, 0), (ChanRec.state, if (s.itemsOf c).isEmpty then Cn.idle else Cn.ready)]
  else
    let s := s.setChf c ChanRec.state Cn.ready
    match s.headItem c with
    | none => s.setChf c ChanRec.state Cn.idle
    | some i =>
      let s := s.modItem i.id (fun i => { i with ready := 0 })
      if i.armedChain ∧ s.chf c ChanRec.shadowValid = 1 then
        let a := s.chf c ChanRec.shadow
        (s.modItem i.id (fun i => { i with work := .chain a, rest := none })).setFlds (s.chan c) [(ChanRec.shadowValid, 0), (ChanRec.curDesc, a)]
      else s

/-- CHANNEL_RESUME. -/
def execChannelResume (r : Req) (s : State) : Host.Outcome State Fault Refusal :=
  .next (channelDo 4 (fun s c => s.chanIs c [Cn.stopped, Cn.halted]) (fun _ _ => true) (fun c s => s.resumeChannel c) r s)

/-- A work item that its channel gives up: reported, and its source ended (R161, R163, R166). -/
def State.endItem (s : State) (i : WorkItem) (status : Nat) : State := (s.endEarly status i).sourceFails i.source status

/-- The items of a channel end: the current one with a status, those that wait with another (R166). -/
def State.clearChannel (s : State) (c current waiting : Nat) : State :=
  let began := s.chf c ChanRec.state != Cn.ready && s.chf c ChanRec.state != Cn.halted
  let is := s.itemsOf c
  let s := match is with
    | [] => s
    | i :: rest => rest.foldl (fun (s : State) j => s.endItem j waiting) (s.endItem i (if began then current else waiting))
  s.setFlds (s.chan c) [(ChanRec.shadow, 0), (ChanRec.shadowValid, 0), (ChanRec.credits, 0)]

/-- CHANNEL_RESET (R166); HALT_CAUSE is cleared too (log entry 107, DEDUCED). -/
def execChannelReset (r : Req) (s : State) : Host.Outcome State Fault Refusal :=
  .next (channelDo 5 (fun s c => s.chanIs c [Cn.stopped, Cn.halted]) (fun _ _ => true)
    (fun c s => (s.clearChannel c St.groupAborted St.flushed).setFlds (s.chan c) [(ChanRec.state, Cn.idle), (ChanRec.haltCause, 0)]) r s)

/-- CLEAR_FLAGS. -/
def execClearFlags (r : Req) (s : State) : Host.Outcome State Fault Refusal :=
  .next (channelDo 6 (fun s c => !s.chanIs c [Cn.disabled]) (fun _ _ => true)
    (fun c s => s.setFlds (s.chan c) [(ChanRec.rearmOverrun, 0), (ChanRec.creditOverflow, 0), (ChanRec.retried, 0)]) r s)

/-- The effect of an ARM on a channel (R165). -/
def State.arm (s : State) (c a : Nat) : State :=
  let inChain := s.chanIs c [Cn.running, Cn.stopping, Cn.stopped] && (s.headItem c).any WorkItem.armedChain
  if !inChain then s.addItem c .armed (.chain a) 1 else
  let s := if s.chf c ChanRec.shadowValid = 1 then
      ((s.setChf c ChanRec.rearmOverrun 1).countSticky Ch.rearmOverruns).raise ⟨0x0403, c, s.chf c ChanRec.shadow, 0, some (s.chf c ChanRec.context), []⟩
    else s
  (if s.chf c ChanRec.state = Cn.running then s.rollBack c else s).setFlds (s.chan c) [(ChanRec.shadow, a), (ChanRec.shadowValid, 1)]

/-- ARM (R165): the write of ARM_DESC arms the channel that its path has chosen. -/
def execArm (r : Req) (s : State) : Host.Outcome State Fault Refusal :=
  let a := r.value
  let c := s.selected r.path Ch.armChannel
  .next (s.chartDo 0x5002 2 r
    { range := a % 64 == 0 && inHarbour a && decide (c < s.ch Ch.chtableCount)
      state := !s.chanIs c [Cn.halted]
      params := true
      effect := fun s => (s.arm c a).wake })

/-! ### STOW, FETCH, MOVE -/

/-- The tiles of a command's range; 0xFFFF_FFFF means to the end (R133). -/
def State.cmdTiles (s : State) (n first count : Nat) : Nat := if count = noRef then s.rangeTiles n - first else count

/-- A stream enters FILLING for a STOW command (R50, R65). -/
def State.fillForCmd (s : State) (n : Nat) : Started :=
  if s.stateOf n = Ss.filling then .filling s
  else s.startStream n (s.plan.stepsBegun - 1) ((s.producer n).getD 0)

/-- A STOW of a stream of no bytes: the stream goes through its production at once (R45, R50). -/
def State.stowNothing (s : State) (n : Nat) : State :=
  if s.sf n StreamRec.byteLength ≠ 0 ∨ !(s.stateOf n = Ss.unborn ∨ s.stateOf n = Ss.released) then s
  else if s.cls n = Cl.drop then (s.bornAgain n).setSf n StreamRec.state Ss.released
  else if s.cls n = Cl.regen then (s.bornAgain n).regenHeld n
  else match s.fillForCmd n with
    | .filling s => s.checkHeld n
    | _ => s

/-- STOW (R134, R187, R188): the tiles are read on the command's channel and stored. -/
def execStow (c : Nat) (s : State) : Host.Outcome State Fault Refusal :=
  match (s.cmd c Op.stow).filter (fun d => d.stage == .ready) with
  | none => .next s
  | some d =>
    let n := cmdGet d.word CmdStow.stream
    let first := cmdGet d.word CmdStow.tileFirst
    let count := s.cmdTiles n first (cmdGet d.word CmdStow.tileCount)
    if count = 0 then .next ((s.stowNothing n).endCmd d St.success 0)
    else if s.dispatched.any (fun e => decide (e.tag < c) && e.stage == .ready && cmdGet e.word Cmd.opcode == Op.stow && cmdGet e.word CmdStow.stream == n) then .next s
    else if s.cls n = Cl.drop ∨ s.cls n = Cl.regen then .next (s.endCmd d St.success 0)
    else if !(s.stateOf n = Ss.unborn ∨ s.stateOf n = Ss.released ∨ s.stateOf n = Ss.filling) then .next (s.endCmd d St.streamState (s.streamDetail n))
    else match s.fillForCmd n with
      | .waits => .next s
      | .failed s => .next (s.failCmd d St.capacity)
      | .filling s' =>
        let s' := if s.stateOf n = Ss.filling then s' else s'.startPasses n
        let s' := s'.modAux n (fun a => { a with nextTile := max a.nextTile (first + count) })
        .next ((s'.setStage c .underway 0).addItem (cmdGet d.word CmdStow.channel) (.cmd c) (.stow n first count (cmdGet d.word CmdStow.source)) (cmdGet d.word Cmd.urgency))

/-- FETCH (R134, R175, R240): a delivery to memory or to a command ring, carried by the command's channel. -/
def execFetch (c : Nat) (s : State) : Host.Outcome State Fault Refusal :=
  match (s.cmd c Op.fetch).filter (fun d => d.stage == .ready) with
  | none => .next s
  | some d =>
    let w := d.word
    let n := cmdGet w CmdFetch.stream
    let first := cmdGet w CmdFetch.tileFirst
    let count := s.cmdTiles n first (cmdGet w CmdFetch.tileCount)
    let kind := cmdGet w CmdFetch.destKind
    let look := cmdGet w CmdFetch.lookahead
    let ring := cmdGet w CmdFetch.dest % 65536
    if count = 0 then .next (s.endCmd d St.success 0)
    else if !s.fetchable n then .next (s.endCmd d St.streamState (s.streamDetail n))
    else if kind ≠ 0 ∧ !s.ringOn (kind - 1) ring then .next (s.endWith d St.dieLost 0)
    else
      let id := s.skerry.nextConsumer
      let k : Consumer := { Consumer.fresh with source := .cmd c, stream := n, first := first, count := count, look := look, die := kind - 1, ring := if kind = 0 then none else some ring }
      let k := { k with dest := cmdGet w CmdFetch.dest, transpose := cmdGet w CmdFetch.transpose == 1, drain := cmdGet w CmdFetch.toDrain == 1, entries := lookEntries look, channel := cmdGet w CmdFetch.channel }
      let k := { k with granted := !s.queued k }
      .next (((s.setStage c .underway 0).addConsumer k).addItem k.channel (.cmd c) (.fetch id) (cmdGet w Cmd.urgency))

/-- MOVE (R134): one chain of descriptors that Charov builds. -/
def execMove (c : Nat) (s : State) : Host.Outcome State Fault Refusal :=
  match (s.cmd c Op.move).filter (fun d => d.stage == .ready) with
  | none => .next s
  | some d =>
    let w := d.word
    let n := cmdGet w CmdMove.bytes
    if n = 0 then .next (s.endCmd d St.success 0)
    else .next ((s.setStage c .underway 0).addItem (cmdGet w CmdMove.channel) (.cmd c)
      (.built (builtMove (cmdGet w CmdMove.src) (cmdGet w CmdMove.dst) (cmdGet w CmdMove.srcReef == 1) (cmdGet w CmdMove.dstReef == 1) (n / 2 ^ 31 + 2) n)) (cmdGet w Cmd.urgency))

/-! ### REEF_WRITE (R51, R351) -/

/-- The granules of each segment that hold blocks, and the record copy (R225, R351). -/
def State.segUsed (s : State) (n h : Nat) : Nat :=
  (s.aux n).offsets.getD h 0 + (if h = 0 ∧ s.cls n = Cl.lossy then (s.aux n).copySize else 0)

/-- The Reef charge of a stream (R351); its reservation while it has not been stored in the step. -/
def State.reefCharge (s : State) (step n : Nat) : Nat :=
  if (s.aux n).bornStep = step + 1 ∧ s.stateOf n ≠ Ss.filling then ((List.range 20).map (fun h => roundUp (32 * s.segUsed n h) 4096)).foldl (· + ·) 0
  else 20 * roundUp (32 * s.segGranules n) 4096

/-- The REEF_WRITE of a stream. -/
def State.reefWriter (s : State) (n : Nat) : Option Nat := (List.range s.taskCount).find? (fun t => s.tf t TaskRec.taskKind == Tk.reefWrite && s.tf t TaskRec.stream == n)

/-- The Reef ledger at a task (R351). -/
def State.reefLedger (s : State) (step t : Nat) : Nat :=
  (((List.range s.streamCount).filter (fun n => match s.reefWriter n, s.lastConsumer n with
    | some w, some c => decide (w < t ∧ t ≤ c)
    | _, _ => false)).map (s.reefCharge step)).foldl (· + ·) 0

def State.granted (s : State) (q : Nat) : Nat := s.ch (Ch.borrowGranted + 256 * q)

/-- The lowest free extent of an area of the Reef. -/
def State.placeReef (s : State) (lo hi bytes : Nat) : Option Nat :=
  let used := s.allocs.filter (fun e => e.1 == 256)
  let starts := roundUp lo 4096 :: used.map (fun e => roundUp (e.2.1 + e.2.2) 4096)
  let free := fun a => decide (lo ≤ a ∧ a + bytes ≤ hi) && used.all (fun e => !overlap a bytes e.2.1 e.2.2)
  (starts.filter free).foldl (fun m a => match m with | none => some a | some b => some (min a b)) none

/-- An extent of the plan area, or of the borrowed areas in ascending position (R351, R403). -/
def State.reefExtent (s : State) (bytes : Nat) : Option Nat :=
  match s.placeReef (s.ch Ch.swBytes) s.reefCapacity bytes with
  | some a => some a
  | none => (List.range 8).findSome? (fun q => s.placeReef ((q + 1) * 2 ^ 47) ((q + 1) * 2 ^ 47 + s.granted q) bytes)

/-- The copies of a stream's segments to its Reef extent. -/
def State.reefDescs (s : State) (n : Nat) : List Nat :=
  (List.range 20).flatMap (fun h =>
    let k := 32 * s.segUsed n h
    let dst := s.sf n StreamRec.dataBase + h * 32 * s.segGranules n
    if s.cls n = Cl.lossy then
      let blocks := 32 * (s.aux n).offsets.getD h 0
      let rec_ := 32 * fixedGranules (s.rate n) * ceilDiv (s.tiles n) 20
      builtMove (s.segment n h) dst false true (blocks / 2 ^ 31 + 2) blocks
      ++ (if h = 0 then builtMove (s.segment n 0 + rec_) (dst + rec_) false true 2 (32 * (s.aux n).copySize) else [])
    else builtMove (s.segment n h) dst false true (k / 2 ^ 31 + 2) k)

/-- The work of a REEF_WRITE: the extent is taken, or the task's group aborted with CAPACITY. A range of no tiles moves nothing (R6); any other moves the whole stream (log entry 102, DESIGN CHOICE). -/
def State.reefWriteWork (x : TaskRef) (s : State) : State :=
  let n := s.tf x.task TaskRec.stream
  let room := s.planLimit + ((List.range 8).map s.granted).foldl (· + ·) 0
  let size := 640 * s.segGranules n
  let fail := fun (_ : Unit) => (s.raise ⟨0x010C, n, s.reefCharge x.step n, x.task, some (s.sf n StreamRec.context), []⟩).abortGroup x St.capacity
  if s.tileCount x.task n = 0 then s.finishRun x
  else if !(s.stateOf n == Ss.held || s.stateOf n == Ss.serving) then s.abortGroup x St.streamState
  else if room < s.reefLedger x.step x.task + s.reefCharge x.step n then fail ()
  else match s.reefExtent size with
    | none => fail ()
    | some a =>
      let s := s.setCh Ch.reefLedgerPeak (max (s.ch Ch.reefLedgerPeak) (s.reefLedger x.step x.task + s.reefCharge x.step n))
      let s := (s.take 256 a size).modAux n (fun z => { z with harbour := s.sf n StreamRec.dataBase })
      let s := s.setFlds (s.streamBase n) [(StreamRec.dataBase, a), (StreamRec.residence, Rs.toReef)]
      s.addItem (s.tf x.task TaskRec.channel) (.task x) (.reefWrite n) (s.tf x.task TaskRec.urgency)

/-- REEF_WRITE (R51, R351). -/
def execReefWrite (x : TaskRef) (s : State) : Host.Outcome State Fault Refusal :=
  .next (s.dispatch x Tk.reefWrite (fun _ => true) (State.reefWriteWork x))

/-! ### PREFETCH (R176, R177) -/

/-- The work of a PREFETCH: nothing to stage while the stream is in the Harbour. -/
def State.prefetchWork (x : TaskRef) (s : State) : State :=
  let n := s.tf x.task TaskRec.stream
  let r := s.residence n
  let count := s.tileCount x.task n
  if !s.fetchable n then s.abortGroup x St.streamState
  else if r = Rs.harbour ∨ r = Rs.toReef ∨ count = 0 then s.finishRun x
  else s.addItem (s.tf x.task TaskRec.channel) (.task x) (.prefetch n (s.tf x.task TaskRec.tileFirst) count (max 1 (s.tf x.task TaskRec.lookahead))) (s.tf x.task TaskRec.urgency)

/-- PREFETCH (R176, R177). -/
def execPrefetch (x : TaskRef) (s : State) : Host.Outcome State Fault Refusal :=
  .next (s.dispatch x Tk.prefetch (fun _ => true) (State.prefetchWork x))

/-! ### A lane takes an item (R144, R176) -/

/-- The slots that an item reserves when it starts; a FETCH with LOOKAHEAD 0 one (R176; log entry 108, DEDUCED). -/
def State.slotsFor (s : State) (i : WorkItem) : Nat :=
  match i.work with
  | .prefetch _ _ _ w => w
  | .fetch c => (match s.consumer c with
    | some c => if s.residence c.stream = Rs.reef ∨ s.residence c.stream = Rs.toHarbour then max c.look 1 else 0
    | none => 0)
  | _ => 0

/-- What a lane issues first for an item: what a STOP left, or the beginning of its chain. -/
def State.firstNext (s : State) (i : WorkItem) : NextDesc :=
  match i.rest with
  | some n => n
  | none => match i.work with
    | .reefWrite n => (match s.reefDescs n with | [] => .done | ds => .built ds)
    | .fetch c => .tile ((s.consumer c).map Consumer.filled |>.getD 0)
    | _ => i.start

/-- A lane takes its next item and begins it; one that finds too few staging slots waits. -/
def State.laneTakes (s : State) (l : Nat) : State :=
  if 256 ≤ l ∨ (s.lane l).isSome then s else
  match s.nextItem l with
  | none => s
  | some i =>
    if s.ch Ch.stageSlots < s.slotsReserved + s.slotsFor i then s else
    let next := s.firstNext i
    let s := s.runItem l i next
    let s := match next with | .at a => s.setChf i.channel ChanRec.curDesc a | _ => s
    State.settleLane 64 s l

/-! ### INGEST -/

/-- Room that a Skerry has made lets handles of ring 0 go on, and the tiles that a lane has read and holds (R15). -/
def State.roomFreed (s : State) : State :=
  let s := s.routeAll
  let holds := fun (e : Nat × LaneRun) => e.2.issued.any (fun d => match d.role with | .stowTile _ _ => true | _ => false)
  ((s.ferry.lanes.filter holds).map Prod.fst).foldl (fun (s : State) l => State.settleLane 64 s l) s

/-- INGEST (R198): a Skerry codes, encrypts, checks and writes one tile. -/
def execIngest (h : Nat) (s : State) : Host.Outcome State Fault Refusal := .next (s.ingest h).roomFreed

end Sys2Proof.Machine
end

