-- ==== Sys2Proof/Machine/Engine.lean ====
section
/-! DEFINITION. A Shoal engine at work on a registered program: its start, one instruction, its failure, what a unit's output becomes (R251 to R253, R258, R273). -/

namespace Sys2Proof.Machine

def State.engine (s : State) (e : Nat) : Engine := s.engines.getD e Engine.reset
def State.setEngine (s : State) (e : Nat) (g : Engine) : State := { s with engines := s.engines.put e g }

/-- The engine is in service and free. -/
def State.engineFree (s : State) (e : Nat) : Bool := decide (e < 40) && (s.engine e).run.isNone && s.ch (Ch.engineState + 256 * e) == 0

/-- The entries that a Shoal read of a REGEN stream's stored sources reserves in each Skerry (R240). -/
def State.shoalEntries (s : State) (n look : Nat) : Nat := if (s.sourcesOf n).any (fun m => s.cls m != Cl.regen) then lookEntries look else 0

/-- They can be had. -/
def State.entriesFor (s : State) (n look : Nat) : Bool := decide (s.entriesUsed + s.shoalEntries n look ≤ 2048)

/-- The engine becomes idle. -/
def State.engineIdle (s : State) (e : Nat) : State :=
  let s := s.setEngine e { s.engine e with run := none }
  if s.ch (Ch.engineState + 256 * e) = 2 then s else s.setCh (Ch.engineState + 256 * e) 0

/-- A program is brought into the store, the oldest leaving where 2,048 instructions are exceeded (R244; log entry 62, DESIGN CHOICE). -/
def State.storeProgram (s : State) (e p : Nat) : State :=
  let g := s.engine e
  if g.held.contains p then s else
  let size := fun (l : List Nat) => (l.map (fun q => ProgRec.insns.get (s.prog q))).foldl (· + ·) 0
  let keep := (List.range (g.held.length + 1)).map (fun k => p :: g.held.take (g.held.length - k))
  let held := (keep.find? (fun l => size l ≤ 2048)).getD [p]
  (s.setEngine e { g with held := held }).count (Ch.storeLoads + 256 * e) 32

/-- The number of elements of an invocation's output in all. -/
def State.invElems (s : State) (v : Invocation) : Nat :=
  if v.shard ≠ noRef ∧ v.stream = noRef then (match s.shardOpt v.shard with | some a => s.optParams a | none => 0) else recElems (s.streamRec v.stream)

/-! ### State sections of a shard (R308, R309) -/

def secFmt (k : Nat) : Fld := if k = 1 then OptRec.secFmt1 else if k = 2 then OptRec.secFmt2 else OptRec.secFmt3
def fmtBits (f : Nat) : Nat := if f = 1 ∨ f = 2 then 8 else if f = 3 ∨ f = 4 then 6 else if f = 5 then 4 else if f = 6 then 16 else if f = 7 then 32 else 0
def narrowFmt (f : Nat) : Bool := 1 ≤ f && f ≤ 5
def State.secGroup (s : State) (a : Nat) : Nat := 16 * 2 ^ s.fld a OptRec.secGroup
def State.elemArea (s : State) (a f : Nat) : Nat := if f = 0 then 0 else roundUp (ceilDiv (s.optParams a * fmtBits f) 8) 4096
def State.secBytes (s : State) (a k : Nat) : Nat :=
  let f := s.fld a (secFmt k)
  s.elemArea a f + (if narrowFmt f then roundUp (ceilDiv (s.optParams a) (s.secGroup a)) 4096 else 0)
def State.secOffset (s : State) (a k : Nat) : Nat := ((List.range k).map (fun i => if i = 0 then 0 else s.secBytes a i)).foldl (· + ·) 0
/-- All the state's bytes. -/
def State.stateSize (s : State) (a : Nat) : Nat := s.secOffset a 4
/-- Where an UPDATE finds the state: in place, or in its staging buffer (R318). -/
def State.statePlace (s : State) (a : Nat) : Nat := if s.fld a OptRec.statePlace = 3 then s.fld a OptRec.stageBase else s.fld a OptRec.stateBase

/-- The code of parameter `e` of a section. -/
def State.secCode (s : State) (a k e : Nat) : Nat :=
  let b := fmtBits (s.fld a (secFmt k))
  let at_ := s.statePlace a + s.secOffset a k + e * b / 8
  (s.rdNat at_ 5 >>> (e * b % 8)) % 2 ^ b

/-- Element `k × PARAMS + e` of port STATE, decoded exactly (R313). -/
def State.stateElem (s : State) (a i : Nat) : Option Nat :=
  let n := s.optParams a
  let k := i / n
  let e := i % n
  let f := s.fld a (secFmt k)
  if n = 0 ∨ k = 0 ∨ 4 ≤ k ∨ f = 0 ∨ 8 ≤ f then none else
  let c := s.secCode a k e
  if f = 6 then some (widen 1 c) else if f = 7 then some c else
  let x := (s.rdNat (s.statePlace a + s.secOffset a k + s.elemArea a f + e / s.secGroup a) 1)
  if x = 0xFF then some nan32 else some (narrowValue f c ((x : Int) - 127))

/-! ### Environments -/

/-- What the instruction sees (R252, R253, R266, R313, R316). -/
def State.engineEnv (s : State) (e : Nat) (v : Invocation) : Env :=
  let mode := s.engineMode e
  let prog := s.prog v.program
  if v.stream ≠ noRef then
    { s.regenEnv v.stream 0 v.unit mode (if v.shard = noRef then none else some (s.slotBase v.shard v.version, s.shf v.shard ShardRec.slotBytes))
      with prog := prog }
  else
    let a := (s.shardOpt v.shard).getD 0
    let n := s.optParams a
    let u := unitAt prog n v.unit
    let ctx := match v.source with
      | .task x => s.tf x.task TaskRec.context
      | .cmd tag => (match s.dispatched.find? (fun d => d.tag == tag) with | some d => s.cmdContext d | none => 0)
      | .armed | .ended => 0
    { prog := prog, level := 0, mode := mode, unit := v.unit, first := u.first, count := u.count, outLo := u.outLo, outN := u.outN,
      key := (s.contexts.getD ctx ⟨0, 0, 0, 0⟩).philox, ctr := s.fld a OptRec.shardId * 2 ^ 32 + v.update % 2 ^ 32, srcA := none, srcB := none,
      weight := some (s.slotBase v.shard ((v.version + 65535) % 65536), n * elemBytes (ProgRec.wType.get prog)), rows := 0, upd := some ⟨n, s.stateElem a, v.grad⟩ }

/-! ### Start and failure -/

/-- The work of an engine has ended early. -/
def State.engineFails (s : State) (e : Nat) (v : Invocation) (status : Nat) : State := ((s.unpinRun v).engineIdle e).sourceFails v.source status

/-- The registers at the start of the invocation's unit. -/
def State.unitRegs (s : State) (v : Invocation) : Regs := startRegs v.unit (unitAt (s.prog v.program) (s.invElems v) v.unit)

/-- An engine begins: program in its store, DBUF zero but for the constants and what `extra` puts there (R252, R315). -/
def State.engineStart (s : State) (e : Nat) (v : Invocation) (extra : SMap Byte → SMap Byte) : State :=
  let s := (s.storeProgram e v.program).setCh (Ch.engineState + 256 * e) 1
  let g := s.engine e
  match s.copyConsts (s.engineEnv e v) Bench.empty with
  | .error (.sector k) => (s.sectorFound k none).engineFails e v St.detected
  | .error (.block _ _) => s.engineFails e v St.codecDamage
  | .ok b => s.setEngine e { g with regs := s.unitRegs v, dbuf := extra b.dbuf, run := some { v with code := s.progCode v.program } }

/-! ### One instruction -/

/-- What an instruction counted (R258, R259, R268). -/
def State.benchCounts (s : State) (e : Nat) (v : Invocation) (b : Bench) : State :=
  s.noteCounts e (match v.source with | .task x => x.task | _ => noRef) v.stream v.clipSeen b

/-- The sources of an invocation whose tiles an instruction may meet damaged. -/
def State.invSources (s : State) (v : Invocation) : List Nat := if v.stream = noRef then [] else s.sourcesOf v.stream

/-- An instruction of an engine: it must be the one the pc names; a source that cannot be read ends the work, unless it is recomputed (R58, R219). -/
def State.shoal (s : State) (e word : Nat) (sem : State → Sem) : State :=
  let g := s.engine e
  match g.run with
  | none => s
  | some v =>
    if nth v.code g.regs.pc 0 ≠ word then s else
    let run := fun (s : State) => sem s (s.engineEnv e v) s.reader { Bench.empty with dbuf := g.dbuf, started := v.started } g.regs
    let take := fun (s : State) (b : Bench) (r : Regs) =>
      (s.setEngine e { g with regs := r.settle, dbuf := b.dbuf, run := some { v with started := b.started, clipSeen := v.clipSeen || b.clips != 0 } }).benchCounts e v b
    match run s with
    | .ok (b, r) => take s b r
    | .error _ =>
      let c := (s.invSources v).foldl (fun (a : State × Option Nat) n => match a.2 with
        | some _ => a
        | none => a.1.checkSource 5 n) (s, none)
      match c with
      | (s, some st) => s.engineFails e v st
      | (s, none) =>
        match run s with
        | .ok (b, r) => take s b r
        | .error (.sector k) => (s.sectorFound k none).engineFails e v St.detected
        | .error (.block _ _) => s.engineFails e v St.codecDamage

/-! ### The output of RECOMPUTE (R273) -/

/-- The bytes of a unit's output elements inside the tile range, added to what waits; an element of the unit that no instruction wrote is a free value (log entry 45, DESIGN CHOICE). -/
def State.gatherOut (s : State) (v : Invocation) (r : Regs) (a : UnitAt) (lo hi : Nat) : SMap Byte :=
  let z := elemBytes (s.sf v.stream StreamRec.elemType)
  let first := max lo a.outLo
  (List.range (min hi (a.outLo + a.outN) - first)).foldl (fun (m : SMap Byte) i =>
    let e := first + i
    putBytes m id (z * e) (leBytes z ((r.out.find e).getD (s.unwritten v.stream e z)))) v.bytes

/-- A tile of a RECOMPUTE goes to its destination: into its delivery, or to memory up to BYTE_LENGTH. -/
def State.handOn (s : State) (c : Consumer) (t : Nat) (data : List Byte) : State × Option Nat :=
  if c.ring.isSome then
    let s : State := { s with skerry := { s.skerry with queue := s.skerry.queue ++ [⟨c.id, c.stream, t, data⟩] } }
    ((State.deliver 1024 (s.modConsumer c.id (fun c => { c with asked := c.asked + 1 })) c.id).fedDie c.die, none)
  else
    let bs := data.take (s.sf c.stream StreamRec.byteLength - 4096 * t)
    let a := c.dest + 4096 * (t - c.first)
    match s.mergeFails a bs.length with
    | some k => (s.sectorFound k none, some St.detected)
    | none => ((s.put a bs).modConsumer c.id (fun c => { c with taken := c.taken + 1 }), none)

/-- The whole tiles that are ready go on in order (`fuel` bounds them). -/
def State.handOver : Nat → State → Nat → Consumer → Nat → State × Option Nat
  | 0, s, _, _, _ => (s, none)
  | fuel + 1, s, e, c, upto =>
    match (s.engine e).run with
    | none => (s, none)
    | some v =>
      let t := v.next
      if c.first + c.count ≤ t ∨ upto < 4096 * (t + 1) then (s, none) else
      let data := (List.range 4096).map (fun i => v.bytes.getD (4096 * t + i) 0)
      let g := s.engine e
      let s := s.setEngine e { g with run := some { v with next := t + 1, bytes := v.bytes.filter (fun p => 4096 * (t + 1) ≤ p.1) } }
      match s.handOn c t data with
      | (s, some st) => (s, some st)
      | (s, none) => State.handOver fuel s e c upto

/-- The end of a RECOMPUTE's unit: its tiles go on, and the next unit runs, or the engine is free (R251, R273). -/
def State.recomputeUnit (s : State) (e : Nat) (v : Invocation) (c : Consumer) : State :=
  let g := s.engine e
  let z := elemBytes (s.sf v.stream StreamRec.elemType)
  let per := 4096 / z
  let a := unitAt (s.prog v.program) (s.invElems v) v.unit
  let bytes := s.gatherOut v g.regs a (c.first * per) ((c.first + c.count) * per)
  let last := v.unit == v.lastUnit
  let upto := if last then 4096 * (c.first + c.count) else z * (a.outLo + a.outN)
  let s := ((s.drew 1).setEngine e { g with run := some { v with bytes := bytes } }).count (Ch.invocations + 256 * e) 64
  match State.handOver (c.count + 1) s e c upto with
  | (s, some st) => s.engineFails e v st
  | (s, none) =>
    if last then (s.engineIdle e).settleConsumer c.id
    else
      let g := s.engine e
      match g.run with
      | none => s
      | some v => let v := { v with unit := v.unit + 1 }; s.setEngine e { g with regs := s.unitRegs v, run := some v }

/-- A RECOMPUTE begins: its delivery, and the engine at the first unit that writes an element of the range; a range without elements is complete at once. -/
def State.recomputeStart (s : State) (e : Nat) (src : ItemFrom) (c : Consumer) (shard version : Nat) : State :=
  let n := c.stream
  let p := s.sf n StreamRec.program
  let per := 4096 / elemBytes (s.sf n StreamRec.elemType)
  let total := recElems (s.streamRec n)
  let cid := s.skerry.nextConsumer
  let s := s.addConsumer c
  match unitsFor (s.prog p) (c.first * per) (min total ((c.first + c.count) * per)) with
  | [] => s.settleConsumer cid
  | u :: us =>
    if !s.progValid p then s.sourceFails src St.noObject else
    s.engineStart e { source := src, stream := n, program := p, code := [], unit := u, lastUnit := u + us.length, shard := shard, version := version, consumer := cid, grad := 0,
                      update := 0, started := [], clipSeen := false, next := c.first, bytes := [] } (fun m => m)

end Sys2Proof.Machine
end

