-- ==== Sys2Proof/Machine/Optimiser.lean ====
section
/-! DEFINITION. The optimiser: which window an UPDATE applies, its start, what its units write, the difference stream, the ratio table, its completion, and staged Reef state (R95, R312 to R321, R324, R325). -/

namespace Sys2Proof.Machine

/-! ### The window of an UPDATE (R312) -/

/-- What an UPDATE finds: it must wait, it is null, or it applies a window with a buffer. -/
inductive Applied where
  | waits
  | null
  | window (w : Int) (buf : Nat)
  deriving DecidableEq, Repr

/-- The version an UPDATE task writes (R94, R95). -/
def State.newVersion (s : State) (x : TaskRef) : Nat := (s.updatesBefore x (s.tf x.task TaskRec.shard) + 1) % 65536

/-- The window that an UPDATE task applies. -/
def State.applied (s : State) (x : TaskRef) (k a : Nat) : Applied :=
  let z := s.shard k
  let d := s.fld a OptRec.delay
  if d = 0 then
    let w := s.updatesBefore x k
    if z.open_ = w ∧ (s.windowTotal k a w).any (fun t => t == 0 || t == s.fld a OptRec.added) then .window w 0 else .waits
  else
    let w : Int := (x.step : Int) - d
    match z.complete.find? (fun c => c.1 == w) with
    | some c => .window w c.2
    | none =>
      if w < 0 then .null
      else if s.windowTotal k a w.toNat = some 0 then .window w (s.windowBuf a w.toNat)
      else if w < z.open_ then .null else .waits

/-- A window without contributions: its accumulator is +0 (R311). -/
def State.zeroWindow (s : State) (k a : Nat) : Applied → Bool
  | .window w _ => decide (0 ≤ w) && s.windowTotal k a w.toNat == some 0
  | _ => false

/-- An earlier task in plan order that has not ended and would pin the version. -/
def State.willPin (s : State) (x : TaskRef) (k v : Nat) : Bool :=
  (s.inOrder.takeWhile (· != x)).any (fun y => (s.taskState y == Ts.pending || s.taskState y == Ts.running) && s.pinned y == some (k, v))

/-- The pins on the version that a slot held before are zero (R95). -/
def State.slotUnpinned (s : State) (k v : Nat) (x : Option TaskRef) : Bool :=
  let old := (v + 65536 - s.shf k ShardRec.slots) % 65536
  !s.isPinned k old && (match x with | some x => !s.willPin x k old | none => true)

/-! ### Reef state (R318) -/

def State.reefState (s : State) (a : Nat) : Bool := s.fld a OptRec.statePlace == 3

/-- Where in plan order the next UPDATE of a delayed shard that applies a window stands. -/
def State.nextApply (s : State) (k a : Nat) : Int × Nat :=
  let z := s.shard k
  let w : Int := (z.complete.map Prod.fst).foldl min (z.open_ : Int)
  (w + s.fld a OptRec.delay, ((s.updatesOf k).headD 0))

def applyBefore (p q : Int × Nat) : Bool := decide (p.1 < q.1) || (p.1 == q.1 && decide (p.2 < q.2))

/-- Shards that share a staging buffer. -/
def State.sharers (s : State) (a : Nat) : List Nat :=
  (List.range s.shardCount).filter (fun j => match s.shardOpt j with
    | some b => s.reefState b && s.fld b OptRec.stageBase == s.fld a OptRec.stageBase
    | none => false)

/-- The state of a shard is to be staged: its next window is complete, and the buffer is free and its turn has come. -/
def State.mayStage (s : State) (k a : Nat) : Bool :=
  let z := s.shard k
  let mine := s.nextApply k a
  s.reefState a && !z.staged && z.lostState.isNone && (!z.complete.isEmpty || s.windowTotal k a z.open_ == some 0)
  && (s.sharers a).all (fun j => !(s.shard j).staged && (j == k || (match s.shardOpt j with | some b => !applyBefore (s.nextApply j b) mine | none => true)))

/-- The state read from the Reef into its staging buffer. -/
def State.stageState (s : State) (k a : Nat) : State :=
  match s.reefRead (s.fld a OptRec.stateBase) (s.stateSize a) with
  | (s, .ok bs) => (s.put (s.fld a OptRec.stageBase) bs).modShard k (fun z => { z with staged := true })
  | (s, .error st) => s.modShard k (fun z => { z with lostState := some st })

/-- STATE_STAGED (R318). -/
def execStateStaged (k : Nat) (s : State) : Host.Outcome State Fault Refusal :=
  match (if k < s.shardCount then s.shardOpt k else none) with
  | some a => .next (if s.planLoaded ∧ s.mayStage k a then s.stageState k a else s)
  | none => .next s

/-! ### Difference streams (R324) -/

abbrev DiffHdr.writeOffset : Fld := ⟨63, 0⟩
abbrev DiffHdr.readOffset : Fld := ⟨127, 64⟩
abbrev DiffHdr.stop : Fld := ⟨128, 128⟩
abbrev DiffHdr.broken : Fld := ⟨129, 129⟩

/-- The header of a difference record, its fields in the order in which R324 names them (log entry 63, DESIGN CHOICE). -/
def diffHeader (shardId update section_ page crc : Nat) : List Byte := leBytes 4 shardId ++ leBytes 4 update ++ leBytes 4 section_ ++ leBytes 4 page ++ leBytes 4 crc ++ List.replicate 44 0

/-- A stream is armed and goes on: one with STOP set is disarmed. -/
def State.checkDiff (s : State) (a : Nat) : State × Bool :=
  if s.fld a OptRec.diffArmed = 0 then (s, false)
  else
    let r := s.fld a OptRec.diffRing
    if s.fld r DiffHdr.stop = 1 then (s.setFld a OptRec.diffArmed 0, false)
    else (s, s.fld r DiffHdr.broken == 0)

/-- One record appended, or the stream breaks. -/
def State.diffAppend (s : State) (k a section_ page : Nat) (payload : List Byte) : State :=
  let r := s.fld a OptRec.diffRing
  let w := s.fld r DiffHdr.writeOffset
  let area := (s.shard k).diffArea
  let update := (s.fld a OptRec.updates + 1) % 2 ^ 32
  if s.fld r DiffHdr.broken = 1 then s
  else if area + s.fld r DiffHdr.readOffset < w + 4160 then
    let s := (s.put (r + 16) (leBytes 1 (s.rdNat (r + 16) 1 ||| 2))).setFld a OptRec.diffBroken 1
    (s.countSticky Ch.diffBreaks).raise ⟨0x0709, s.fld a OptRec.shardId, update, 0, none, []⟩
  else
    (s.put (r + 64 + w % area) (diffHeader (s.fld a OptRec.shardId) update section_ page (crc32c payload) ++ payload)).put r (leBytes 8 (w + 4160))

/-- The records of one UPDATE: its changed pages of weights, of which the last is filled up with zeros, and of each section, then END. `old` holds the state's bytes before it, by address. -/
def State.diffRecords (s : State) (k a v : Nat) (old : SMap Byte) : State :=
  match s.checkDiff a with
  | (s, false) => s
  | (s, true) =>
    let xor := fun (p q : List Byte) => List.zipWith (fun (x y : Byte) => x ^^^ y) p q
    let slot := s.slotBase k v
    let prev := s.slotBase k ((v + 65535) % 65536)
    let size := s.optParams a * elemBytes (s.fld a OptRec.weightType)
    let wpages := (List.range ((size + 4095) / 4096)).map (fun p =>
      let n := min 4096 (size - 4096 * p)
      (0, p, xor (s.rd (slot + 4096 * p) n) (s.rd (prev + 4096 * p) n) ++ List.replicate (4096 - n) 0))
    let spages := ([1, 2, 3] : List Nat).flatMap (fun i => (List.range (s.secBytes a i / 4096)).map (fun p =>
      let at_ := s.statePlace a + s.secOffset a i + 4096 * p
      let now := s.rd at_ 4096
      let before := (List.range 4096).map (fun j => old.getD (at_ + j) 0)
      (i, p, if (old.find at_).isSome then xor now before else List.replicate 4096 0)))
    let pages := (wpages ++ spages).filter (fun r => r.2.2.any (· != 0))
    let s := pages.foldl (fun (s : State) r => s.diffAppend k a r.1 r.2.1 r.2.2) s
    s.diffAppend k a 15 0 (List.replicate 4096 0)

/-! ### The ratio table (R325) -/

/-- The weights of a version as binary32. -/
def State.versionElems (s : State) (k v : Nat) (wt n : Nat) : List Nat := gradElems wt (s.rd (s.slotBase k v) (n * elemBytes wt))

def State.ratioAdd (s : State) (k a v layer step : Nat) (mode : NMode) : State :=
  let base := s.ch Ch.ratioBase
  if base = 0 then s else
  let wt := s.fld a OptRec.weightType
  let n := s.optParams a
  let old := s.versionElems k ((v + 65535) % 65536) wt n
  let new := s.versionElems k v wt n
  let sum := fun (xs : List Nat) => mmaSum mode 0 (xs.map (fun x => some (x, x)))
  let d2 := sum (List.zipWith (vSub mode false) new old)
  let w2 := sum old
  let at_ := base + 16 * layer
  let fresh := s.rdNat (at_ + 12) 4 != step % 2 ^ 32 || s.rdNat at_ 12 == 0
  let d := if fresh then d2 else vAdd mode false (s.rdNat at_ 4) d2
  let w := if fresh then w2 else vAdd mode false (s.rdNat (at_ + 4) 4) w2
  let ratio := if w = 0 then (if d = 0 then 0 else 0x7F800000) else vSqrt mode false (vDiv mode false d w)
  s.put at_ (leBytes 4 d ++ leBytes 4 w ++ leBytes 4 ratio ++ leBytes 4 step)

/-- Every earlier UPDATE of the layer has given its sums, so that they are added in plan order (log entry 64, DEDUCED). -/
def State.ratioTurn (s : State) (x : TaskRef) : Bool :=
  s.ch Ch.ratioBase == 0 ||
  (s.inOrder.takeWhile (· != x)).all (fun y => s.tf y.task TaskRec.taskKind != Tk.update || s.tf y.task TaskRec.layer != s.tf x.task TaskRec.layer
    || !((s.taskState y == Ts.running && !(s.run y).any TaskRun.finished) || (s.taskState y == Ts.pending && !s.plan.stopping)))

/-! ### Completion (R95, R312, R318) -/

/-- The staged state goes back to the Reef. -/
def State.writeBackState (s : State) (k a : Nat) : State :=
  if !s.reefState a ∨ !(s.shard k).staged then s else
  match s.reefPut (s.fld a OptRec.stateBase) (s.rd (s.fld a OptRec.stageBase) (s.stateSize a)) with
  | (s, none) => s.modShard k (fun z => { z with staged := false })
  | (s, some st) => s.modShard k (fun z => { z with lostState := some st })

/-- The owner serves the fetches of versions that have been written (R317). -/
def State.serveVersions (s : State) (k : Nat) : State :=
  let id := s.shf k ShardRec.shardId
  let asks := s.cascade.incoming.filterMap (fun e => match e.1 with | .versionAsk pkg i v => if i = id ∧ s.written k v then some (pkg, v) else none | _ => none)
  asks.foldl (fun (s : State) (p : Nat × Nat) =>
    let s := s.takeInbox (.versionAsk p.1 id p.2)
    let kept := (s.shf k ShardRec.currentVersion + 65536 - p.2) % 65536 < s.shf k ShardRec.slots
    let n := (match s.shardOpt k with | some a => s.optParams a | none => 0) * elemBytes (s.weightType k)
    if kept then (s.sendParts p.1 Dk.version (id + p.2 * 2 ^ 32) (s.rd (s.slotBase k p.2) n)).sendDone p.1 Dk.version (id + p.2 * 2 ^ 32) 0 false
    else s.sendDone p.1 Dk.version (id + p.2 * 2 ^ 32) St.streamState false) s

/-- A version has been written: CURRENT_VERSION; where a window was applied, UPDATES, ADDED or PENDING, and the state's way back. -/
def State.updateCompletes (s : State) (k a v : Nat) (ap : Applied) : State :=
  let s := (s.setFld (s.tables.shards + 32 * k) ShardRec.currentVersion v).serveVersions k
  match ap with
  | .window w _ =>
    let s := s.setFld a OptRec.updates ((s.fld a OptRec.updates + 1) % 2 ^ 32)
    let s := if s.fld a OptRec.delay = 0 then (s.modShard k (fun z => { z with open_ := w.toNat + 1 })).setFld a OptRec.added 0
      else if (s.shard k).complete.any (fun c => c.1 == w) then
        (s.modShard k (fun z => { z with complete := z.complete.filter (fun c => c.1 != w) })).setFld a OptRec.pending (s.fld a OptRec.pending - 1)
      else s
    s.writeBackState k a
  | _ => s

/-- The completion actions of an UPDATE task. -/
def State.updateTaskCompletes (s : State) (x : TaskRef) : State :=
  let k := s.tf x.task TaskRec.shard
  match s.shardOpt k with
  | some a => s.updateCompletes k a (s.newVersion x) (s.applied x k a)
  | none => s

/-- The completion of an UPDATE command (R321): UPDATES and U_t count it; windows are not touched, but at DELAY 0 the open one is now that of the next UPDATE. -/
def State.updateCmdCompletes (s : State) (k a v : Nat) : State :=
  let s := (s.setFld (s.tables.shards + 32 * k) ShardRec.currentVersion v).serveVersions k
  let s := s.setFld a OptRec.updates ((s.fld a OptRec.updates + 1) % 2 ^ 32)
  let s : State := { s with plan := { s.plan with baseUpdates := s.plan.baseUpdates.put k (s.plan.baseUpdates.getD k 0 + 1) } }
  let s := if s.fld a OptRec.delay = 0 then
      s.modShard k (fun z => { z with open_ := z.open_ + 1, landings := z.landings.map (fun l => { l with window := l.window + 1 }) })
    else s
  s.writeBackState k a

/-! ### What a unit writes (R313, R314) -/

/-- The pages of the state that a write changes are remembered for the difference stream. -/
def State.rememberPages (s : State) (m : SMap Byte) (at_ n : Nat) : SMap Byte :=
  if n = 0 then m else
  ((List.range ((at_ + n - 1) / 4096 + 1 - at_ / 4096)).map (fun i => 4096 * (at_ / 4096 + i))).foldl (fun (m : SMap Byte) p =>
    if (m.find p).isSome then m else putBytes m (fun x => x) p (s.rd p 4096)) m

/-- The codes of one section for a unit of `count` parameters from `first`, and its scale bytes. -/
def sectionCodes (f group count : Nat) (vals : List Nat) : List Nat × List Nat :=
  if f = 7 then (vals, []) else if f = 6 then (vals.map (narrow 1), []) else
  let blocks := (chunksOf group (count / group + 1) vals).map (fun b => narrowBlock f (b ++ List.replicate (group - b.length) 0))
  (blocks.flatMap Prod.snd, blocks.map Prod.fst)

/-- A section's part of a unit: element area and scale area written; an element the program did not write keeps its value (R314). -/
def State.putSection (s : State) (a k first count : Nat) (out : SMap Nat) (m : SMap Byte) : State × SMap Byte :=
  let f := s.fld a (secFmt k)
  if f = 0 ∨ 8 ≤ f then (s, m) else
  let n := s.optParams a
  let g := s.secGroup a
  let vals := (List.range count).map (fun i => (out.find (k * n + first + i)).getD ((s.stateElem a (k * n + first + i)).getD 0))
  let c := sectionCodes f g count vals
  let base := s.statePlace a + s.secOffset a k
  let bytes := packBits (c.1.flatMap (lsbBits (fmtBits f)))
  let scales := c.2.map (BitVec.ofNat 8)
  let at_ := base + first * fmtBits f / 8
  let sat := base + s.elemArea a f + first / g
  let armed := s.fld a OptRec.diffArmed == 1
  let m := if armed then s.rememberPages (s.rememberPages m at_ bytes.length) sat scales.length else m
  ((s.put at_ bytes).put sat scales, m)

/-- The weights of a unit in the new version's slot; one the program did not write is that of the version before (R314). -/
def State.putWeights (s : State) (k a v first count : Nat) (out : SMap Nat) : State :=
  let wt := s.fld a OptRec.weightType
  let z := elemBytes wt
  let prev := s.slotBase k ((v + 65535) % 65536)
  let codes := (List.range count).map (fun i => (out.find (first + i)).getD (s.rdNat (prev + z * (first + i)) z))
  s.put (s.slotBase k v + z * first) (codes.flatMap (leBytes z))

/-- The end of an UPDATE's unit: weights and state written, and the next unit runs; after the last the difference records and the ratio, and the UPDATE is complete. -/
def State.updateUnit (s : State) (e : Nat) (v : Invocation) : State :=
  let k := v.shard
  match s.shardOpt k with
  | none => s.engineFails e v St.noObject
  | some a =>
    let last := v.unit == v.lastUnit
    let turn := match v.source with | .task x => s.ratioTurn x | _ => true
    if last ∧ !turn then s else
    let g := s.engine e
    let u := unitAt (s.prog v.program) (s.optParams a) v.unit
    let s := (s.putWeights k a v.version u.first u.count g.regs.out).count (Ch.invocations + 256 * e) 64
    let p := ([1, 2, 3] : List Nat).foldl (fun (p : State × SMap Byte) i => p.1.putSection a i u.first u.count g.regs.out p.2) (s, v.bytes)
    let v := { v with bytes := p.2, unit := v.unit + 1 }
    let s := p.1
    if !last then s.setEngine e { g with regs := s.unitRegs v, run := some v } else
    let s := (s.engineIdle e).diffRecords k a v.version v.bytes
    match v.source with
    | .task x =>
      let s := s.ratioAdd k a v.version (s.tf x.task TaskRec.layer) x.step (s.engineMode e)
      s.finishRun x
    | .cmd tag =>
      let s := s.ratioAdd k a v.version (s.fld a OptRec.layer) s.plan.stepCount (s.engineMode e)
      let s := s.updateCmdCompletes k a v.version
      let s := s.modShard k (fun z => { z with pins := z.pins.erase ((v.version + 65535) % 65536) })
      match s.dispatched.find? (fun d => d.tag == tag) with
      | some d => s.endCmd d St.success 0
      | none => s
    | .armed | .ended => s

/-! ### UPDATE_TASK and UPDATE -/

/-- The first failing sector of what an UPDATE reads: weights, state, gradients, arguments. -/
def State.updateFailing (s : State) (k a v grad args : Nat) : Option Nat :=
  let n := s.optParams a
  (s.failing (s.slotBase k ((v + 65535) % 65536)) (n * elemBytes (s.fld a OptRec.weightType))).orElse (fun _ =>
    (s.failing (s.statePlace a) (s.stateSize a)).orElse (fun _ => (s.failing grad (4 * n)).orElse (fun _ => s.failing args 64)))

/-- The program of an UPDATE starts on its engine, its argument block in DBUF with the update's number (R315). -/
def State.updateStart (s : State) (e : Nat) (src : ItemFrom) (k a v prog grad args : Nat) : State :=
  let number := s.fld a OptRec.updates + 1
  let block := s.rd args 64
  let units := ceilDiv (s.optParams a) 2048
  s.engineStart e { source := src, stream := noRef, program := prog, code := [], unit := 0, lastUnit := units - 1, shard := k, version := v, consumer := 0, grad := grad, update := number % 2 ^ 32,
                    started := [], clipSeen := false, next := 0, bytes := [] } (fun m => putBytes (putBytes m (fun x => x) 65536 block) (fun x => x) 65592 (leBytes 8 number))

/-- A null UPDATE copies version v − 1 (R312). -/
def State.nullUpdate (s : State) (x : TaskRef) (k a v : Nat) : State :=
  let prev := s.slotBase k ((v + 65535) % 65536)
  let n := s.optParams a * elemBytes (s.fld a OptRec.weightType)
  match s.failing prev n with
  | some c => (s.sectorFound c (some (s.tf x.task TaskRec.context))).abortGroup x St.detected
  | none => (s.put (s.slotBase k v) (s.rd prev n)).finishRun x

/-- The work of an UPDATE task. -/
def State.updateWork (x : TaskRef) (k a : Nat) (s : State) : State :=
  let v := s.newVersion x
  let z := s.shard k
  let ap := s.applied x k a
  if z.abortNext then (s.modShard k (fun z => { z with abortNext := false, staged := false })).abortGroup x St.mismatch else
  let s := (s.modRun x (fun r => { r with pinShard := some (k, (v + 65535) % 65536) }))
  match ap with
  | .waits => s
  | .null => s.nullUpdate x k a v
  | .window _ buf =>
    match z.lostState with
    | some st => (s.modShard k (fun z => { z with lostState := none, staged := false })).abortGroup x st
    | none =>
    let grad := s.accBuf a buf
    let s := if s.zeroWindow k a ap then s.put grad (List.replicate (4 * s.optParams a) 0) else s
    let args := s.fld a OptRec.args
    match s.updateFailing k a v grad args with
    | some c => (s.sectorFound c (some (s.tf x.task TaskRec.context))).abortGroup x St.detected
    | none => s.updateStart (s.execIndex x.task) (.task x) k a v (s.tf x.task TaskRec.program) grad args

/-! ### The turn at an engine (R126) -/

/-- A REDUCE waits for nothing but its engine (R56, R62, R240). -/
def State.reduceReady (s : State) (x : TaskRef) (n : Nat) : Bool := State.mayProduce x n s && (!s.storedMode n || decide (s.entriesUsed < 2048))

/-- A RECOMPUTE task waits for nothing but its engine: a feed ring and the Skerries' entries are there (R175, R240). -/
def State.recomputeReady (s : State) (t : Nat) : Bool :=
  let n := s.tf t TaskRec.stream
  let d := s.sf n StreamRec.die
  s.ringFree d (s.feedAB d) && s.entriesFor n (s.tf t TaskRec.lookahead)

/-- An UPDATE task waits for nothing but its engine and the pins on its slot: the version before is written, its window complete, its Reef state staged (R95, R312). -/
def State.updateReady (s : State) (x : TaskRef) (k a : Nat) : Bool :=
  let ap := s.applied x k a
  let z := s.shard k
  s.written k ((s.newVersion x + 65535) % 65536) && (z.abortNext || (ap != .waits && (!s.reefState a || ap == .null || z.staged || z.lostState.isSome)))

/-- A plan task waits for nothing but engine `e`. -/
def State.engineTaskReady (s : State) (e : Nat) (x : TaskRef) : Bool :=
  let t := x.task
  let k := s.tf t TaskRec.taskKind
  (k == Tk.reduce || k == Tk.recompute || k == Tk.update) && s.execIndex t == e
  && s.atHead x && (if (s.arrival x).isNone then s.edgesCould x else s.edgesMet x) && s.versionReady x && s.tileReady x && !s.snapshotHolds x
  && (if k = Tk.reduce then s.reduceReady x (s.tf t TaskRec.stream)
      else if k = Tk.recompute then s.recomputeReady t
      else match s.shardOpt (s.tf t TaskRec.shard) with
        | some a => s.updateReady x (s.tf t TaskRec.shard) a && s.slotUnpinned (s.tf t TaskRec.shard) (s.newVersion x) (some x)
        | none => false)

/-- The staging buffer of Reef state holds another shard's state (R318). -/
def State.stagedByOther (s : State) (k a : Nat) : Bool := s.reefState a && (s.sharers a).any (fun j => j != k && (s.shard j).staged)

/-- A command waits for nothing but its engine. -/
def State.engineCmdReady (s : State) (d : Dispatched) : Bool :=
  let op := cmdGet d.word Cmd.opcode
  let k := cmdGet d.word CmdUpdate.shard
  d.stage == .ready
  && (if op = Op.recompute then cmdGet d.word CmdFetch.tileCount != 0 && s.entriesFor (cmdGet d.word CmdFetch.stream) 0
      else op == Op.update && (match s.shardOpt k with
        | some a => !s.stagedByOther k a && s.slotUnpinned k ((s.shf k ShardRec.currentVersion + 1) % 65536) none
        | none => false))

/-- Work of class `u` may start on engine `e`: none of a more urgent class, of a command or of the plan, is ready for it (R126). -/
def State.engineTurn (s : State) (e u : Nat) : Bool :=
  !(s.dispatched.any (fun d => (cmdEngine d.word).any (fun p => p.1 == e) && decide (cmdGet d.word Cmd.urgency < u) && s.engineCmdReady d))
  && !(s.inOrder.any (fun x => decide (s.tf x.task TaskRec.urgency < u) && s.engineTaskReady e x))

/-- It is a plan task's turn at its engine. -/
def State.taskTurn (s : State) (x : TaskRef) : Bool := s.engineTurn (s.execIndex x.task) (s.tf x.task TaskRec.urgency)

/-- UPDATE_TASK (R95, R312): it waits for its window, the version before, the pins on the slot, the staged state and its engine. A wait for pins alone is counted once. (log entry 50, DEDUCED.) -/
def execUpdateTask (x : TaskRef) (s : State) : Host.Outcome State Fault Refusal :=
  let k := s.tf x.task TaskRec.shard
  match (if s.tf x.task TaskRec.taskKind = Tk.update then s.shardOpt k else none) with
  | none => .next s
  | some a =>
    let v := s.newVersion x
    let rest := fun (s : State) => s.engineFree (s.execIndex x.task) && s.updateReady x k a && s.taskTurn x
    let s := s.dispatch x Tk.update (fun s => rest s && s.slotUnpinned k v (some x)) (State.updateWork x k a)
    if (s.run x).isNone && s.taskState x == Ts.pending && s.atHead x && s.edgesMet x && rest s && !s.slotUnpinned k v (some x) && !(s.shard k).waited.contains x then
      .next (((s.modShard k (fun z => { z with waited := x :: z.waited })).countSticky Ch.versionWaits).soundLayer (s.tf x.task TaskRec.layer) LayerSnd.versionWaits)
    else .next s

/-- UPDATE (R321): the command applies the gradients at GRAD and writes version CURRENT_VERSION + 1 once the slot's pins are zero and its engine, and the staging buffer of Reef state, are free. -/
def execUpdate (c : Nat) (m : MemResult) (s : State) : Host.Outcome State Fault Refusal :=
  match (s.cmd c Op.update).filter (fun d => d.stage == .ready) with
  | none => .next s
  | some d =>
    let w := d.word
    let k := cmdGet w CmdUpdate.shard
    match s.shardOpt k with
    | none => .next (s.endCmd d St.noObject CmdUpdate.shard.lo)
    | some a =>
      let e := cmdGet w CmdUpdate.engine
      let v := (s.shf k ShardRec.currentVersion + 1) % 65536
      let grad := cmdGet w CmdUpdate.grad
      let args := if cmdGet w CmdUpdate.args = 0 then s.fld a OptRec.args else cmdGet w CmdUpdate.args
      if s.ch (Ch.engineState + 256 * e) = 2 then .next (s.endCmd d St.noObject CmdUpdate.engine.lo)
      else if !s.engineFree e ∨ s.stagedByOther k a ∨ !s.engineTurn e (cmdGet w Cmd.urgency) then .next s
      else if !s.slotUnpinned k v none then
        if d.detail = 1 then .next s
        else .next (((s.setStage c .ready 1).countSticky Ch.versionWaits).soundLayer (s.fld a OptRec.layer) LayerSnd.versionWaits)
      else if m ≠ .ok then .next ((s.memFault d m).failCmd d m.status)
      else
        let s := if s.reefState a ∧ !(s.shard k).staged then s.stageState k a else s
        if (s.shard k).abortNext then .next (((s.modShard k (fun z => { z with abortNext := false, staged := false })).drew 1).endCmd d St.mismatch s.freeDetail)
        else match (s.shard k).lostState with
        | some st => .next ((s.modShard k (fun z => { z with lostState := none, staged := false })).endCmd d st (s.nextEvent - 1))
        | none => match s.updateFailing k a v grad args with
          | some b => .next ((s.sectorFound b (some (s.cmdContext d))).failCmd d St.detected)
          | none =>
            let s := (s.setStage c .underway 0).modShard k (fun z => { z with pins := (v + 65535) % 65536 :: z.pins })
            .next (s.updateStart e (.cmd c) k a v (cmdGet w CmdUpdate.program) grad args)

end Sys2Proof.Machine
end

