-- ==== Sys2Proof/Machine/ShoalRows.lean ====
section
/-! DEFINITION. The instructions of a Shoal program as an engine runs them (R254 to R268), the end of a unit, the program registry (R245 to R249, R257), and the rows REDUCE_TASK, RECOMPUTE_TASK and RECOMPUTE (R269, R273). -/

namespace Sys2Proof.Machine

/-- An instruction in the register form: its fields are those of its word. -/
def State.shoalG (s : State) (e op : Nat) (i : GForm) (sem : State → Sem) : State :=
  if gFields (gWord op i) = i then s.shoal e (gWord op i) sem else s

/-- An instruction in the immediate form. -/
def State.shoalI (s : State) (e op : Nat) (i : IForm) (sem : State → Sem) : State :=
  if iFields (iWord op i) = i then s.shoal e (iWord op i) sem else s

/-- END: the unit ends; its output goes on (R251, R273, R314). -/
def execEndProg (e : Nat) (i : IForm) (s : State) : Host.Outcome State Fault Refusal :=
  let g := s.engine e
  match g.run with
  | none => .next s
  | some v =>
    if nth v.code g.regs.pc 0 ≠ iWord 0x01 i ∨ iFields (iWord 0x01 i) ≠ i then .next s
    else if v.stream = noRef then .next (s.updateUnit e v)
    else match s.consumer v.consumer with
      | some c => .next (s.recomputeUnit e v c)
      | none => .next (s.engineIdle e)

/-- LOOP: the next instructions run S[A] times. -/
def execLoop (e : Nat) (i : IForm) (s : State) : Host.Outcome State Fault Refusal := .next (s.shoalI e 0x02 i (fun _ => semLoop i))
/-- BRZ: a forward skip when S[A] = 0. -/
def execBrz (e : Nat) (i : IForm) (s : State) : Host.Outcome State Fault Refusal := .next (s.shoalI e 0x03 i (fun _ => semBrz i))
/-- BRNZ: a forward skip when S[A] ≠ 0. -/
def execBrnz (e : Nat) (i : IForm) (s : State) : Host.Outcome State Fault Refusal := .next (s.shoalI e 0x04 i (fun _ => semBrnz i))
/-- SLI: S[D] = IMM sign-extended. -/
def execSli (e : Nat) (i : IForm) (s : State) : Host.Outcome State Fault Refusal := .next (s.shoalI e 0x08 i (fun _ => semSli i))
/-- SADD: S[D] = S[A] + S[B]. -/
def execSadd (e : Nat) (i : GForm) (s : State) : Host.Outcome State Fault Refusal := .next (s.shoalG e 0x09 i (fun _ => semSadd i))
/-- SADDI: S[D] = S[A] + IMM. -/
def execSaddi (e : Nat) (i : IForm) (s : State) : Host.Outcome State Fault Refusal := .next (s.shoalI e 0x0A i (fun _ => semSaddi i))
/-- SMUL: S[D] = S[A] × S[B]. -/
def execSmul (e : Nat) (i : GForm) (s : State) : Host.Outcome State Fault Refusal := .next (s.shoalG e 0x0B i (fun _ => semSmul i))
/-- SSHR: a logical right shift. -/
def execSshr (e : Nat) (i : IForm) (s : State) : Host.Outcome State Fault Refusal := .next (s.shoalI e 0x0C i (fun _ => semSshr i))
/-- SAND: S[D] = S[A] AND S[B]. -/
def execSand (e : Nat) (i : GForm) (s : State) : Host.Outcome State Fault Refusal := .next (s.shoalG e 0x0D i (fun _ => semSand i))
/-- SLDK: a DBUF word to S[D]. -/
def execSldk (e : Nat) (i : IForm) (s : State) : Host.Outcome State Fault Refusal := .next (s.shoalI e 0x0E i (fun _ => semSldk i))
/-- VLD: V[D] from a port. -/
def execVld (e : Nat) (i : GForm) (s : State) : Host.Outcome State Fault Refusal := .next (s.shoalG e 0x10 i (fun s => semVld s i))
/-- VST: to port OUT, rounded to OUT_TYPE. -/
def execVst (e : Nat) (i : GForm) (s : State) : Host.Outcome State Fault Refusal := .next (s.shoalG e 0x11 i (fun _ => semVst i))
/-- VLDD: 512 words from DBUF. -/
def execVldd (e : Nat) (i : IForm) (s : State) : Host.Outcome State Fault Refusal := .next (s.shoalI e 0x12 i (fun _ => semVldd i))
/-- VSTD: 512 words to DBUF. -/
def execVstd (e : Nat) (i : IForm) (s : State) : Host.Outcome State Fault Refusal := .next (s.shoalI e 0x13 i (fun _ => semVstd i))
/-- VBC: broadcast of IMM. -/
def execVbc (e : Nat) (i : IForm) (s : State) : Host.Outcome State Fault Refusal := .next (s.shoalI e 0x14 i (fun _ => semVbc i))
/-- VBCS: broadcast of S[A]. -/
def execVbcs (e : Nat) (i : GForm) (s : State) : Host.Outcome State Fault Refusal := .next (s.shoalG e 0x15 i (fun _ => semVbcs i))
/-- VRAND: random words (R266). -/
def execVrand (e : Nat) (i : GForm) (s : State) : Host.Outcome State Fault Refusal := .next (s.shoalG e 0x18 i (fun _ => semVrand i))
/-- VULT: unsigned less into a predicate. -/
def execVult (e : Nat) (i : GForm) (s : State) : Host.Outcome State Fault Refusal := .next (s.shoalG e 0x19 i (fun _ => semCmp vUlt i))
/-- VADD: V[A] + V[B]. -/
def execVadd (e : Nat) (i : GForm) (s : State) : Host.Outcome State Fault Refusal := .next (s.shoalG e 0x20 i (fun _ => sem2 vAdd i))
/-- VSUB: V[A] − V[B]. -/
def execVsub (e : Nat) (i : GForm) (s : State) : Host.Outcome State Fault Refusal := .next (s.shoalG e 0x21 i (fun _ => sem2 vSub i))
/-- VMUL: V[A] × V[B]. -/
def execVmul (e : Nat) (i : GForm) (s : State) : Host.Outcome State Fault Refusal := .next (s.shoalG e 0x22 i (fun _ => sem2 vMul i))
/-- VFMA: V[A] × V[B] + V[C], one rounding. -/
def execVfma (e : Nat) (i : GForm) (s : State) : Host.Outcome State Fault Refusal := .next (s.shoalG e 0x23 i (fun _ => semVfma i))
/-- VMAX: the larger (R259). -/
def execVmax (e : Nat) (i : GForm) (s : State) : Host.Outcome State Fault Refusal := .next (s.shoalG e 0x24 i (fun _ => sem2 vMax i))
/-- VMIN: the smaller (R259). -/
def execVmin (e : Nat) (i : GForm) (s : State) : Host.Outcome State Fault Refusal := .next (s.shoalG e 0x25 i (fun _ => sem2 vMin i))
/-- VABS: the absolute value. -/
def execVabs (e : Nat) (i : GForm) (s : State) : Host.Outcome State Fault Refusal := .next (s.shoalG e 0x26 i (fun _ => sem1 vAbs i))
/-- VNEG: the negation. -/
def execVneg (e : Nat) (i : GForm) (s : State) : Host.Outcome State Fault Refusal := .next (s.shoalG e 0x27 i (fun _ => sem1 vNeg i))
/-- VDIV: V[A] ÷ V[B] (R261). -/
def execVdiv (e : Nat) (i : GForm) (s : State) : Host.Outcome State Fault Refusal := .next (s.shoalG e 0x28 i (fun _ => sem2 vDiv i))
/-- VSQRT: the square root (R261). -/
def execVsqrt (e : Nat) (i : GForm) (s : State) : Host.Outcome State Fault Refusal := .next (s.shoalG e 0x29 i (fun _ => sem1 vSqrt i))
/-- VRSQRT: the reciprocal square root (R261). -/
def execVrsqrt (e : Nat) (i : GForm) (s : State) : Host.Outcome State Fault Refusal := .next (s.shoalG e 0x2A i (fun _ => sem1 vRsqrt i))
/-- VEXP: the exponential (R261). -/
def execVexp (e : Nat) (i : GForm) (s : State) : Host.Outcome State Fault Refusal := .next (s.shoalG e 0x2B i (fun _ => sem1 vExp i))
/-- VLOG: the natural logarithm (R261). -/
def execVlog (e : Nat) (i : GForm) (s : State) : Host.Outcome State Fault Refusal := .next (s.shoalG e 0x2C i (fun _ => sem1 vLog i))
/-- VTANH: the hyperbolic tangent (R261). -/
def execVtanh (e : Nat) (i : GForm) (s : State) : Host.Outcome State Fault Refusal := .next (s.shoalG e 0x2D i (fun _ => sem1 vTanh i))
/-- VERF: the error function (R261). -/
def execVerf (e : Nat) (i : GForm) (s : State) : Host.Outcome State Fault Refusal := .next (s.shoalG e 0x2E i (fun _ => sem1 vErf i))
/-- VSIGM: the logistic function (R261). -/
def execVsigm (e : Nat) (i : GForm) (s : State) : Host.Outcome State Fault Refusal := .next (s.shoalG e 0x2F i (fun _ => sem1 vSigm i))
/-- VCGT: greater into a predicate. -/
def execVcgt (e : Nat) (i : GForm) (s : State) : Host.Outcome State Fault Refusal := .next (s.shoalG e 0x30 i (fun _ => semCmp vGt i))
/-- VCGE: greater or equal into a predicate. -/
def execVcge (e : Nat) (i : GForm) (s : State) : Host.Outcome State Fault Refusal := .next (s.shoalG e 0x31 i (fun _ => semCmp vGe i))
/-- VCEQ: equal into a predicate. -/
def execVceq (e : Nat) (i : GForm) (s : State) : Host.Outcome State Fault Refusal := .next (s.shoalG e 0x32 i (fun _ => semCmp vEq i))
/-- VSEL: a choice by P[C]. -/
def execVsel (e : Nat) (i : GForm) (s : State) : Host.Outcome State Fault Refusal := .next (s.shoalG e 0x33 i (fun _ => semVsel i))
/-- VMOV: a move. -/
def execVmov (e : Nat) (i : GForm) (s : State) : Host.Outcome State Fault Refusal := .next (s.shoalG e 0x34 i (fun _ => semVmov i))
/-- VSR: stochastic rounding to bfloat16 (R268). -/
def execVsr (e : Nat) (i : GForm) (s : State) : Host.Outcome State Fault Refusal := .next (s.shoalG e 0x39 i (fun _ => semVsr i))
/-- VQF: form codes (R270). -/
def execVqf (e : Nat) (i : IForm) (s : State) : Host.Outcome State Fault Refusal := .next (s.shoalI e 0x3A i (fun _ => semVqf i))
/-- VSTF: form codes to port OUT (R41). -/
def execVstf (e : Nat) (i : GForm) (s : State) : Host.Outcome State Fault Refusal := .next (s.shoalG e 0x3B i (fun _ => semVstf i))
/-- VRSUM: the chunk sum of the active lanes (R262). -/
def execVrsum (e : Nat) (i : GForm) (s : State) : Host.Outcome State Fault Refusal := .next (s.shoalG e 0x40 i (fun _ => semVrsum i))
/-- VRMAX: the largest active lane. -/
def execVrmax (e : Nat) (i : GForm) (s : State) : Host.Outcome State Fault Refusal := .next (s.shoalG e 0x41 i (fun _ => semVrmax i))
/-- MZ: ACC = +0. -/
def execMz (e : Nat) (i : IForm) (s : State) : Host.Outcome State Fault Refusal := .next (s.shoalI e 0x48 i (fun _ => semMz))
/-- MMA: ACC += SRC_A block × WEIGHT block (R263). -/
def execMma (e : Nat) (i : GForm) (s : State) : Host.Outcome State Fault Refusal := .next (s.shoalG e 0x49 i (fun s => semMma s i))
/-- MST: ACC to port OUT. -/
def execMst (e : Nat) (i : GForm) (s : State) : Host.Outcome State Fault Refusal := .next (s.shoalG e 0x4A i (fun _ => semMst i))

/-! ### The registry (R246 to R248) -/

abbrev ProgCtl.index : Fld := ⟨47, 32⟩

/-- The record obeys R246. -/
def progRecordOk (r : Nat) : Bool :=
  let k := ProgRec.kind.get r
  let n := ProgRec.insns.get r
  let ot := ProgRec.outType.get r
  let re := ProgRec.rowElems.get r
  let oc := ProgRec.outCols.get r
  (rsvdBit r ProgRec.rsvd).isNone
  && decide (1 ≤ k ∧ k ≤ 4 ∧ 1 ≤ ot ∧ ot ≤ 4 ∧ ProgRec.wType.get r ≤ 4 ∧ 1 ≤ n ∧ n ≤ 2048 ∧ ProgRec.constBytes.get r ≤ 65536)
  && (ProgRec.image.get r % 64 == 0 && inHarbour (ProgRec.image.get r)) && (ProgRec.constAddr.get r % 64 == 0 && inHarbour (ProgRec.constAddr.get r))
  && (ProgRec.constAddr.get r != 0 || ProgRec.constBytes.get r == 0)
  && (ProgRec.stoch.get r == 0 || k == Kd.update)
  && (if k = Kd.row ∨ k = Kd.matrix then decide (32 ≤ re ∧ re ≤ 16384) && re % 32 == 0 else re == 0)
  && (if k = Kd.matrix then decide (1 ≤ oc ∧ oc ≤ 16384) else oc == 0)

/-- An instruction obeys the format: a listed opcode, every bit its form leaves unused zero, and the limits of single opcodes (R254, R255). -/
def insnFormat (w : Nat) : Bool :=
  let op := InsnWord.op.get w
  let i := iFields w
  let g := gFields w
  if immOps.contains op then
    iWord op i == w && (op != 0x01 || i.imm == 0) && (op != 0x0E || i.imm % 8 == 0) && (op != 0x3A || listedForm (i.imm % 256))
  else if regOps.contains op then
    gWord op g == w && (op == 0x49 || (!g.ta && !g.tb)) && (op != 0x10 || decide (g.b ≤ 5))
  else false

/-- The control rules (R257): `ends` are the last instructions of the bodies around instruction `i`, inmost first; the first instruction that breaks one. -/
def controlFault (code : List Nat) : List Nat → Nat → List Nat → Option Nat
  | [], _, _ => none
  | w :: ws, i, ends =>
    let ends := ends.filter (fun x => i ≤ x)
    let op := InsnWord.op.get w
    let k := (iFields w).imm % 4096
    let last := ends.headD (code.length - 2)
    if (op = 0x03 ∨ op = 0x04) ∧ last < i + k then some i
    else if op = 0x02 ∧ k ≠ 0 then
      if last < i + k ∨ 4 ≤ ends.length ∨ ((code.drop (i + 1)).take k).any (fun x => InsnWord.op.get x == 0x01) then some i
      else controlFault code ws (i + 1) ((i + k) :: ends)
    else controlFault code ws (i + 1) ends

/-- The first failing instruction of an image and the check it fails: 3 format, 4 control, 5 VSR, 6 END. -/
def imageFault (code : List Nat) (stoch : Bool) : Option (Nat × Nat) :=
  let first := fun (p : Nat → Bool) => (List.range code.length).find? (fun i => p (nth code i 0))
  let fs : List (Nat × Nat) := ((first (fun w => !insnFormat w)).map (fun i => (i, 3))).toList
    ++ ((controlFault code code 0 []).map (fun i => (i, 4))).toList
    ++ ((if stoch then none else first (fun w => InsnWord.op.get w == 0x39)).map (fun i => (i, 5))).toList
  match fs with
  | f :: rest => some (rest.foldl (fun (a : Nat × Nat) b => if b.1 < a.1 then b else a) f)
  | [] => if InsnWord.op.get (code.getLast?.getD 0) = 0x01 then none else some (code.length - 1, 6)

/-- The program is not validated: INVALID, and the check reported. -/
def State.programFails (s : State) (p insn check : Nat) : State :=
  let a := s.progAddr p
  (s.setFld a ProgRec.state 2).raise ⟨0x0601, p, insn, check, some (s.fld a ProgRec.context), []⟩

/-- REGISTER reads the record, the image and the constants, and marks the program (R247, R484). (log entry 49, DEDUCED.) -/
def State.registerProgram (s : State) (p : Nat) (m : MemResult) : State :=
  let a := s.progAddr p
  let r := s.prog p
  let recBad := s.failing a 32
  let bad := recBad.orElse (fun _ => if progRecordOk r then
      (s.failing (ProgRec.image.get r) (8 * ProgRec.insns.get r)).orElse (fun _ => s.failing (ProgRec.constAddr.get r) (ProgRec.constBytes.get r))
    else none)
  if m ≠ .ok then
    (s.raise ⟨0x0402, noRef, evAddr m.addr m.status, 0, none, []⟩).programFails p 0xFFFF 7
  else match bad with
  | some k => (s.sectorFound k none).programFails p 0xFFFF 7
  | none =>
    if !progRecordOk r then s.programFails p 0xFFFF 1 else
    let bytes := s.rd (ProgRec.image.get r) (8 * ProgRec.insns.get r)
    if crc32c bytes ≠ ProgRec.imageCrc.get r then s.programFails p 0xFFFF 2
    else match imageFault ((chunksOf 8 (bytes.length / 8 + 1) bytes).map leNat) (ProgRec.stoch.get r == 1) with
      | some f => s.programFails p f.1 f.2
      | none => s.setFld a ProgRec.state 1

/-- REGISTER (R247). -/
def execRegister (r : Req) (m : MemResult) (s : State) : Host.Outcome State Fault Refusal :=
  if !actionIs r actF 1 then .next s else
  let p := ProgCtl.index.get r.value
  .next (s.chartDo 0x7400 3 r
    { range := onlyBits r.value [ProgCtl.index, actF] && decide (p < s.ch Ch.progCount ∧ p < 0xFF00)
      state := !s.progValid p
      params := true
      effect := fun s => s.registerProgram p m })

/-- A loaded plan names the program (R248). -/
def State.planNamesProgram (s : State) (p : Nat) : Bool :=
  s.planLoaded && ((List.range s.streamCount).any (fun n => s.sf n StreamRec.program == p) || (List.range s.taskCount).any (fun t => s.tf t TaskRec.program == p))

/-- A dispatched command or an engine uses the program. -/
def State.programInUse (s : State) (p : Nat) : Bool :=
  s.dispatched.any (fun d => cmdGet d.word Cmd.opcode == Op.update && cmdGet d.word CmdUpdate.program == p)
  || s.engines.any (fun e => (e.2.run.map Invocation.program) == some p)

/-- RETIRE (R248): the program leaves the registry and the engines' stores. -/
def execRetire (r : Req) (s : State) : Host.Outcome State Fault Refusal :=
  if !actionIs r actF 2 then .next s else
  let p := ProgCtl.index.get r.value
  .next (s.chartDo 0x7400 3 r
    { range := onlyBits r.value [ProgCtl.index, actF] && decide (p < s.ch Ch.progCount ∧ p < 0xFF00)
      state := s.progValid p && !s.planNamesProgram p && !s.programInUse p
      params := true
      effect := fun s =>
        let s : State := { s with engines := s.engines.map (fun (e : Nat × Engine) => (e.1, { e.2 with held := e.2.held.filter (· != p) })) }
        s.setFld (s.progAddr p) ProgRec.state 0 })

/-! ### REDUCE and RECOMPUTE -/

/-- REDUCE_TASK (R269): on its engine, once that is free and, to read a stored source, the Skerries have an entry for it (R240, R251). -/
def execReduceTask (x : TaskRef) (s : State) : Host.Outcome State Fault Refusal :=
  let n := s.tf x.task TaskRec.stream
  if s.tf x.task TaskRec.taskKind ≠ Tk.reduce ∨ s.taskCount ≤ x.task then .next s
  else .next ((s.reportWait x n).dispatch x Tk.reduce
    (fun s => s.reduceReady x n && s.ch (Ch.engineState + 256 * s.execIndex x.task) == 0 && s.taskTurn x) (State.reduceWork x n))

/-- RECOMPUTE_TASK (R273): into a feed ring of the stream's die. -/
def execRecomputeTask (x : TaskRef) (s : State) : Host.Outcome State Fault Refusal :=
  let t := x.task
  let n := s.tf t TaskRec.stream
  let d := s.sf n StreamRec.die
  let r := s.feedAB d
  let e := s.execIndex t
  .next (s.dispatch x Tk.recompute (fun s => s.recomputeReady t && s.engineFree e && s.taskTurn x) (fun s =>
    if !s.ringOn d r then s.abortGroup x St.dieLost
    else if !s.fetchable n then s.abortGroup x St.streamState
    else
      let c : Consumer := { Consumer.fresh with source := .task x, stream := n, first := s.tf t TaskRec.tileFirst, count := s.tileCount t n, look := 0, die := d, ring := some r, engine := true, entries := s.shoalEntries n (s.tf t TaskRec.lookahead) }
      let p := (s.pinned x).getD (noRef, 0)
      s.recomputeStart e (.task x) { c with transpose := s.tf t TaskRec.transpose == 1 } p.1 p.2))

/-- RECOMPUTE (R134, R273): on the command's engine, once it is free. -/
def execRecompute (c : Nat) (s : State) : Host.Outcome State Fault Refusal :=
  match (s.cmd c Op.recompute).filter (fun d => d.stage == .ready) with
  | none => .next s
  | some d =>
    let w := d.word
    let n := cmdGet w CmdFetch.stream
    let first := cmdGet w CmdFetch.tileFirst
    let count := s.cmdTiles n first (cmdGet w CmdFetch.tileCount)
    let kind := cmdGet w CmdFetch.destKind
    let ring := cmdGet w CmdFetch.dest % 65536
    let e := cmdGet w CmdFetch.engine
    if count = 0 then .next (s.endCmd d St.success 0)
    else if s.cls n ≠ Cl.regen ∨ !s.fetchable n then .next (s.endCmd d St.streamState (s.streamDetail n))
    else if kind ≠ 0 ∧ !s.ringOn (kind - 1) ring then .next (s.endWith d St.dieLost 0)
    else if s.ch (Ch.engineState + 256 * e) = 2 then .next (s.endCmd d St.noObject CmdFetch.engine.lo)
    else if !s.engineFree e ∨ !s.engineCmdReady d ∨ !s.engineTurn e (cmdGet w Cmd.urgency) then .next s
    else
      let k : Consumer := { Consumer.fresh with entries := s.shoalEntries n 0, source := .cmd c, stream := n, first := first, count := count, die := kind - 1, ring := if kind = 0 then none else some ring, engine := true }
      .next ((s.setStage c .underway 0).recomputeStart e (.cmd c) { k with dest := cmdGet w CmdFetch.dest, transpose := cmdGet w CmdFetch.transpose == 1 } noRef 0)

end Sys2Proof.Machine
end

