-- ==== Sys2Proof/Machine/Reef.lean ====
section
/-! DEFINITION. Reef modules: their states (R339), admission (R340, R341), removal (R342, R343), defects and scrub (R346 to R350), the link layer (R332 to R334), the tide wires (R335 to R338). -/

namespace Sys2Proof.Machine

/-! ### Module states -/

/-- A transition of MOD_STATE with its event (R339). -/
def State.setModState (s : State) (p new : Nat) : State :=
  let old := s.modState p
  (s.setCh (Ch.modState + 256 * p) new).raise ⟨0x0101, p, old + new * 16, s.ch (Ch.modId + 256 * p), none, []⟩

/-- The identity holds no reserved value (R335). -/
def identityOk (v : Nat) : Bool := Fld.get ⟨11, 9⟩ v == 1 && Fld.get ⟨8, 6⟩ v == 1 && Fld.get ⟨5, 4⟩ v == 1 && !bit v 1

def State.moduleRequests (s : State) (p : Nat) : List Request :=
  s.ferry.requests.filter (fun q => q.reef && reefPartner q.addr == 0 && (match s.reefPlace q.addr with | some (m, _, _) => m == p | none => false))

/-- The copy of a set still needs a module: it goes to the local Reef, of which 64 KiB lie on every module of the set, or it is still to read bytes of the module. -/
def State.copyNeeds (s : State) (k p : Nat) : Bool :=
  s.stf k SetRec.destKind == 1 || (s.setAt k).pages.any (fun q => (s.setAt k).pieces.any (fun x =>
    let r := pieceIn x q
    decide (reefMark ≤ r.1) && r.2 != 0 && (List.range ((r.1 + r.2 - 1) / 4096 + 1 - r.1 / 4096)).any (fun i => (s.reefPlace (r.1 - reefMark + 4096 * i)).any (fun m => m.1 == p))))

/-- A module is lost: the port's work ends, streams follow R59, copies of sets that need it break (R363), requests in flight end with `status` (R334, R343). -/
def State.moduleLost (s : State) (p : Nat) (status : RespStatus) : State :=
  let reqs := s.moduleRequests p
  let s := (s.setCh (Ch.linkWidth + 256 * p) 0).setModState p Ms.lost
  let s := s.modPort p (fun q => { q with admitting := 0, exchange := none, transfers := [], unacked := [], replays := 0, scrub := none, reloc := none, waiting := [] })
  let s := reqs.foldl (fun (s : State) q => s.respond q.tag status) s
  if bit (s.ch Ch.reefSet) p then
    ((List.range s.streamCount).filter (fun n => (s.residence n == Rs.toReef || s.residence n == Rs.reef || s.residence n == Rs.toHarbour) && s.onModule n p)).foldl State.reefLostStream s
      |> fun s => (s.sets.keys.filter (fun k => s.stf k SetRec.state == Sst.taking && s.copyNeeds k p)).foldl (fun (s : State) k => s.breakSet k (s.stf k SetRec.destBase) St.reefLost) s
  else s

/-! ### Sideband exchanges (R336) -/

abbrev Sb.status : Nat := 0x1
abbrev Sb.lanes : Nat := 0x2
abbrev Sb.preset : Nat := 0x3
abbrev Sb.phyStart : Nat := 0x4
abbrev Sb.phyResult : Nat := 0x5
abbrev Sb.linkUp : Nat := 0x6
abbrev Sb.scrubBand : Nat := 0x8
abbrev Sb.scrubPoll : Nat := 0x9
abbrev Sb.wake : Nat := 0xA

abbrev SbWord.cmd : Fld := ⟨31, 28⟩
abbrev SbWord.result : Fld := ⟨27, 26⟩
abbrev SbWord.data : Fld := ⟨23, 0⟩

/-- Charov sends a request over the tide wires. -/
def State.askModule (s : State) (p cmd arg : Nat) : State :=
  let w := BitVec.ofNat 32 (cmd * 2 ^ 28 + arg % 2 ^ 24)
  (s.modPort p (fun q => { q with exchange := some w })).out (.sideband p w)

/-- The request of a command that awaits its reply. -/
def State.asked (s : State) (p cmd : Nat) : Option Nat :=
  ((s.port p).exchange.map BitVec.toNat).filter (fun w => SbWord.cmd.get w == cmd)

/-- The RESULT of a reply: 0 ACK, 1 BUSY, 2 NAK. A wrong echo or the reserved value counts as NAK (log entry 65, DEDUCED). -/
def sbResult (cmd reply : Nat) : Nat := if SbWord.cmd.get reply ≠ cmd then 2 else min (SbWord.result.get reply) 2

/-- TEMP_WARN crossed, upwards reported once, downwards forgotten (R346). -/
def State.setTemperature (s : State) (p : Nat) (eighths : Int) : State :=
  let s := s.setCh (Ch.temperature + 256 * p) ((eighths % (2 ^ 32 : Int)).toNat)
  let warn := signedOf 32 (s.ch Ch.tempWarn)
  if warn < eighths ∧ !(s.port p).warned.contains 2 then
    (s.modPort p (fun q => { q with warned := 2 :: q.warned })).raise ⟨0x0106, p, s.ch (Ch.temperature + 256 * p), s.ch Ch.thermalAction, none, []⟩
  else if eighths < warn then s.modPort p (fun q => { q with warned := q.warned.filter (· != 2) }) else s

/-- The temperature in DATA of a STATUS reply. -/
def State.statusTemperature (s : State) (p reply : Nat) : State := s.setTemperature p (8 * signedOf 8 (Fld.get ⟨23, 16⟩ reply))

/-! ### Admission (R340, R341) and relink (R334) -/

/-- The link is trained again, the module stays ADMITTED: steps of `admitting` from 11. -/
def Port.relinking (p : Port) : Bool := 11 ≤ p.admitting

/-- The handshake has failed. -/
def State.handshakeFails (s : State) (p : Nat) : State :=
  let again := (s.port p).relinking
  let s := s.modPort p (fun q => { q with admitting := 0, exchange := none })
  if again then s.moduleLost p .reefLost else (s.setCh (Ch.linkWidth + 256 * p) 0).setModState p Ms.trainFault

/-- The handshake goes on with a step. -/
def State.admitStep (s : State) (p k : Nat) : State :=
  let s := s.modPort p (fun q => { q with admitting := (if q.relinking then 10 else 0) + k })
  let det := (s.port p).locked
  if k = 2 then s.askModule p Sb.lanes 0
  else if k = 3 then s.askModule p Sb.preset (s.ch Ch.presetDefault + det * 16)
  else if k = 4 then s.askModule p Sb.phyStart det
  else if k = 6 then s.askModule p Sb.phyResult 0
  else if k = 7 then s.askModule p Sb.linkUp det
  else s.askModule p Sb.status 0

/-- The step in progress, from 1 to 7. -/
def Port.step (p : Port) : Nat := p.admitting % 10

/-- A reply to the request of a step: NAK fails the handshake, BUSY repeats it, ACK goes on. -/
def State.stepReply (s : State) (p cmd reply : Nat) (busy ack : State → State) : State :=
  let s := s.modPort p (fun q => { q with exchange := none })
  match sbResult cmd reply with
  | 0 => ack s
  | 1 => busy s
  | _ => s.handshakeFails p

/-- Every band's AGE rises by `hours` (R341). -/
def agedBands (m : SMap Nat) (hours : Nat) : SMap Nat :=
  if hours = 0 then m else (List.range 144496).map (fun b => (b, BandRec.age.set (bandIn m b) (min 8191 (BandRec.age.get (bandIn m b) + hours))))

/-- Why a band whose record reads RELOCATING is defective: its wear, or a grown defect. -/
def defectOf (v : Nat) : Nat := if 2000000 ≤ BandRec.wear.get v then 1 else 0

/-- The map after ADMIT_ERASE: every logical band unmapped, the factory's defects retired, WEAR and defect records kept, a band found RELOCATING being retired (R341, R349; log entry 111, DEDUCED). -/
def erasedBands (m : SMap Nat) (factory : List Nat) : SMap Nat :=
  let st := fun (v : Nat) => if BandRec.state.get v = Bs.relocating then 4 + defectOf v else Bs.free
  let m := m.map (fun e => if BandRec.state.get e.2 = Bs.mapped ∨ BandRec.state.get e.2 = Bs.relocating then (e.1, BandRec.logical.set (BandRec.state.set e.2 (st e.2)) 0x3FFFF) else e)
  factory.foldl (fun (m : SMap Nat) b => m.put b (BandRec.state.set (bandIn m b) 3)) m

/-- Bands that a module's records show RELOCATING are MAPPED and to be relocated anew (R349; log entry 111, DEDUCED). -/
def Port.resumeDefects (q : Port) : Port :=
  { q with
    bands := q.bands.map (fun e => if BandRec.state.get e.2 = Bs.relocating then (e.1, BandRec.state.set e.2 Bs.mapped) else e)
    defects := (q.bands.filter (fun e => BandRec.state.get e.2 == Bs.relocating)).map (fun e => (e.1, defectOf e.2)) }

/-- What the metadata space and the media of the module in a port hold, where it is another module than the port last held (R340 step 4; log entry 47, DESIGN CHOICE). -/
def Port.found (q : Port) (m : Option ModuleData) : Port :=
  match m with
  | none => q
  | some m => { q with ownerTag := m.ownerTag, setRecord := m.setRecord, metaBands := m.bands, factory := m.factory, media := m.media, counts := m.counts, badSectors := m.badSectors, poisoned := m.poisoned }

/-- The link is up: the module's metadata are read and held to the checks of R341, then the band records; or after a relink the link alone. -/
def State.linkIsUp (s : State) (p lanes : Nat) (found : Option ModuleData) : State :=
  let s := if (s.port p).relinking then s else s.modPort p (fun q => q.found found)
  let q := s.port p
  let s := s.setCh (Ch.linkWidth + 256 * p) (if lanes = 0xFF then 8 else 4)
  let s := if lanes = 0xFF then s else s.raise ⟨0x0104, p, 4, 0, none, []⟩
  let s := s.modPort p (fun q => { q with admitting := 0, exchange := none, txSeq := 0, rxSeq := 0, unacked := [], replays := 0, transfers := [] })
  if q.relinking then s.raise ⟨0x0103, p, s.ch (Ch.linkWidth + 256 * p), s.ch (Ch.linkReplays + 256 * p), none, []⟩
  else if !q.erase ∧ (q.ownerTag ≠ s.ch Ch.packageUid ∨ (q.setRecord ≠ s.ch Ch.reefSet ∧ s.ch Ch.reefSet ≠ 0 ∧ bit (s.ch Ch.reefSet) p)) then
    (s.setCh (Ch.linkWidth + 256 * p) 0).setModState p Ms.present
  else
    let s := if q.erase then
        let m := erasedBands q.metaBands q.factory
        s.modPort p (fun q => { q with ownerTag := s.ch Ch.packageUid, setRecord := s.ch Ch.reefSet, bands := m, metaBands := m })
      else s.modPort p (fun q => ({ q with bands := agedBands q.metaBands q.hours } : Port).resumeDefects)
    s.setModState p Ms.admitted

/-- STATUS (R336): the first and the fifth step of a handshake, or a reading over the sleep bus. -/
def execStatus (p : Nat) (reply : BitVec 32) (s : State) : Host.Outcome State Fault Refusal :=
  match s.asked p Sb.status with
  | none => .next s
  | some _ =>
    let r := reply.toNat
    let k := (s.port p).step
    let s := if sbResult Sb.status r = 0 then s.statusTemperature p r else s
    if k = 0 then .next (s.modPort p (fun q => { q with exchange := none }))
    else .next (s.stepReply p Sb.status r (fun s => s.askModule p Sb.status 0) (fun s => s.admitStep p (if k = 1 then 2 else 6)))

/-- LANES: the lanes that detect a far end are those trained. -/
def execLanes (p : Nat) (reply : BitVec 32) (s : State) : Host.Outcome State Fault Refusal :=
  match s.asked p Sb.lanes with
  | none => .next s
  | some w => .next (s.stepReply p Sb.lanes reply.toNat (fun s => s.askModule p Sb.lanes (SbWord.data.get w))
      (fun s => (s.modPort p (fun q => { q with locked := reply.toNat % 256 })).admitStep p 3))

/-- PRESET. -/
def execPreset (p : Nat) (reply : BitVec 32) (s : State) : Host.Outcome State Fault Refusal :=
  match s.asked p Sb.preset with
  | none => .next s
  | some w => .next (s.stepReply p Sb.preset reply.toNat (fun s => s.askModule p Sb.preset (SbWord.data.get w)) (fun s => s.admitStep p 4))

/-- PHY_START: its BUSY as its ACK leads to STATUS until that is not BUSY. -/
def execPhyStart (p : Nat) (reply : BitVec 32) (s : State) : Host.Outcome State Fault Refusal :=
  match s.asked p Sb.phyStart with
  | none => .next s
  | some _ => .next (s.stepReply p Sb.phyStart reply.toNat (fun s => s.admitStep p 5) (fun s => s.admitStep p 5))

/-- The lanes a link uses: all eight, or four of one half. -/
def lanesUsed (locked : Nat) : Option Nat :=
  if locked % 256 = 0xFF then some 0xFF else if locked % 16 = 0x0F then some 0x0F else if locked / 16 % 16 = 0x0F then some 0xF0 else none

/-- PHY_RESULT. -/
def execPhyResult (p : Nat) (reply : BitVec 32) (s : State) : Host.Outcome State Fault Refusal :=
  match s.asked p Sb.phyResult with
  | none => .next s
  | some _ => .next (s.stepReply p Sb.phyResult reply.toNat (fun s => s.askModule p Sb.phyResult 0) (fun s =>
      match lanesUsed reply.toNat with
      | some l => (s.modPort p (fun q => { q with locked := l })).admitStep p 7
      | none => s.handshakeFails p))

/-- LINK_UP: admission is decided. -/
def execLinkUp (p : Nat) (reply : LinkUpReply) (s : State) : Host.Outcome State Fault Refusal :=
  match s.asked p Sb.linkUp with
  | none => .next s
  | some w => .next (s.stepReply p Sb.linkUp reply.word.toNat (fun s => s.askModule p Sb.linkUp (SbWord.data.get w)) (fun s => s.linkIsUp p (SbWord.data.get w % 256) reply.found))

/-- ADMISSION_TIMEOUT (R339). -/
def execAdmissionTimeout (p : Nat) (s : State) : Host.Outcome State Fault Refusal :=
  if (s.port p).admitting = 0 then .next s else .next (s.handshakeFails p)

/-! ### MOD_CONTROL (R339 to R342) -/

abbrev ModCtl.hours : Fld := ⟨31, 16⟩

def admitAct (s : State) (p : Nat) (r : Req) (erase : Bool) : ChAct :=
  let hours := ModCtl.hours.get r.value
  { range := onlyBits r.value [actF, ModCtl.hours] && (!erase || hours == 0)
    state := (s.modState p == Ms.present || s.modState p == Ms.trainFault) && identityOk (s.ch (Ch.modId + 256 * p))
    params := true
    effect := fun s =>
      let s := (s.wake).setModState p Ms.training
      (s.modPort p (fun q => { q with erase := erase, hours := hours, admitting := 0 })).admitStep p 1 }

/-- ADMIT_KEEP. -/
def execAdmitKeep (p : Nat) (r : Req) (s : State) : Host.Outcome State Fault Refusal :=
  if !actionIs r actF 1 then .next s else .next (s.chartDo (0x4100 + p) 3 r (admitAct s p r false))

/-- ADMIT_ERASE. -/
def execAdmitErase (p : Nat) (r : Req) (s : State) : Host.Outcome State Fault Refusal :=
  if !actionIs r actF 2 then .next s else .next (s.chartDo (0x4100 + p) 3 r (admitAct s p r true))

/-- A module that drains is SAFE once nothing is outstanding: its records written, its link down (R342). -/
def State.settleDraining (s : State) (p : Nat) : State :=
  let q := s.port p
  if s.modState p = Ms.draining ∧ q.transfers.isEmpty ∧ (s.moduleRequests p).isEmpty ∧ q.scrub.isNone ∧ q.reloc.isNone then
    let s := s.modPort p (fun q => { q with metaBands := q.bands, unacked := [], exchange := none })
    ((s.setCh (Ch.linkWidth + 256 * p) 0).out (.wire1Low p)).setModState p Ms.safe
  else s

/-- REMOVE. -/
def execRemove (p : Nat) (r : Req) (s : State) : Host.Outcome State Fault Refusal :=
  if !actionIs r actF 3 then .next s else .next (s.chartDo (0x4100 + p) 3 r
    { range := onlyBits r.value [actF]
      state := s.modState p == Ms.admitted && !bit (s.ch Ch.reefSet) p
      params := true
      effect := fun s => (((s.setModState p Ms.draining).modPort p (fun q => { q with scrub := none })).settleDraining p).wake })

/-- REIDENTIFY. -/
def execReidentify (p : Nat) (r : Req) (s : State) : Host.Outcome State Fault Refusal :=
  if !actionIs r actF 4 then .next s else .next (s.chartDo (0x4100 + p) 3 r
    { range := onlyBits r.value [actF]
      state := s.modState p == Ms.idFault
      params := true
      effect := fun s => (s.setModState p Ms.identifying).out (.wire2Low p) })

/-! ### Identity, absence, warnings (R335, R337 to R339, R343) -/

def setBits (n v : Nat) : Nat := ((List.range n).filter (bit v)).length

/-- MODULE_IDENTITY. -/
def execModuleIdentity (p : Nat) (first second : BitVec 12) (timingOk : Bool) (s : State) : Host.Outcome State Fault Refusal :=
  if s.modState p ≠ Ms.absent ∧ s.modState p ≠ Ms.identifying then .next s else
  let s := s.setCh (Ch.modState + 256 * p) Ms.identifying
  if timingOk ∧ first = second ∧ setBits 12 first.toNat % 2 = 1 then
    .next ((s.setCh (Ch.modId + 256 * p) first.toNat).setModState p Ms.present)
  else .next (s.setModState p Ms.idFault)

/-- MODULE_ABSENT: the Lighthouse's band records of the port are discarded. -/
def execModuleAbsent (p : Nat) (s : State) : Host.Outcome State Fault Refusal :=
  if [Ms.present, Ms.idFault, Ms.trainFault, Ms.safe, Ms.lost].contains (s.modState p) then
    .next ((s.setModState p Ms.absent).modPort p (fun q => { q with bands := [], admitting := 0, exchange := none, scrub := none, reloc := none, defects := [], warned := [] }))
  else .next s

/-- Wire 2 has been low for 50 µs: no new transfer to the module (R343). -/
def State.earlyWarning (s : State) (p : Nat) : State :=
  if s.modState p = Ms.admitted then (s.setModState p Ms.leaving).modPort p (fun q => { q with scrub := none }) else s

/-- EARLY_REMOVAL_WARNING. -/
def execEarlyRemovalWarning (p : Nat) (s : State) : Host.Outcome State Fault Refusal := .next (s.earlyWarning p)

/-- MODULE_BUSY: wire 0 has stayed low for 100 ms. -/
def execModuleBusy (p : Nat) (s : State) : Host.Outcome State Fault Refusal :=
  if s.modState p ≠ Ms.admitted ∧ s.modState p ≠ Ms.leaving ∧ s.modState p ≠ Ms.draining then .next s else
  let s := s.count (Ch.busyTime + 256 * p) 64 100000
  .next (s.raise ⟨0x0105, p, s.ch (Ch.busyTime + 256 * p), 0, none, []⟩)

/-! ### Defects and relocation (R348 to R350) -/

/-- A band is to be relocated: reason 0 a grown defect, 1 wear. -/
def State.defective (s : State) (p b reason : Nat) : State :=
  if (s.port p).defects.any (fun d => d.1 == b) then s else s.modPort p (fun q => { q with defects := q.defects ++ [(b, reason)] })

/-- The frames of a band that have been written: those whose count is not zero (log entry 111, DEDUCED). -/
def Port.written (q : Port) (b : Nat) : List Nat := (q.counts.filter (fun e => e.1 / 16384 == b)).map (fun e => e.1 % 16384)

/-- The written frames of band `b` are written into band `nb`, in place where the two are one: each frame's count rises by 1, WEAR is the largest, AGE and MARGIN begin anew (R344, R345, R347). -/
def Port.rewrite (q : Port) (b nb : Nat) : Port :=
  let ks := (q.written b).map (fun f => 16384 * nb + f)
  let counts := ks.foldl (fun (m : SMap Nat) k => m.put k (m.getD k 0 + 1)) q.counts
  let r := BandRec.age.set (BandRec.margin.set (q.band nb) 0) 0
  let w := ks.foldl (fun w k => max w (counts.getD k 0)) (BandRec.wear.get r + (if b = nb then 1 else 0))
  { q.setBand nb (BandRec.wear.set r (min 2097151 w)) with counts := counts }

/-- A logical band goes over from band `b`, which is left in `state`, to band `nb`. -/
def Port.moveBand (q : Port) (b nb state : Nat) : Port :=
  let r := q.band b
  let q := q.rewrite b nb
  (q.setBand nb (BandRec.logical.set (BandRec.state.set (q.band nb) Bs.mapped) (BandRec.logical.get r))).setBand b (BandRec.logical.set (BandRec.state.set r state) 0x3FFFF)

/-- A band that is to be relocated is marked as postponed: reason 2 or 3 (R350). -/
def postponed (b : Nat) (l : List (Nat × Nat)) : List (Nat × Nat) := l.map (fun d => if d.1 = b then (b, d.2 % 2 + 2) else d)

/-- The writes that wait for a relocation end with CAPACITY (R350). -/
def State.waitersEnd (s : State) (p : Nat) : State :=
  (s.port p).waiting.foldl (fun (s : State) tag => s.portEnds tag St.capacity) (s.modPort p (fun q => { q with waiting := [] }))

/-- The next relocation starts, if a FREE band can take the frames; without one it is reported and postponed, and goes on once a band is FREE (R350). A defective band that holds nothing is retired at once. -/
def State.startRelocation : Nat → State → Nat → State
  | 0, s, _ => s
  | fuel + 1, s, p =>
    let q := s.port p
    if q.reloc.isSome ∨ s.modState p ≠ Ms.admitted then s else
    let held := fun (b : Nat) => BandRec.state.get (q.band b) == Bs.mapped
    match q.defects.find? (fun d => d.2 < 2 || !held d.1 || q.leastWorn.isSome) with
    | none => if q.waiting.isEmpty then s else s.waitersEnd p
    | some (b, reason) =>
      let r := q.band b
      if held b then
        match q.leastWorn with
        | none => State.startRelocation fuel (((s.sparesExhausted p b (if reason = 1 then 3 else 4)).modPort p (fun q => { q with defects := postponed b q.defects })).waitersEnd p) p
        | some _ => s.modPort p (fun q => { q.setBand b (BandRec.state.set r Bs.relocating) with reloc := some (b, reason % 2) })
      else
        let s := s.modPort p (fun q => { q with defects := q.defects.filter (fun d => d.1 != b) })
        if BandRec.state.get r = Bs.free then
          let s := s.modPort p (fun q => q.setBand b (BandRec.state.set r (4 + reason % 2)))
          let s := if reason % 2 = 1 then s else (s.countSticky (Ch.defectsGrown + 256 * p)).raise ⟨0x0109, p, b, 0, none, []⟩
          State.startRelocation fuel (s.spareFloor p) p
        else State.startRelocation fuel s p

/-- RELOCATION_COMPLETE: the frames are in the FREE band with the least WEAR, those that could not be read poisoned; writes that waited are issued again. -/
def execRelocationComplete (p : Nat) (unreadable : List Nat) (s : State) : Host.Outcome State Fault Refusal :=
  let q := s.port p
  match q.reloc with
  | none => .next s
  | some (b, reason) =>
    let r := q.band b
    let lb := BandRec.logical.get r
    match q.leastWorn with
    | none => .next ((((s.sparesExhausted p b (if reason = 1 then 3 else 4)).modPort p (fun q =>
        { q.setBand b (BandRec.state.set r Bs.mapped) with reloc := none, defects := postponed b q.defects })).waitersEnd p).settleDraining p)
    | some nb =>
      let s := s.modPort p (fun q => { q.moveBand b nb (4 + reason) with
        reloc := none, defects := q.defects.filter (fun d => d.1 != b), waiting := [], poisoned := q.poisoned ++ unreadable.map (fun f => 16384 * lb + f % 16384) })
      let s := if reason = 1 then s else (s.countSticky (Ch.defectsGrown + 256 * p)).raise ⟨0x0109, p, b, unreadable.length, none, []⟩
      .next ((State.startRelocation 64 (s.spareFloor p) p).settleDraining p)

/-! ### Scrub (R346, R347) -/

/-- The band to be scrubbed next: one due for its MARGIN before one due for its AGE, the oldest, the lowest number. -/
def State.scrubNext (s : State) (p : Nat) : Option Nat :=
  let q := s.port p
  let mapped := q.bands.filter (fun e => BandRec.state.get e.2 == Bs.mapped)
  let byMargin := mapped.filter (fun e => decide (s.ch Ch.marginLimit ≤ BandRec.margin.get e.2))
  let byAge := if s.ch Ch.scrubRate = 0 then [] else mapped.filter (fun e => decide (s.ch Ch.scrubAge ≤ BandRec.age.get e.2))
  let best := fun (l : SMap Nat) => (l.foldl (fun (m : Option (Nat × Nat)) e => match m with
    | none => some e
    | some b => if BandRec.age.get b.2 < BandRec.age.get e.2 then some e else m) none).map Prod.fst
  if s.ch Ch.scrubRate ≠ 0 ∧ s.ch Ch.scrubRate ≤ q.scrubsHour then none
  else if byMargin.isEmpty then best byAge else best byMargin

/-- A run-time request in a CONTROL frame, or over the sleep bus. -/
def linkFrame (hdr : Nat) (payload : List Byte) (check : Nat) : LinkFrame :=
  let body := leBytes 16 hdr ++ payload ++ leBytes 4 check ++ leBytes 4 0
  ⟨BitVec.ofNat 128 hdr, payload, BitVec.ofNat 32 check, BitVec.ofNat 32 (crc32c body)⟩

/-- A frame goes out in sequence, kept until it is acknowledged (R334). -/
def State.sendLink (s : State) (p kind mask frame sector tag : Nat) (payload : List Byte) (check : Nat) : State :=
  let q := s.port p
  let seq := (q.txSeq + 1) % 4096
  let hdr := [(LinkHdr.kind, kind), (LinkHdr.seq, seq), (LinkHdr.ack, q.rxSeq), (LinkHdr.tag, tag), (LinkHdr.sector, sector), (LinkHdr.frame, frame), (LinkHdr.sectorMask, mask)].foldl (fun v x => x.1.set v x.2) 0
  let f := linkFrame hdr payload check
  (s.modPort p (fun q => { q with txSeq := seq, unacked := q.unacked ++ [f] })).out (.linkFrame p f)

def zeroSector : List Byte := List.replicate 256 0

/-- A control request on the link. -/
def State.sendControl (s : State) (p cmd arg : Nat) : State :=
  let bytes := leBytes 4 (cmd * 2 ^ 28 + arg % 2 ^ 24) ++ List.replicate 252 0
  s.sendLink p 5 0 0 0 0 bytes (crc32c bytes)

/-- A scrub order, or its poll, by the way that is open. -/
def State.scrubAsk (s : State) (p cmd arg : Nat) : State := if s.awake 0 then s.sendControl p cmd arg else s.askModule p cmd arg

/-- The module can be ordered to scrub: its link is up, or the sleep bus reaches it. -/
def State.scrubReach (s : State) (p : Nat) : Bool :=
  s.modState p == Ms.admitted && !(s.port p).relinking && (s.awake 0 || (s.ch Ch.sleepScrub == 1 && bit (s.ch (Ch.modId + 256 * p)) 2 && (s.port p).exchange.isNone))

/-- A scrub is due on a module that neither its link nor the sleep bus can order to scrub: the domains wake (R429). -/
def State.scrubWakes (s : State) (p : Nat) : Bool :=
  s.modState p == Ms.admitted && !s.awake 0 && (s.ch Ch.sleepScrub == 0 || !bit (s.ch (Ch.modId + 256 * p)) 2) && (s.scrubNext p).isSome

/-- SCRUB_DUE. -/
def execScrubDue (p : Nat) (s : State) : Host.Outcome State Fault Refusal :=
  if (s.port p).scrub.isSome then .next s
  else if !s.scrubReach p then .next (if s.scrubWakes p then s.wake else s) else
  match s.scrubNext p with
  | none => .next s
  | some b => .next ((s.modPort p (fun q => { q with scrub := some b, scrubsHour := q.scrubsHour + 1 })).scrubAsk p Sb.scrubBand b)

/-- A scrub has ended: in place, or into the FREE band with the most WEAR where the band is worn far below the mean (R347). -/
def State.scrubDone (s : State) (p b : Nat) : State :=
  let q := s.port p
  let r := q.band b
  let s := s.modPort p (fun q => { q with scrub := none })
  if BandRec.state.get r ≠ Bs.mapped then s else
  let w := q.mappedWear
  let worn := fun (s : State) (x : Nat) =>
    let s := (s.count Ch.scrubsDone 64).wearWarn p
    if 2000000 ≤ BandRec.wear.get ((s.port p).band x) then State.startRelocation 64 (s.defective p x 1) p else s
  if (BandRec.wear.get r + s.ch Ch.wearSpread) * w.2 < w.1 then
    match q.mostWorn with
    | some nb => worn ((s.modPort p (fun q => q.moveBand b nb Bs.free)).spareFloor p) nb
    | none => s.sparesExhausted p b 2
  else worn (s.modPort p (fun q => q.rewrite b b)) b

/-- The reply to a scrub order, or to its poll. -/
def State.scrubReply (s : State) (p cmd reply : Nat) : State :=
  match (s.port p).scrub with
  | none => s
  | some b =>
    if cmd = Sb.scrubBand then
      match sbResult cmd reply with
      | 0 => s.scrubAsk p Sb.scrubPoll 0
      | 1 => s.scrubAsk p Sb.scrubBand b
      | _ => s.modPort p (fun q => { q with scrub := none })
    else
      match sbResult cmd reply with
      | 0 => if bit reply 0 then s.scrubAsk p Sb.scrubPoll 0 else (s.scrubDone p b).settleDraining p
      | 1 => s.scrubAsk p Sb.scrubPoll 0
      | _ => s.modPort p (fun q => { q with scrub := none })

/-- SCRUB_BAND over the sleep bus. -/
def execScrubBand (p : Nat) (reply : BitVec 32) (s : State) : Host.Outcome State Fault Refusal :=
  match s.asked p Sb.scrubBand with
  | none => .next s
  | some _ => .next ((s.modPort p (fun q => { q with exchange := none })).scrubReply p Sb.scrubBand reply.toNat)

/-- SCRUB_POLL over the sleep bus. -/
def execScrubPoll (p : Nat) (reply : BitVec 32) (s : State) : Host.Outcome State Fault Refusal :=
  match s.asked p Sb.scrubPoll with
  | none => .next s
  | some _ => .next ((s.modPort p (fun q => { q with exchange := none })).scrubReply p Sb.scrubPoll reply.toNat)

/-- WAKE over the sleep bus: the module is ready for its link to resume. -/
def execWake (p : Nat) (reply : BitVec 32) (s : State) : Host.Outcome State Fault Refusal :=
  match s.asked p Sb.wake with
  | none => .next s
  | some _ =>
    let s := s.modPort p (fun q => { q with exchange := none })
    match sbResult Sb.wake reply.toNat with
    | 1 => .next (s.askModule p Sb.wake 0)
    | _ => .next s

/-- The factor of R346. -/
def ageFactor (eighths : Int) : Nat := if eighths ≤ 440 then 1 else if eighths ≤ 520 then 2 else if eighths ≤ 600 then 4 else if eighths ≤ 680 then 8 else 16

/-- The ports whose module's records the Lighthouse holds. -/
def State.recordPorts (s : State) : List Nat := (List.range 16).filter (fun p => [Ms.admitted, Ms.leaving, Ms.draining].contains (s.modState p))

/-- AGE_UPDATE. -/
def execAgeUpdate (s : State) : Host.Outcome State Fault Refusal :=
  .next (s.recordPorts.foldl (fun (s : State) p =>
    let f := ageFactor (signedOf 32 (s.ch (Ch.temperature + 256 * p)))
    let aged := fun (v : Nat) => min 8191 (BandRec.age.get v + f)
    let old := ((s.port p).bands).filter (fun e => BandRec.state.get e.2 == Bs.mapped)
    let s := s.modPort p (fun q => { q with scrubsHour := 0, bands := q.bands.map (fun e => if BandRec.state.get e.2 = Bs.mapped then (e.1, BandRec.age.set e.2 (aged e.2)) else e) })
    (old.filter (fun e => BandRec.age.get e.2 < 168 && decide (168 ≤ aged e.2))).foldl (fun (s : State) e => s.raise ⟨0x0107, p, e.1, aged e.2, none, []⟩) (State.startRelocation 64 s p)) s)

/-- The band records go to the modules' own metadata (R344). -/
def State.writeBandRecords (s : State) : State := s.recordPorts.foldl (fun (s : State) p => s.modPort p (fun q => { q with metaBands := q.bands })) s

/-- BAND_RECORD_WRITEBACK: while the links sleep it wakes the domains, whose next sleep entry writes the records (R427, R429). -/
def execBandRecordWriteback (s : State) : Host.Outcome State Fault Refusal := .next (if s.awake 0 then s.writeBandRecords else s.wake)

/-! ### Alarm words and wire 2 (R337, R338) -/

/-- ALARM_WORD. A GROWN word does not say which band: a free value (log entry 66, DESIGN CHOICE). -/
def execAlarmWord (p : Nat) (word : BitVec 16) (framed : Bool) (s : State) : Host.Outcome State Fault Refusal :=
  let w := word.toNat
  let kind := w / 8192
  if !framed ∨ 4 ≤ kind then .next (s.countSticky (Ch.alarmErrors + 256 * p))
  else if kind = 0 then .next (s.setTemperature p (signedOf 13 w))
  else if kind = 2 then
    if s.modState p ≠ Ms.admitted ∨ w % 8192 = 0 then .next s else
    let b := (Config.freeWord s.freeCount).toNat % firstMetaBand
    .next (State.startRelocation 64 ((s.drew 1).defective p b 0) p)
  else .next s

/-- ATTENTION_PULSE: wire 2 low for `us` µs. From 2 to 20 Charov reads the module's status in a CONTROL frame, which needs a link that is up; above that and below 50 it is counted; from 50 it is the early-removal warning (R338). A shorter one has no effect, for the rule gives it none (log entry 111, DEDUCED). -/
def execAttentionPulse (p : AttentionPulse) (s : State) : Host.Outcome State Fault Refusal :=
  if !([Ms.training, Ms.admitted, Ms.leaving, Ms.draining].contains (s.modState p.port)) ∨ p.us < 2 then .next s
  else if p.us ≤ 20 then .next (if s.modState p.port = Ms.training then s else s.sendControl p.port Sb.status 0)
  else if p.us < 50 then .next (s.countSticky (Ch.alarmErrors + 256 * p.port))
  else .next (s.earlyWarning p.port)

/-! ### The link layer (R332 to R334) -/

/-- The requests that a new transfer may serve: none once the module is LEAVING or DRAINING (R342, R343). -/
def State.unserved (s : State) (p : Nat) : List Request :=
  if s.modState p ≠ Ms.admitted then [] else (s.moduleRequests p).filter (fun q => !q.moved && !(s.port p).transfers.any (fun t => t.req == q.tag) && !(s.port p).waiting.contains q.tag)

/-- The sectors of its frame that a request touches, and those of them it covers only in part. -/
def Request.sectors (q : Request) : List Nat := touched (q.addr % 4096) q.len
def Request.parts (q : Request) : List Nat := q.sectors.filter (fun k => !(covered (q.addr % 4096) q.len).contains k)

/-- A write covers a sector only in part, and so must merge (R330). -/
def Request.partSector (q : Request) : Bool := !q.parts.isEmpty

/-- SECTOR_MASK of some sectors (R332). -/
def sectorMask (ks : List Nat) : Nat := ks.foldl (fun m k => m ||| 2 ^ k) 0

/-- The sector `k` of a frame as a write request leaves it, over what was read of it. -/
def mergedSector (q : Request) (k : Nat) (old : List Byte) : List Byte :=
  let off := q.addr % 4096
  (List.range 256).map (fun j => let x := 256 * k + j; if off ≤ x ∧ x < off + q.len then nth q.data (x - off) 0 else nth old j 0)

def Port.freeTag (p : Port) : Option Nat := ((List.range 1024).map (fun i => (p.nextTag + i) % 1024)).find? (fun t => !p.transfers.any (fun x => x.tag == t))

/-- The link can carry a transfer. -/
def State.linkReady (s : State) (p : Nat) : Bool := s.moduleServes p true && (s.port p).admitting == 0 && s.awake 0

/-- A transfer begins for a request (R333): the sectors of a write, which needs no merge, go out from its data; a read takes the sectors of a read request, or those that a write covers only in part. -/
def State.beginTransfer (s : State) (p : Nat) (q : Request) (write : Bool) : Option (State × Transfer) :=
  match (s.port p).freeTag, s.reefPlace q.addr with
  | some tag, some (_, mb, _) =>
    let ks := if write ∨ !q.write then q.sectors else q.parts
    let t : Transfer := ⟨tag, q.tag, write, mb, sectorMask ks, sectorMask ks, if write then ks.map (fun k => (k, mergedSector q k zeroSector)) else [], false⟩
    some (s.modPort p (fun x => { x with transfers := x.transfers ++ [t], nextTag := (tag + 1) % 1024 }), t)
  | _, _ => none

/-- The first sector of a transfer that is still to move. -/
def Transfer.sector (t : Transfer) : Nat := ((List.range 16).find? (bit t.left)).getD 0

/-- READ_FRAME: the oldest read, or part write whose sector must be read first; a module that is too warm takes no new write (R346). -/
def execReadFrame (p : Nat) (s : State) : Host.Outcome State Fault Refusal :=
  if !s.linkReady p then .next s else
  match (s.unserved p).find? (fun q => !q.write || q.partSector) with
  | none => .next s
  | some q => if q.write && s.tooWarm p then .next (s.portEnds q.tag St.busError) else match s.beginTransfer p q false with
    | none => .next s
    | some (s, t) => .next (s.sendLink p 1 t.mask t.frame 0 t.tag zeroSector (crc32c zeroSector))

/-- One WRITE frame of a transfer goes out, with its next sector (R333). -/
def State.sendSector (s : State) (p : Nat) (t : Transfer) : State :=
  let data := t.got.getD t.sector zeroSector
  (s.modPort p (fun x => { x with transfers := x.transfers.map (fun y => if y.tag = t.tag then { y with left := y.left - 2 ^ t.sector } else y) })).sendLink p 2 t.mask t.frame t.sector t.tag data (crc32c data)

/-- WRITE_FRAME: the next sector of a write under way, or the first of the oldest write that needs no merge, unless the module is too warm (R346). -/
def execWriteFrame (p : Nat) (s : State) : Host.Outcome State Fault Refusal :=
  if !s.linkReady p then .next s else
  match (s.port p).transfers.find? (fun t => t.write && t.left != 0) with
  | some t => .next (s.sendSector p t)
  | none =>
    match (s.unserved p).find? (fun q => q.write && !q.partSector) with
    | none => .next s
    | some q => if s.tooWarm p then .next (s.portEnds q.tag St.busError) else match s.beginTransfer p q true with
      | none => .next s
      | some (s, t) => .next (s.sendSector p t)

/-- Whether a frame is sound: its LINK_CRC, its KIND, its RSVD fields (R333). -/
def linkSound (f : LinkFrame) : Bool :=
  let h := f.header.toNat
  f.payload.length == 256 && f.linkCrc.toNat == (linkFrame h f.payload f.sectorCheck.toNat).linkCrc.toNat && decide (LinkHdr.kind.get h ≤ 5) && (rsvdBit h LinkHdr.rsvd).isNone

/-- Acknowledged frames leave; their replays are forgotten once ACK advances. -/
def State.linkAck (s : State) (p ack : Nat) : State :=
  let q := s.port p
  match q.unacked.findIdx? (fun f => LinkHdr.seq.get f.header.toNat == ack) with
  | some i => s.modPort p (fun q => { q with unacked := q.unacked.drop (i + 1), replays := 0 })
  | none => if q.unacked.isEmpty then s.modPort p (fun q => { q with replays := 0 }) else s

/-- A frame from a module: discarded and counted where it is damaged; otherwise its ACK is taken, and where it is next in sequence and of the KIND, its content. -/
def State.fromModule (s : State) (p kind : Nat) (f : LinkFrame) (take : State → State) : State :=
  if !(s.moduleServes p true) then s
  else if !linkSound f then s.countSticky (Ch.linkReplays + 256 * p)
  else
    let h := f.header.toNat
    let s := s.linkAck p (LinkHdr.ack.get h)
    if LinkHdr.seq.get h ≠ ((s.port p).rxSeq + 1) % 4096 ∨ LinkHdr.kind.get h ≠ kind then s
    else take (s.modPort p (fun q => { q with rxSeq := LinkHdr.seq.get h }))

def State.dropTransfer (s : State) (p tag : Nat) : State := s.modPort p (fun q => { q with transfers := q.transfers.filter (fun t => t.tag != tag) })

/-- DATA_FRAME: a sector whose check word holds is delivered; otherwise the read ends with DETECTED (R330). -/
def execDataFrame (p : Nat) (f : LinkFrame) (s : State) : Host.Outcome State Fault Refusal :=
  .next (s.fromModule p 3 f (fun s =>
    let h := f.header.toNat
    let sec := LinkHdr.sector.get h
    match (s.port p).transfers.find? (fun t => t.tag == LinkHdr.tag.get h && !t.write && bit t.left sec) with
    | none => s
    | some t =>
      let ok := f.sectorCheck.toNat == crc32c f.payload
      let upd := fun (y : Transfer) => if y.tag = t.tag then { y with left := y.left - 2 ^ sec, got := y.got.put sec f.payload, bad := y.bad || !ok } else y
      let s := s.modPort p (fun q =>
        let q := { q with transfers := q.transfers.map upd }
        if ok then { q.putFrame t.frame (256 * sec) f.payload with badSectors := q.badSectors.filter (· != 16 * t.frame + sec) }
        else { q with badSectors := (16 * t.frame + sec) :: q.badSectors.filter (· != 16 * t.frame + sec) })
      if ok then s else (s.reefDetected p t.frame sec).portEnds t.req St.detected))

/-- The largest corrected count of a frame read: MARGIN of its band, and the bits counted (R333, R344). -/
def State.corrected (s : State) (p frame n : Nat) : State :=
  let s := s.count (Ch.corrected + 256 * p) 64 n
  match (s.port p).mapped (frame / 16384) with
  | some b => s.modPort p (fun q => let r := q.band b; q.setBand b (BandRec.margin.set r (max (BandRec.margin.get r) (min 255 n))))
  | none => s

/-- The port has moved all the sectors of a request. -/
def State.requestMoved (s : State) (tag : Nat) : State :=
  { s with ferry := { s.ferry with requests := s.ferry.requests.map (fun q => if q.tag = tag then { q with moved := true } else q) } }

/-- The end of a read: it has come whole, or its frame could not be read. What a write covers only in part is then merged, and all its sectors are to be written (R330). -/
def State.readDone (s : State) (p : Nat) (t : Transfer) (status count : Nat) : State :=
  if 2 ≤ status then
    let s := s.modPort p (fun q => if status = 4 then { q with poisoned := t.frame :: q.poisoned } else { q with badSectors := (16 * t.frame + t.sector) :: q.badSectors })
    let s := ((s.dropTransfer p t.tag).reefDetected p t.frame t.sector).portEnds t.req St.detected
    match (s.port p).mapped (t.frame / 16384) with
    | some b => if status = 4 ∨ status = 5 then s else State.startRelocation 64 (s.defective p b 0) p
    | none => s
  else
    let s := if status = 1 then s.corrected p t.frame count else s
    match (s.request t.req).filter (fun _ => !t.bad && t.left == 0) with
    | some q =>
      if q.write then
        let ks := q.sectors
        s.modPort p (fun x => { x with transfers := x.transfers.map (fun y => if y.tag = t.tag then
          { y with write := true, mask := sectorMask ks, left := sectorMask ks, got := ks.map (fun k => (k, mergedSector q k (t.got.getD k zeroSector))) } else y) })
      else (s.dropTransfer p t.tag).requestMoved t.req
    | none => s.dropTransfer p t.tag

/-- The end of a write: made, or failed, so that its band is relocated and the write waits (R349). -/
def State.writeDone (s : State) (p : Nat) (t : Transfer) (status : Nat) : State :=
  let s := s.dropTransfer p t.tag
  if status ≤ 1 then s.requestMoved t.req else
  let s := s.modPort p (fun q => { q with waiting := q.waiting ++ [t.req] })
  match (s.port p).mapped (t.frame / 16384) with
  | some b => State.startRelocation 64 (s.defective p b 0) p
  | none => s.modPort p (fun q => { q with waiting := q.waiting.filter (· != t.req) })

/-- DONE_FRAME. -/
def execDoneFrame (p : Nat) (f : LinkFrame) (s : State) : Host.Outcome State Fault Refusal :=
  .next (s.fromModule p 4 f (fun s =>
    let h := f.header.toNat
    match (s.port p).transfers.find? (fun t => t.tag == LinkHdr.tag.get h) with
    | none => s
    | some t =>
      let st := LinkHdr.status.get h
      (if t.write then s.writeDone p t st else s.readDone p t st (((f.payload.headD 0).toNat))).settleDraining p |> fun s => State.startRelocation 64 s p))

/-- CONTROL_FRAME: the reply to a run-time request. -/
def execControlFrame (p : Nat) (f : LinkFrame) (s : State) : Host.Outcome State Fault Refusal :=
  .next (s.fromModule p 5 f (fun s =>
    let r := leNat (f.payload.take 4)
    let cmd := SbWord.cmd.get r
    if cmd = Sb.status then (if sbResult cmd r = 0 then s.statusTemperature p r else if sbResult cmd r = 1 then s.sendControl p Sb.status 0 else s)
    else if cmd = Sb.scrubBand ∨ cmd = Sb.scrubPoll then s.scrubReply p cmd r
    else s))

/-- The link has failed and is not recovered, or is trained once more (R334). -/
def State.linkFails (s : State) (p : Nat) : State :=
  if s.modState p = Ms.admitted ∧ s.ch Ch.relink = 1 then
    let reqs := s.moduleRequests p
    let s := s.modPort p (fun q => { q with transfers := [], unacked := [], replays := 0, scrub := none, admitting := 10 })
    let s := reqs.foldl (fun (s : State) q => s.respond q.tag .busError) s
    (s.modPort p (fun q => { q with admitting := 11 })).askModule p Sb.status 0
  else s.moduleLost p (if s.modState p = Ms.admitted then .busError else .reefLost)

/-- LINK_REPLAY: 2 µs without progress; after seven replays the link has failed. Where only IDLE frames are unacknowledged, one of them is what is replayed. (log entry 48, DEDUCED.) -/
def execLinkReplay (p : Nat) (s : State) : Host.Outcome State Fault Refusal :=
  let q := s.port p
  if !s.linkReady p then .next s
  else if 7 ≤ q.replays then .next (s.linkFails p)
  else
    let s := (s.modPort p (fun q => { q with replays := q.replays + 1 })).countSticky (Ch.linkReplays + 256 * p) (max 1 q.unacked.length)
    .next (q.unacked.foldl (fun (s : State) f => s.out (.linkFrame p f)) s)

end Sys2Proof.Machine
end

