-- ==== Sys2Proof/Machine/Window.lean ====
section
/-! DEFINITION. The Reef window of the server cores and its buffer of 64 frames (R352, R353). -/

namespace Sys2Proof.Machine

def windowBytes : Nat := 67108864
def windowStart : Nat := 0x000FF00000000000

/-- WINDOW_ERROR: cause 1 capacity, 2 plan area, 3 not admitted, 4 check. -/
def State.windowError (s : State) (a cause : Nat) : State :=
  let m := match s.reefPlace a with | some (p, _, _) => p | none => noRef
  s.raise ⟨0x0B06, if cause = 1 then noRef else m, evAddr a cause, 0, none, []⟩

def errorCause (status : Nat) : Nat := if status = St.detected then 4 else if status = St.capacity ∨ status = St.noObject then 1 else 3

/-- A dirty frame is written whole; one that cannot be written is reported and its bytes are lost (log entry 67, DEDUCED). -/
def State.writeFrame (s : State) (f : WindowFrame) : State :=
  match s.reefPlace f.addr with
  | none => s.windowError f.addr 1
  | some (p, mb, _) => match s.frameWrite p mb 0 f.data with
    | (s, none) => s
    | (s, some st) => s.windowError f.addr (errorCause st)

/-- Every dirty frame written, and clean. -/
def State.flushWindow (s : State) : State :=
  let s := (s.window.filter WindowFrame.dirty).foldl State.writeFrame s
  { s with window := s.window.map (fun f => { f with dirty := false }) }

/-- The frame of a Reef address, most recently used, fetched and checked if absent; or the cause of the error. -/
def State.bufferFrame (s : State) (a : Nat) : State × Except Nat WindowFrame :=
  let base := a / 4096 * 4096
  match s.window.find? (fun f => f.addr == base) with
  | some f => ({ s with window := s.window.filter (fun g => g.addr != base) ++ [f] }, .ok f)
  | none => match s.reefPlace base with
    | none => (s, .error 1)
    | some (p, mb, _) => match s.frameRead p mb 0 4096 with
      | (s, .error st) => (s, .error (errorCause st))
      | (s, .ok bs) =>
        let s := if s.window.length < 64 then s else match s.window with
          | f :: rest => (if f.dirty then s.writeFrame f else s) |> fun (s : State) => { s with window := rest }
          | [] => s
        let f : WindowFrame := ⟨base, bs, false⟩
        ({ s with window := s.window ++ [f] }, .ok f)

/-- What an access of `n` bytes at a Reef address is refused for before it reaches a frame. -/
def State.windowCheck (s : State) (a n : Nat) (store : Bool) : Option Nat :=
  if s.reefCapacity < a + n then some 1
  else if store ∧ s.planLoaded ∧ s.ch Ch.swBytes < a + n then some 2
  else match s.reefPlace a with
    | none => some 1
    | some (p, _, _) => if s.modState p ≠ Ms.admitted then some 3 else none

def windowAligned (addr n : Nat) : Bool := [1, 2, 4, 8, 16, 32, 64].contains n && addr % n == 0 && decide (windowStart ≤ addr ∧ addr + n ≤ windowStart + windowBytes)

/-- A window load while the domains are awake; until a microcode image runs only the Chart is reachable, and the access gets an error response (R23; log entry 99, DEDUCED). -/
def State.windowLoadNow (s : State) (addr n : Nat) : State :=
  let a := s.ch Ch.windowOffset + (addr - windowStart)
  if !s.pilotRuns ∨ !windowAligned addr n then s.out (.coreError addr) else
  match s.windowCheck a n false with
  | some c => (s.windowError a c).out (.coreError addr)
  | none => match s.bufferFrame a with
    | (s, .error c) => (s.windowError a c).out (.coreError addr)
    | (s, .ok f) => s.out (.coreData ((f.data.drop (a % 4096)).take n))

/-- A window store while the domains are awake. -/
def State.windowStoreNow (s : State) (addr : Nat) (data : List Byte) : State :=
  let a := s.ch Ch.windowOffset + (addr - windowStart)
  if !s.pilotRuns ∨ !windowAligned addr data.length then s.out (.coreError addr) else
  match s.windowCheck a data.length true with
  | some c => (s.windowError a c).out (.coreError addr)
  | none => match s.bufferFrame a with
    | (s, .error c) => (s.windowError a c).out (.coreError addr)
    | (s, .ok f) =>
      let d := f.data.take (a % 4096) ++ data ++ f.data.drop (a % 4096 + data.length)
      { s with window := s.window.map (fun g => if g.addr = f.addr then ⟨f.addr, d, true⟩ else g) }

/-- An access that needs the fast domains waits while they sleep, and wakes them (R19). -/
def State.holdAccess (s : State) (x : Access) : State := { s with heldAccesses := s.heldAccesses ++ [x] }.wake

/-- WINDOW_LOAD. -/
def execWindowLoad (addr n : Nat) (s : State) : Host.Outcome State Fault Refusal :=
  if s.ch Ch.powerState ≠ 7 then .next (s.holdAccess (.windowLoad addr n)) else .next (s.windowLoadNow addr n)

/-- WINDOW_STORE. -/
def execWindowStore (addr : Nat) (data : List Byte) (s : State) : Host.Outcome State Fault Refusal :=
  if s.ch Ch.powerState ≠ 7 then .next (s.holdAccess (.windowStore addr data)) else .next (s.windowStoreNow addr data)

/-- WINDOW_OFFSET: the buffer is flushed, and the window slides. -/
def execWindowOffset (r : Req) (s : State) : Host.Outcome State Fault Refusal :=
  .next (s.chartDo 0x1130 2 r
    { range := r.value % 4096 == 0 && decide (r.value < 2 ^ 52)
      state := true
      params := true
      effect := fun s => ({ s.flushWindow with window := [] } : State).setCh Ch.windowOffset r.value })

/-- FLUSH. -/
def execWindowFlush (r : Req) (s : State) : Host.Outcome State Fault Refusal :=
  if !actionIs r actF 1 then .next s else
  .next (s.chartDo 0x1130 3 r { range := onlyBits r.value [actF], state := true, params := true, effect := fun s => s.flushWindow })

end Sys2Proof.Machine
end

