-- ==== Sys2Proof/Machine/Cascade.lean ====
section
/-! DEFINITION. The cascade: which messages are accepted (R393, R394), group membership (R397 to R400), remote buoys (R298 to R301), the epoch check (R104). -/

namespace Sys2Proof.Machine

/-! ### Acceptance (R393, R394) -/

/-- A message that R393 discards. -/
def State.discards (s : State) (f : Frame) : Bool :=
  let h := f.header.toNat
  let k := MsgHdr.kind.get h
  let src := MsgHdr.srcPackage.get h
  k == 0 || decide (12 < k) || MsgHdr.msgCrc.get h != msgCrc h f.payload || MsgHdr.formatGen.get h != 3 || (rsvdBit h MsgHdr.rsvd).isSome
  || !s.pkgValid src || f.srcMac != mapMac (s.mapRecord src) || MsgHdr.dstPackage.get h != s.self || MsgHdr.length.get h != f.payload.length

/-- What ACK covers has arrived: it is kept no longer, and the resends begin anew. -/
def State.takeAck (s : State) (pkg ack : Nat) : State :=
  let p := s.peer pkg
  match p.unacked.findIdx? (fun f => MsgHdr.seq.get f.header.toNat == ack) with
  | some i => s.setPeer pkg { p with unacked := p.unacked.drop (i + 1), resends := 0 }
  | none => s

/-- A member has been heard (R396). -/
def State.hear (s : State) (pkg : Nat) : State :=
  match s.memberAt pkg with
  | some p => if bit (s.ch Ch.members) p then s.setCh Ch.membersUp (s.ch Ch.membersUp ||| 2 ^ p ||| (if bit (s.ch Ch.members) strapPos then 2 ^ strapPos else 0)) else s
  | none => s

/-- A message of a kind: discarded and counted, or, next in sequence, taken with its sender and ARG. It wakes the fast domains (R302). -/
def State.message (s : State) (kind : Nat) (f : Frame) (take : State → Nat → Nat → State) : State :=
  if s.discards f then s.countSticky Ch.msgDiscards
  else
    let h := f.header.toNat
    let src := MsgHdr.srcPackage.get h
    if MsgHdr.kind.get h ≠ kind then s
    else
      let s := (s.takeAck src (MsgHdr.ack.get h)).wake
      if MsgHdr.seq.get h ≠ ((s.peer src).rxSeq + 1) % 65536 then s
      else take ((s.setPeer src { s.peer src with rxSeq := MsgHdr.seq.get h }).hear src) src (MsgHdr.arg.get h)

/-! ### Digest trees that the master releases (R371 to R373; log entry 13, DESIGN CHOICE) -/

/-- A package may write its next tree of the shard; with `abort` its next UPDATE or version EXCHANGE of the shard is to be aborted. -/
def State.treeReleased (s : State) (shardId : Nat) (abort : Bool) : State :=
  let s : State := { s with cascade := { s.cascade with trees := s.cascade.trees.filter (· != shardId) } }
  if !abort then s
  else ((List.range s.shardCount).filter (fun k => s.shf k ShardRec.shardId == shardId)).foldl (fun (s : State) k => s.modShard k (fun z => { z with abortNext := true })) s

/-- The master releases a package's tree: here, or by TREE_REQUEST with action 1, or 2 to abort as well. -/
def State.releaseTree (s : State) (pkg shardId version : Nat) (abort : Bool) : State :=
  if pkg = s.self then s.treeReleased shardId abort
  else s.send pkg Mk.treeRequest (shardId + version * 2 ^ 32 + (if abort then 2 else 1) * 2 ^ 56) []

/-! ### Loss of a package -/

/-- The package at the other end of an EXCHANGE task (R310, R317, R404). -/
def State.exchangePeer (s : State) (t : Nat) : Nat :=
  if s.tf t TaskRec.stream = noRef then s.shf (s.tf t TaskRec.shard) ShardRec.ownerPackage else s.tf t TaskRec.streamB % 4096

/-- Commands that wait for another package, with the status each ends with when it is lost. -/
def State.remoteCmd (s : State) (d : Dispatched) (pkg : Nat) : Option Nat :=
  let op := cmdGet d.word Cmd.opcode
  if d.stage != .underway && d.stage != .waiting then none
  else if op = Op.exportC ∨ op = Op.importC then (if cmdGet d.word CmdExport.remote = 1 ∧ cmdGet d.word CmdExport.package = pkg then some St.ownerLost else none)
  else if op = Op.restore then (let k := cmdGet d.word CmdSet.set; if s.stf k SetRec.destKind = 2 ∧ s.stf k SetRec.partner = pkg then some St.reefLost else none)
  else none

/-- Writes of the Chart that wait for a package that is lost are refused. -/
def State.asksLost (s : State) (pkg : Nat) : State :=
  let s := match s.cascade.pairAsk with
    | some (r, p, _) => if p = pkg then ({ s with cascade := { s.cascade with pairAsk := none } } : State).chartEnd 0x9181 1 r refusedAct else s
    | none => s
  match s.cascade.adoptAsk with
  | some (r, k) => if s.ch Ch.copyPartner = pkg then (({ s with cascade := { s.cascade with adoptAsk := none } } : State).takeInbox (.bytes (2 ^ 40 + k))).chartEnd 0x8000 4 r refusedAct else s
  | none => s

/-- Open comparisons of shards that a lost package owns are dropped and reported; their trees are released (R377). -/
def State.ownerGone (s : State) (pkg : Nat) : State :=
  let mine := s.comparisons.filter (fun c => c.owner == pkg)
  let s : State := { s with comparisons := s.comparisons.filter (fun c => c.owner != pkg) }
  mine.foldl (fun (s : State) c =>
    let s := s.raise ⟨0x0708, c.shard, c.version, 2, none, []⟩
    c.roots.keys.foldl (fun (s : State) p => s.releaseTree p c.shard c.version false) s) s

/-- Every pending operation addressed to a package ends with OWNER_LOST, and the package is lost until membership is written anew (R398; log entry 113, DEDUCED); `ev` is the event that reports the loss, 0 for none here (R301, R394, R399). -/
def State.packageGone (s : State) (pkg ev : Nat) : State :=
  let s := s.setPeer pkg { s.peer pkg with lost := true, unacked := [], resends := 0 }
  let mine := s.cascade.ops.filter (fun o => o.pkg == pkg)
  let s : State := { s with cascade := { s.cascade with ops := s.cascade.ops.filter (fun o => o.pkg != pkg) } }
  let held := mine.filter (fun o => o.kind != 1)
  let s := if held.isEmpty then s else s.countSticky Ch.ownerLostReleases held.length
  let s := mine.foldl (fun (s : State) o => s.releaseWho (match o.who with | .cmd t => .cmd t | w => w) St.ownerLost ev) s
  let waits := mine.filterMap (fun o => match o.who with | .task x => some x | _ => none)
  let exch := (s.plan.runs.filter (fun r => s.tf r.ref.task TaskRec.taskKind == Tk.exchange && s.exchangePeer r.ref.task == pkg)).map TaskRun.ref
  let s := s.asksLost pkg
  let cmds := s.dispatched.filterMap (fun d => (s.remoteCmd d pkg).map (fun st => (d, st)))
  let s := cmds.foldl (fun (s : State) p => (s.endWork (.cmd p.1.tag) p.2).endWith p.1 p.2 ev) s
  let sets := (List.range (s.ch Ch.setsCount)).filter (fun k => s.stf k SetRec.destKind == 2 && s.stf k SetRec.partner == pkg)
  let s := (sets.filter (fun k => s.stf k SetRec.state == Sst.restoring)).foldl (fun (s : State) k => s.setStf k SetRec.state Sst.complete) s
  let s := (sets.filter (fun k => s.stf k SetRec.state == Sst.adopting)).foldl (fun (s : State) k => s.adoptFails k 2) s
  ((s.abortGroups (waits ++ exch) St.ownerLost).setPeer pkg { s.peer pkg with unacked := [], resends := 0 }).recheckSlips

/-- A member is lost (R301, R399): its waiters and entries here, what is addressed to it, its lent Reef, the sets copied to it. -/
def State.memberLost (s : State) (pos ev : Nat) : State :=
  match s.pkgAt pos with
  | none => s
  | some pkg =>
    let gone := fun (w : Waiter) => match w.who with | .remote p _ => p == pkg | _ => false
    let s := s.buoys.foldl (fun (s : State) (e : Nat × Buoy) =>
      let b := e.2
      let n := ((b.waiters ++ b.entries ++ b.parked).filter gone).length
      if n = 0 then s else
      let s := s.setBuoy e.1 { b with waiters := b.waiters.filter (fun w => !gone w), entries := b.entries.filter (fun w => !gone w), parked := b.parked.filter (fun w => !gone w) }
      ((s.countSticky Ch.ownerLostReleases n).raise ⟨0x0502, e.1, b.name + 5 * 2 ^ 32, n, some b.context, []⟩).serve e.1) s
    let s := (s.packageGone pkg ev).ownerGone pkg
    let reqs := s.ferry.requests.filter (fun q => q.reef && reefPartner q.addr == pos + 1)
    let s := reqs.foldl (fun (s : State) q => s.respond q.tag .reefLost) s
    let lent := fun n => decide (reefPartner (s.sf n StreamRec.dataBase) = pos + 1) && (s.residence n == Rs.toReef || s.residence n == Rs.reef || s.residence n == Rs.toHarbour)
    let s := ((List.range s.streamCount).filter lent).foldl State.reefLostStream s
    ((List.range (s.ch Ch.setsCount)).filter (fun k => s.stf k SetRec.state == Sst.taking && s.stf k SetRec.destKind == 2 && s.stf k SetRec.partner == pkg)).foldl
      (fun (s : State) k => s.breakSet k (s.stf k SetRec.destBase) St.ownerLost) s

/-- MESSAGE_RESEND (R394). -/
def execMessageResend (pkg : Nat) (s : State) : Host.Outcome State Fault Refusal :=
  let p := s.peer pkg
  if p.unacked.isEmpty then .next s
  else if p.resends < 7 then
    let s := (s.setPeer pkg { p with resends := p.resends + 1 }).countSticky Ch.msgResends p.unacked.length
    .next (p.unacked.foldl (fun (s : State) f => s.transmit pkg f) s)
  else
    let ev := s.nextEvent
    let s := s.raise ⟨0x0B09, pkg, s.ch Ch.msgResends, 0, none, []⟩
    .next (s.packageGone pkg ev)

/-! ### Heartbeats (R397) -/

/-- GROUP_STATE from what has been heard; HEADLESS stays until software forms the group anew. -/
def State.settleGroup (s : State) : State :=
  if s.ch Ch.groupId = 0 then s.setCh Ch.groupState 0
  else if s.ch Ch.groupState = 3 then s
  else
    let ok := s.otherMembers.all (fun p => match s.pkgAt p with
      | some pkg => (s.peer pkg).heard && (s.peer pkg).agrees
      | none => false)
    s.setCh Ch.groupState (if ok then 2 else 1)

/-- HEARTBEAT: ARG holds the sender's MASTER_POSITION and MEMBERS. -/
def execHeartbeat (f : Frame) (s : State) : Host.Outcome State Fault Refusal :=
  .next (s.message Mk.heartbeat f (fun s src arg =>
    let master := arg % 256
    let members := arg / 256 % 256
    let report := fun (s : State) (pos out : Nat) => s.raise ⟨0x0B0A, s.ch Ch.groupId, pos + out * 256, members + master % 8 * 256, none, []⟩
    match s.memberAt src with
    | none => if s.ch Ch.groupId = 0 then s else report s (mapPosition (s.mapRecord src)) 1
    | some p =>
      if !bit (s.ch Ch.members) p then report s p 1
      else
        let ok := master == s.masterPosition && members == s.ch Ch.members
        let s := (s.setPeer src { s.peer src with heard := true, agrees := ok }).settleGroup
        if ok then s else report s p 0))

/-- HEARTBEAT_SEND. -/
def execHeartbeatSend (s : State) : Host.Outcome State Fault Refusal :=
  if s.ch Ch.groupId = 0 then .next s
  else .next ((s.otherMembers.filterMap s.pkgAt).foldl (fun (s : State) pkg => s.send pkg Mk.heartbeat (s.masterPosition + s.ch Ch.members * 256) []) s)

/-- MEMBER_TIMEOUT on the master (R399). (log entry 51, DEDUCED.) -/
def execMemberTimeout (pos : Nat) (s : State) : Host.Outcome State Fault Refusal :=
  if s.ch Ch.groupId = 0 ∨ !s.isMaster ∨ pos = strapPos ∨ !bit (s.ch Ch.membersUp) pos then .next s else
  let s := s.setCh Ch.membersUp (s.ch Ch.membersUp - 2 ^ pos)
  let ev := s.nextEvent
  let s := s.raise ⟨0x0B0B, s.ch Ch.groupId, pos, s.ch Ch.membersUp, none, []⟩
  let wide := fun (b : Buoy) => b.kind == Bk.barrier && b.owner != Bo.plan
  let r := s.ownersLost wide 5 true false
  let s := r.1.abortGroups r.2 St.ownerLost
  let s := ((s.otherMembers.filter (fun p => p != pos && bit (s.ch Ch.membersUp) p)).filterMap s.pkgAt).foldl (fun (s : State) pkg => s.send pkg Mk.memberNotice pos []) s
  .next ((s.memberLost pos ev).recheckSlips)

/-- MEMBER_NOTICE: a survivor applies the loss. -/
def execMemberNotice (f : Frame) (s : State) : Host.Outcome State Fault Refusal :=
  .next (s.message Mk.memberNotice f (fun s src arg =>
    if s.memberAt src ≠ some s.masterPosition ∨ 8 ≤ arg ∨ arg = strapPos then s else
    let s := if bit (s.ch Ch.membersUp) arg then s.setCh Ch.membersUp (s.ch Ch.membersUp - 2 ^ arg) else s
    s.memberLost arg 0))

/-- MASTER_TIMEOUT: a member is HEADLESS, and what is homed on the master ends (R400). -/
def execMasterTimeout (s : State) : Host.Outcome State Fault Refusal :=
  if s.ch Ch.groupId = 0 ∨ s.isMaster ∨ s.ch Ch.groupState = 3 then .next s else
  let ev := s.nextEvent
  let s := (s.setCh Ch.groupState 3).raise ⟨0x0B0C, s.ch Ch.groupId, s.masterPosition, 0, none, []⟩
  match s.pkgAt s.masterPosition with
  | none => .next s
  | some pkg =>
    let mine := s.cascade.ops.filter (fun o => o.pkg == pkg && o.kind == 3)
    let trees := s.cascade.trees
    let s : State := { s with cascade := { s.cascade with ops := s.cascade.ops.filter (fun o => !(o.pkg == pkg && o.kind == 3)), trees := [] } }
    let s := if mine.isEmpty then s else s.countSticky Ch.ownerLostReleases mine.length
    let s := mine.foldl (fun (s : State) o => s.releaseWho o.who St.ownerLost ev) s
    let waits := mine.filterMap (fun o => match o.who with | .task x => some x | _ => none)
    let held := s.inOrder.filter (fun x => s.tf x.task TaskRec.taskKind == Tk.digest && s.taskState x == Ts.pending && s.atHead x && trees.contains (s.shf (s.tf x.task TaskRec.shard) ShardRec.shardId))
    .next ((s.abortGroups (waits ++ held) St.ownerLost).recheckSlips)

/-! ### Remote buoys (R298 to R300) -/

/-- BUOY_OP: carried out against this package's binding of the name. ARG is the issuer's number for it. -/
def execBuoyOp (f : Frame) (s : State) : Host.Outcome State Fault Refusal :=
  .next (s.message Mk.buoyOp f (fun s src arg =>
    let b := f.payload
    let name := leNat (b.take 4)
    let n := leNat ((b.drop 4).take 4)
    let ctx := leNat ((b.drop 8).take 2)
    let op := leNat ((b.drop 10).take 2)
    let id := arg % 2 ^ 32
    let who := Who.remote src id
    let answer := fun (s : State) (status cause : Nat) => s.send src Mk.buoyReply (id + status * 2 ^ 32 + cause * 2 ^ 40) []
    if op = 0 ∨ 3 < op then s
    else match s.findBuoy ctx name with
      | none => answer (s.buoyError noRef ctx name 7 op n).1 St.buoyError 7
      | some _ =>
        match (if op = 1 then s.signal ctx name n else if op = 2 then s.waitOn ctx name n who else s.enterBarrier ctx name n who) with
        | (s, .waits) => s.recheckSlips
        | (s, .ended st _) => (answer s st 0).recheckSlips))

/-- BUOY_REPLY: the pending operation ends as its target says (R299). -/
def execBuoyReply (f : Frame) (s : State) : Host.Outcome State Fault Refusal :=
  .next (s.message Mk.buoyReply f (fun s src arg =>
    let id := arg % 2 ^ 32
    let st := arg / 2 ^ 32 % 256
    let cause := arg / 2 ^ 40 % 256
    match s.cascade.ops.find? (fun o => o.id == id && o.pkg == src) with
    | none => s
    | some o =>
      let s : State := { s with cascade := { s.cascade with ops := s.cascade.ops.filter (fun p => p.id != id) } }
      let s := if st = St.ownerLost ∧ o.kind ≠ 1 then s.countSticky Ch.ownerLostReleases else s
      match o.who with
      | .remote _ _ => s
      | .gone => s
      | .cmd tag =>
        (match s.dispatched.find? (fun d => d.tag == tag) with
         | none => s
         | some d =>
           if st = St.success then (if o.kind = 1 then s.endCmd d st 0 else s.setStage tag .granted 0)
           else if st = St.buoyError ∧ cause = 7 then
             let r := s.buoyError noRef (s.cmdContext d) (cmdGet d.word CmdBuoy.buoy) 7 o.kind o.arg
             r.1.endCmd d st (s.nextEvent)
           else s.endWith d st 0)
      | .task x =>
        let s := if st = St.buoyError ∧ cause = 7 then (s.buoyError noRef (s.tf x.task TaskRec.context) (s.edf o.edge EdgeRec.buoy) 7 o.kind o.arg).1 else s
        if st ≠ St.success then (s.abortGroup x st).recheckSlips
        else if o.kind = 1 then s
        else (match s.arrival x with
          | some a => (s.setArrival { a with remote := a.remote.put o.edge true })
          | none => s).recheckSlips))

/-- EPOCH_REPORT (R104): the master collects it; a member that the master answers so reports the mismatch. -/
def execEpochReport (f : Frame) (s : State) : Host.Outcome State Fault Refusal :=
  .next (s.message Mk.epochReport f (fun s src arg =>
    match s.memberAt src with
    | none => s
    | some p =>
      let e := MsgHdr.planEpoch.get f.header.toNat
      let s : State := { s with cascade := { s.cascade with epochs := s.cascade.epochs.put p (e, f.payload, arg % 4096) } }
      if s.isMaster then s.settleEpoch
      else if p = s.masterPosition ∧ s.planLoaded then
        let d := s.epochDiffers
        s.raise ⟨0x0A04, s.planHdr PlanHdr.planEpoch, d.1 ||| (2 ^ p), d.2, none, []⟩
      else s))

end Sys2Proof.Machine
end

