-- ==== Sys2Proof/Machine/Sets.lean ====
section
/-! DEFINITION. Restore sets: taking, copying, dropping, restoring and adopting them; digests and their comparison (R356 to R370). -/

namespace Sys2Proof.Machine

/-! ### What an item holds (R361) -/

/-- A part of an item: its bytes, where they lie in the Harbour, or from `reefMark` on in the Reef, and whether they are storage of a stream in the Harbour. -/
abbrev Part := List Byte × Option Nat × Bool

/-- What came of reading an item: its parts and, where a source could not be read, an address and a status. -/
abbrev Parts := List Part × Option (Nat × Nat)

def partBytes (ps : List Part) : List Byte := ps.flatMap Prod.fst
def zeros (n : Nat) : List Byte := List.replicate n 0
def padPart (n size : Nat) : Part := (zeros (roundUp n size - n), none, false)

/-- Harbour bytes as a part, filled with zeros to a multiple of `size`. -/
def State.harbourPart (s : State) (a n size : Nat) (keeps : Bool) : List Part := [(s.rd a n, some a, keeps), padPart n size]

/-- The bytes of segment `h` up to the end of its last block; segment 0 of a LOSSY stream goes on to its record copy. -/
def State.segBytes (s : State) (n h : Nat) : Nat :=
  let left := ceilDiv (s.tiles n - h) 20
  if s.cls n = Cl.lossy then
    if h = 0 ∧ (s.aux n).copySize ≠ 0 then 32 * (fixedGranules (s.rate n) * ceilDiv (s.tiles n) 20 + (s.aux n).copySize)
    else 32 * fixedGranules (s.rate n) * left
  else if s.cls n = Cl.raw then 4096 * left
  else 32 * (s.aux n).offsets.getD h 0

/-- A STREAM item: the record, the index table, the segments. -/
def State.streamParts (s : State) (n : Nat) : State × Parts :=
  let ix := if hasIndex (s.cls n) then 8 * s.tiles n else 0
  let first : List Part := [(s.rd (s.streamBase n) 64, none, false), padPart 64 4096] ++ s.harbourPart (s.sf n StreamRec.indexBase) ix 4096 true
  let reef := s.residence n == Rs.reef || s.residence n == Rs.toHarbour
  if s.cls n = Cl.regen ∨ s.cls n = Cl.drop then (s, first, none) else
  (List.range 20).foldl (fun (r : State × Parts) h =>
    let s := r.1
    let k := s.segBytes n h
    if s.residence n = Rs.quay then
      let ts := (List.range (ceilDiv (s.tiles n - h) 20)).map (fun i => 20 * i + h)
      let q := s.quay (s.sf n StreamRec.die)
      let bytes := ts.flatMap (fun t => match q.held.find (n * 2 ^ 20 + t) with | some slot => s.quayBytes (s.sf n StreamRec.die) slot | none => zeros 4096)
      (s, r.2.1 ++ [(bytes, none, false)], r.2.2)
    else if k = 0 then r
    else if reef then
      match s.reefRead (s.segment n h) k with
      | (s, .ok bs) => (s, r.2.1 ++ [(bs, some (reefMark + s.segment n h), false), padPart k 4096], r.2.2)
      | (s, .error st) => (s, r.2.1 ++ [(zeros k, none, false), padPart k 4096], match r.2.2 with | some f => some f | none => some (s.segment n h, st))
    else (s, r.2.1 ++ s.harbourPart (s.segment n h) k 4096 true, r.2.2)) (s, first, none)

/-- The windows not yet applied, oldest first. -/
def State.pendingWindows (s : State) (k : Nat) : List (Int × Nat) :=
  (s.shard k).complete.foldl (fun (l : List (Int × Nat)) c => l.filter (fun x => decide (x.1 < c.1)) ++ [c] ++ l.filter (fun x => decide (c.1 < x.1))) []

/-- Whether this package owns the shard. -/
def State.owns (s : State) (k : Nat) : Bool := s.shf k ShardRec.ownerPackage == s.self

/-- The payload of an export record (R322). -/
def State.exportPayload (s : State) (k a : Nat) : State × Parts :=
  let size := s.optParams a * elemBytes (s.fld a OptRec.weightType)
  let weights := s.harbourPart (s.slotBase k (s.shf k ShardRec.currentVersion)) size 4096 false
  if !s.owns k then (s, weights, none) else
  let n := s.stateSize a
  let acc := (s.pendingWindows k).flatMap (fun c => s.harbourPart (s.accBuf a c.2) (4 * s.optParams a) 4096 false)
  if n = 0 then (s, weights ++ acc, none)
  else if s.reefState a then
    match s.reefRead (s.fld a OptRec.stateBase) n with
    | (s, .ok bs) => (s, weights ++ [(bs, some (reefMark + s.fld a OptRec.stateBase), false)] ++ acc, none)
    | (s, .error st) => (s, weights ++ [(zeros n, none, false)] ++ acc, some (s.fld a OptRec.stateBase, st))
  else (s, weights ++ s.harbourPart (s.fld a OptRec.stateBase) n 4096 false ++ acc, none)

/-- The header of an export record (R322). -/
def State.exportHeader (s : State) (k a : Nat) (payload : List Byte) : List Byte :=
  let own := s.owns k
  let f := fun (x : Fld) => s.fld a x
  let fmts := if own then f OptRec.secFmt1 + f OptRec.secFmt2 * 16 + f OptRec.secFmt3 * 256 else 0
  leBytes 64 ([(ExportHdr.package, s.self), (ExportHdr.payloadCrc, crc32c payload), (ExportHdr.payloadBytes, payload.length),
    (ExportHdr.version, s.shf k ShardRec.currentVersion), (ExportHdr.updates, f OptRec.updates), (ExportHdr.cols, f OptRec.cols), (ExportHdr.rows, f OptRec.rows),
    (ExportHdr.colFirst, f OptRec.colFirst), (ExportHdr.rowFirst, f OptRec.rowFirst), (ExportHdr.tensorId, f OptRec.tensorId), (ExportHdr.shardId, f OptRec.shardId),
    (ExportHdr.pending, if own then f OptRec.pending else 0), (ExportHdr.secGroup, f OptRec.secGroup), (ExportHdr.secFmts, fmts), (ExportHdr.weightType, f OptRec.weightType),
    (ExportHdr.formatGen, 3), (ExportHdr.exportMagic, 0x44524853)].foldl (fun v p => p.1.set v p.2) 0)

/-- A SHARD item: an export record, then every slot. -/
def State.shardParts (s : State) (k a : Nat) : State × Parts :=
  match s.exportPayload k a with
  | (s, ps, f) =>
    let n := (partBytes ps).length + 64
    let slots := s.shf k ShardRec.slots * s.shf k ShardRec.slotBytes
    (s, [(s.exportHeader k a (partBytes ps), none, false)] ++ ps ++ [padPart n 65536, (s.rd (s.shf k ShardRec.base) slots, some (s.shf k ShardRec.base), false)], f)

/-- The block of a GROUP item (R405). -/
def State.groupBlock (s : State) : List Byte :=
  let q := fun (k i : Nat) => leBytes 8 (s.ch (k + 256 * i))
  let hdr := [(GroupHdr.pkgMapCount, s.ch Ch.pkgMapCount), (GroupHdr.selfPackage, s.ch Ch.selfPackage), (GroupHdr.members, s.ch Ch.members),
    (GroupHdr.masterOverride, s.ch Ch.masterOverride), (GroupHdr.groupId, s.ch Ch.groupId), (GroupHdr.formatGen, 3), (GroupHdr.groupMagic, 0x50555247)].foldl (fun v p => p.1.set v p.2) 0
  leBytes 64 hdr ++ (List.range 8).flatMap (fun i => q Ch.lendBase i ++ q Ch.lendBytes i) ++ (List.range 8).flatMap (fun i => q Ch.borrow i ++ zeros 8)
    ++ s.rd (s.ch Ch.pkgMapBase) (16 * s.ch Ch.pkgMapCount)

/-! ### Descriptors (R360) -/

def State.descItems (s : State) (base : Nat) : List Nat := (List.range (s.fld base SetDesc.itemCount)).map (fun i => s.rdNat (base + 64 + 32 * i) 32)

abbrev Ik.range : Nat := 1
abbrev Ik.stream : Nat := 2
abbrev Ik.shard : Nat := 3
abbrev Ik.group : Nat := 4
abbrev Ik.position : Nat := 5
abbrev Ik.counters : Nat := 6

/-- An item whose bytes lie at ADDR. -/
def byAddress (it : Nat) : Bool := [Ik.range, Ik.position, Ik.counters].contains (SetItem.itemKind.get it)

/-- An UPDATE of the shard is in progress. -/
def State.updating (s : State) (k : Nat) : Bool :=
  s.plan.runs.any (fun r => s.tf r.ref.task TaskRec.taskKind == Tk.update && s.tf r.ref.task TaskRec.shard == k)
  || s.engines.any (fun e => e.2.run.any (fun v => v.shard == k && v.update != 0))

/-- An item is captured, or marked ABSENT (R365). -/
def State.capturable (s : State) (it : Nat) : Bool :=
  let o := SetItem.object.get it
  if SetItem.itemKind.get it = Ik.stream then [Ss.held, Ss.serving, Ss.aborted].contains (s.stateOf o)
  else if SetItem.itemKind.get it = Ik.shard then !s.updating o
  else true

/-- The parts of an item. -/
def State.itemParts (s : State) (it : Nat) : State × Parts :=
  let o := SetItem.object.get it
  let k := SetItem.itemKind.get it
  if byAddress it then (s, s.harbourPart (SetItem.addr.get it) (SetItem.bytes.get it) 65536 false, none)
  else if k = Ik.stream then s.streamParts o
  else if k = Ik.shard then (match s.shardOpt o with | some a => s.shardParts o a | none => (s, [], none))
  else (s, [(s.groupBlock, none, false)], none)

/-- The Harbour ranges an item is taken from. -/
def State.itemRanges (s : State) (it : Nat) : List (Nat × Nat) :=
  let o := SetItem.object.get it
  let k := SetItem.itemKind.get it
  if byAddress it then [(SetItem.addr.get it, SetItem.bytes.get it)]
  else if k = Ik.stream then
    (s.sf o StreamRec.indexBase, if hasIndex (s.cls o) then 8 * s.tiles o else 0)
      :: (if s.residence o = Rs.harbour ∨ s.residence o = Rs.toReef then (List.range 20).map (fun h => (s.segment o h, s.segBytes o h)) else [])
  else if k = Ik.shard then
    (s.shf o ShardRec.base, s.shf o ShardRec.slots * s.shf o ShardRec.slotBytes)
      :: (match s.shardOpt o with
          | some a => (if s.reefState a ∨ !s.owns o then [] else [(s.fld a OptRec.stateBase, s.stateSize a)])
              ++ (s.pendingWindows o).map (fun c => (s.accBuf a c.2, 4 * s.optParams a))
          | none => [])
  else []

/-- The bytes of an item in the copy: whole pages. -/
def State.itemBytes (s : State) (it : Nat) : Nat :=
  if s.capturable it then roundUp (partBytes (s.itemParts it).2.1).length 65536 else 0

def State.copySize (s : State) (base : Nat) : Nat := 65536 + ((s.descItems base).map s.itemBytes).foldl (· + ·) 0

/-- Nodes of the tree over `n` leaves (R356). -/
def treeNodes : Nat → Nat → Nat
  | 0, _ => 0
  | fuel + 1, n => if n ≤ 1 then n else n + treeNodes fuel (ceilDiv n 2)

/-! ### Validation of a descriptor (R364) -/

/-- Sizes an item may have (R360). -/
def itemSizeOk (it : Nat) : Bool :=
  let k := SetItem.itemKind.get it
  let n := SetItem.bytes.get it
  if k = Ik.range then n != 0 && n % 65536 == 0
  else if k = Ik.position then decide (1 ≤ n ∧ n ≤ 65536)
  else if k = Ik.counters then n % 8 == 0 && decide (8 ≤ n ∧ n ≤ 65536)
  else true

def itemCoded (it : Nat) : Bool :=
  let k := SetItem.itemKind.get it
  decide (1 ≤ k ∧ k ≤ 6) && (rsvdBit it SetItem.rsvd).isNone && SetItem.absent.get it == 0
  && (byAddress it || (SetItem.addr.get it == 0 && SetItem.bytes.get it == 0))
  && (k == Ik.stream || k == Ik.shard || SetItem.object.get it == noRef)

def itemAligned (it : Nat) : Bool :=
  !byAddress it || SetItem.addr.get it % (if SetItem.itemKind.get it = Ik.range then 65536 else 64) == 0

/-- The first check that a descriptor fails, with DETAIL; `base` lies in a region and has been read. (log entry 76, DEDUCED.) -/
def State.setFault (s : State) (k base ctx kind : Nat) : Option (Nat × Nat) :=
  let f := fun (x : Fld) => s.fld base x
  let items := s.descItems base
  let hdr := s.rdNat base 64
  let destKind := f SetDesc.destKind
  let dest := f SetDesc.destBase
  let size := s.copySize base
  let tree := f SetDesc.treeBase
  let treeSize := 32 * treeNodes 64 (size / 65536)
  let missing := fun (it : Nat) =>
    let o := SetItem.object.get it
    (SetItem.itemKind.get it == Ik.stream && !decide (o < s.streamCount)) || (SetItem.itemKind.get it == Ik.shard && (!decide (o < s.shardCount) || (s.shardOpt o).isNone))
  let foreign := fun (it : Nat) => SetItem.itemKind.get it == Ik.stream && s.sf (SetItem.object.get it) StreamRec.context != ctx
  let ranges := items.flatMap s.itemRanges
  let outside := ranges.filterMap (fun r => s.firstOutside r.1 r.2)
  let area := fun (a n : Nat) => (s.firstOutside a n).isSome || s.protects a n || ranges.any (fun r => r.2 != 0 && overlap a n r.1 r.2)
  let copyBad := if destKind = 0 then area dest size else if destKind = 1 then decide (s.ch Ch.swBytes < dest + size) else false
  if f SetDesc.setMagic ≠ 0x54455352 ∨ f SetDesc.formatGen ≠ 3 ∨ (rsvdBit hdr SetDesc.rsvd).isSome ∨ 3 ≤ destKind then some (St.badEncoding, 64)
  else if 2040 < f SetDesc.itemCount then some (St.badLength, 64)
  else if !items.all itemCoded then some (St.badEncoding, 64)
  else if !items.all itemSizeOk ∨ f SetDesc.destBytes < size then some (St.badLength, 64)
  else if base % 64 ≠ 0 ∨ tree % 64 ≠ 0 ∨ dest % 65536 ≠ 0 ∨ !items.all itemAligned then some (St.alignment, 64)
  else if items.any missing then some (St.noObject, 64)
  else if destKind = 2 ∧ s.ch Ch.pairState ≠ 1 ∧ s.ch Ch.pairState ≠ 2 then some (St.noObject, 64)
  else if kind = 1 ∧ !s.planLoaded then some (St.noObject, 24)
  else if items.any foreign then some (St.objectOwned, 0)
  else match outside with
    | a :: _ => some (St.protected_, a % 2 ^ 48)
    | [] =>
      if copyBad then some (St.protected_, dest % 2 ^ 48)
      else if area tree treeSize then some (St.protected_, tree % 2 ^ 48)
      else
        let st := s.stf k SetRec.state
        if st = Sst.taking ∨ st = Sst.restoring ∨ st = Sst.adopting then some (St.streamState, st) else none

/-! ### Capture (R365) -/

/-- A captured set's items: the content so far, the pieces in the Harbour, the items absent with the descriptor's items as the copy holds them, and a source that could not be read. -/
structure Captured where
  content : List (List Byte)
  len     : Nat
  pieces  : List (Nat × Nat × Nat × Bool)
  items   : List Nat
  absent  : List (Nat × Nat)
  gens    : List Nat
  failed  : Option (Nat × Nat)
  deriving DecidableEq, Repr

/-- The generations that the blocks of a stream name. -/
def State.namedGens (s : State) (n : Nat) : List Nat :=
  if hasIndex (s.cls n) then
    ((List.range (s.tiles n)).filterMap (fun t => let e := s.entry n t; if IndexEnt.valid.get e = 1 ∧ IndexEnt.tableGen.get e ≠ 0 then some (IndexEnt.tableGen.get e) else none)).dedup
  else []

def State.captureItem (r : State × Captured) (i it : Nat) : State × Captured :=
  let s := r.1
  let c := r.2
  if !s.capturable it then (s, { c with items := c.items ++ [SetItem.absent.set it 1], absent := c.absent ++ [(i, SetItem.itemKind.get it)] })
  else
    match s.itemParts it with
    | (s, ps, f) =>
      let n := (partBytes ps).length
      let at_ := (ps.foldl (fun (x : Nat × List (Nat × Nat × Nat × Bool)) (p : Part) =>
        (x.1 + p.1.length, match p.2.1 with | some a => if p.1.isEmpty then x.2 else x.2 ++ [(x.1, a, p.1.length, p.2.2)] | none => x.2)) (c.len, [])).2
      let o := SetItem.object.get it
      let gs := if SetItem.itemKind.get it = Ik.stream then s.namedGens o else []
      (s, { content := c.content ++ [partBytes ps ++ zeros (roundUp n 65536 - n)], len := c.len + roundUp n 65536, pieces := c.pieces ++ at_, items := c.items ++ [it],
            absent := c.absent, gens := c.gens ++ gs.filter (fun g => !c.gens.contains g), failed := match c.failed with | some x => some x | none => f })

/-- The set is captured: its record, its pages protected, TAKING; absent items reported. -/
def State.capture (s : State) (k base ctx kind : Nat) : State :=
  let items := s.descItems base
  let dk := s.fld base SetDesc.destKind
  let r := (items.mapIdx (fun i it => (i, it))).foldl (fun (r : State × Captured) p => State.captureItem r p.1 p.2) (s, ⟨[], 65536, [], [], [], [], none⟩)
  let c := r.2
  let s := r.1.setFlds (s.setBase k) [(SetRec.root, 0), (SetRec.copyBytes, c.len), (SetRec.stepCount, s.plan.stepCount), (SetRec.planEpoch, s.epoch),
    (SetRec.itemsAbsent, c.absent.length), (SetRec.context, ctx), (SetRec.state, Sst.taking), (SetRec.kind, kind), (SetRec.destKind, dk),
    (SetRec.partner, if dk = 2 then s.ch Ch.copyPartner else 0), (SetRec.destBase, s.fld base SetDesc.destBase), (SetRec.treeBase, s.fld base SetDesc.treeBase),
    (SetRec.leaves, c.len / 65536)]
  let head := s.rd (s.setBase k) 128 ++ s.rd base 64 ++ c.items.flatMap (leBytes 32)
  let page := head ++ zeros (65536 - head.length)
  let s := s.modSet k (fun z => { z with pages := List.range (c.len / 65536), pieces := c.pieces, content := page ++ c.content.flatten, gens := c.gens, adopted := false })
  let s := c.absent.foldl (fun (s : State) (x : Nat × Nat) => s.raise ⟨0x0703, k, x.1, x.2, some ctx, []⟩) s.settleGens
  match c.failed with
  | some (a, st) => s.breakSet k a st
  | none => s

/-- Where a set's descriptor lies: in a region, or nowhere it may. -/
def State.descInRegion (s : State) (base : Nat) : Bool := (s.firstOutside base (64 + 32 * min (s.fld base SetDesc.itemCount) 2040)).isNone

/-- SNAPSHOT (R360, R364 to R367): the descriptor is validated and the set captured; the command completes when the set is COMPLETE or BROKEN. (log entry 42, DEDUCED.) -/
def execSnapshot (c : Nat) (m : MemResult) (s : State) : Host.Outcome State Fault Refusal :=
  match (s.cmd c Op.snapshot).filter (fun d => d.stage == .ready) with
  | none => .next s
  | some d =>
    let k := cmdGet d.word CmdSet.set
    let base := if cmdGet d.word CmdSet.descriptor = 0 then s.stf k SetRec.descAddr else cmdGet d.word CmdSet.descriptor
    if s.ch Ch.setsCount ≤ k then .next (s.endCmd d St.noObject 416)
    else if !s.descInRegion base then .next (s.endCmd d St.protected_ (base % 2 ^ 48))
    else match s.readEnds d m base (64 + 32 * min (s.fld base SetDesc.itemCount) 2040) with
      | some s => .next s
      | none =>
        match s.setFault k base (s.cmdContext d) (cmdGet d.word CmdSet.setKind) with
        | some (st, detail) => .next (s.endCmd d st detail)
        | none => .next (((s.setStage c .underway 0).modSet k (fun z => { z with cmd := some c })).capture k base (s.cmdContext d) (cmdGet d.word CmdSet.setKind))

/-- PAGE_COPY_COMPLETE (R366): the next page in copy order. -/
def execPageCopyComplete (set : Nat) (s : State) : Host.Outcome State Fault Refusal :=
  if s.stf set SetRec.state ≠ Sst.taking ∨ s.ch Ch.setsCount ≤ set then .next s else
  match (s.setAt set).pages with
  | [] => .next s
  | p :: _ => .next (s.copyPage set p)

/-- SNAPSHOT_TASK (R364, R365): waits until every task before it in plan order is DONE and its set is not TAKING; done at capture. A set that is RESTORING or ADOPTING fails validation. The SET_KIND of a task is not stated: a free value. -/
def execSnapshotTask (x : TaskRef) (s : State) : Host.Outcome State Fault Refusal :=
  let k := s.tf x.task TaskRec.tileFirst
  let before := fun (s : State) => s.inOrder.all (fun y => !(decide (y.step < x.step) || (y.step == x.step && decide (y.task < x.task))) || s.taskState y == Ts.done || s.taskState y == Ts.notRun)
  .next (s.dispatch x Tk.snapshot
    (fun s => before s && !(decide (k < s.ch Ch.setsCount) && s.stf k SetRec.state == Sst.taking))
    (fun s =>
      let base := s.stf k SetRec.descAddr
      let ctx := s.tf x.task TaskRec.context
      if s.ch Ch.setsCount ≤ k then s.abortGroup x St.noObject
      else if !s.descInRegion base then s.abortGroup x St.protected_
      else match s.failing base (64 + 32 * min (s.fld base SetDesc.itemCount) 2040) with
        | some sec => (s.sectorFound sec (some ctx)).abortGroup x St.detected
        | none =>
          let kind := (Config.freeByte s.freeCount).toNat % 2
          match s.setFault k base ctx kind with
          | some (st, _) => s.abortGroup x st
          | none => ((s.drew 1).capture k base ctx kind).finishRun x))

/-- DROP (R363): a COMPLETE or BROKEN set becomes EMPTY, its generation references end. -/
def execDrop (r : Req) (s : State) : Host.Outcome State Fault Refusal :=
  if !actionIs r actF 1 then .next s else
  let k := Fld.get ⟨43, 32⟩ r.value
  .next (s.chartDo 0x8000 5 r
    { range := onlyBits r.value [⟨43, 32⟩, actF] && decide (k < s.ch Ch.setsCount)
      state := s.stf k SetRec.state == Sst.complete || s.stf k SetRec.state == Sst.broken
      params := true
      effect := fun s => ((s.setStf k SetRec.state Sst.empty).modSet k (fun z => { z with gens := [] })).settleGens })

end Sys2Proof.Machine
end

