-- ==== Sys2Proof/Machine/Restore.lean ====
section
/-! DEFINITION. Restoring and adopting sets (R368 to R370), export records read back (R323, R375), and the commands DIGEST and COMPARE (R135, R358, R359). -/

namespace Sys2Proof.Machine

/-! ### Export records (R322, R323) -/

/-- An export record is sound, matches the shard, and carries no more windows than it may (R323); a payload of another size than its fields say is no sound record. -/
def State.exportMatches (s : State) (k a : Nat) (sr : List Byte) : Bool :=
  let h := sliceNat sr 0 64
  let g := fun (f : Fld) => f.get h
  let n := g ExportHdr.payloadBytes
  let payload := slice sr 64 n
  let carries := g ExportHdr.secFmts != 0
  let p := s.optParams a
  let want := roundUp (p * elemBytes (s.fld a OptRec.weightType)) 4096 + (if carries then s.stateSize a else 0) + g ExportHdr.pending * roundUp (4 * p) 4096
  (rsvdBit h ExportHdr.rsvd).isNone && g ExportHdr.exportMagic == 0x44524853 && g ExportHdr.formatGen == 3 && decide (64 + n ≤ sr.length) && g ExportHdr.payloadCrc == crc32c payload
  && g ExportHdr.shardId == s.shf k ShardRec.shardId && g ExportHdr.rows == s.fld a OptRec.rows && g ExportHdr.cols == s.fld a OptRec.cols
  && g ExportHdr.weightType == s.fld a OptRec.weightType
  && (!carries || (g ExportHdr.secFmts == s.fld a OptRec.secFmt1 + s.fld a OptRec.secFmt2 * 16 + s.fld a OptRec.secFmt3 * 256 && g ExportHdr.secGroup == s.fld a OptRec.secGroup))
  && decide (g ExportHdr.pending ≤ s.fld a OptRec.delay) && n == want

/-- The windows before window `first` that a record's accumulators become, oldest first, with their buffers. -/
def importWindows (first : Int) (pending delay : Nat) : List (Int × Nat) :=
  (List.range pending).map (fun i => let w : Int := first - (pending : Int) + (i : Int); (w, (w % ((delay : Int) + 1)).toNat))

/-- What an export record carries beside the weights is written: state, pending accumulators, UPDATES and PENDING; `first` is the window that opens next. A Reef that fails answers its status. -/
def State.importState (s : State) (k a : Nat) (sr : List Byte) (first : Nat) : State × Option Nat :=
  let h := sliceNat sr 0 64
  let payload := slice sr 64 (ExportHdr.payloadBytes.get h)
  let p := s.optParams a
  let wlen := roundUp (p * elemBytes (s.fld a OptRec.weightType)) 4096
  let slen := if ExportHdr.secFmts.get h = 0 then 0 else s.stateSize a
  let state := slice payload wlen slen
  let ws := importWindows first (ExportHdr.pending.get h) (s.fld a OptRec.delay)
  match (if slen = 0 then (s, none) else if s.reefState a then s.reefPut (s.fld a OptRec.stateBase) state else (s.put (s.fld a OptRec.stateBase) state, none)) with
  | (s, some st) => (s, some st)
  | (s, none) =>
    let s := (ws.mapIdx (fun i w => (i, w))).foldl (fun (s : State) q => s.put (s.accBuf a q.2.2) (slice payload (wlen + slen + q.1 * roundUp (4 * p) 4096) (4 * p))) s
    let s := if slen = 0 then s else s.setFlds a [(OptRec.updates, ExportHdr.updates.get h), (OptRec.pending, ExportHdr.pending.get h)]
    (s.modShard k (fun z => { z with complete := if slen = 0 then z.complete else ws, open_ := if slen = 0 then z.open_ else first, landings := [], staged := false }), none)

/-! ### A copy read back -/

/-- The class a stream's blocks were coded as, and the rate: a record of an indexed class without an index table was switched to its fallback (R63). -/
def copyClass (sr : Nat) : Nat × Nat :=
  let c := StreamRec.classF.get sr
  if hasIndex c ∧ StreamRec.indexBase.get sr = 0 ∧ recTiles c sr ≠ 0 then (Cl.lossy, StreamRec.fallback.get sr) else (c, StreamRec.lossyRate.get sr)

/-- The bytes of each segment of a STREAM item whose bytes begin `body`. -/
def copySegments (body : List Byte) : List Nat :=
  let sr := sliceNat body 0 64
  let cr := copyClass sr
  let t := recTiles cr.1 sr
  let left := fun h => ceilDiv (t - h) 20
  if cr.1 = Cl.regen ∨ cr.1 = Cl.drop then []
  else (List.range 20).map (fun h =>
    if cr.1 = Cl.lossy then
      let blocks := 32 * fixedGranules cr.2 * ceilDiv t 20
      if h = 0 ∧ StreamRec.place.get sr ≠ Pc.quay then blocks + roundUp (FrRecHdr.recordBytes.get (sliceNat body (4096 + blocks) 64)) 32
      else 32 * fixedGranules cr.2 * left h
    else if cr.1 = Cl.raw ∨ StreamRec.place.get sr = Pc.quay then 4096 * left h
    else ((List.range (left h)).map (fun i => let e := sliceNat body (4096 + 8 * (20 * i + h)) 8
      if IndexEnt.valid.get e = 1 then 32 * (IndexEnt.offset.get e + IndexEnt.lenM1.get e + 1) else 0)).foldl max 0)

def copyIndexBytes (body : List Byte) : Nat :=
  let sr := sliceNat body 0 64
  let c := (copyClass sr).1
  if hasIndex c then roundUp (8 * recTiles c sr) 4096 else 0

/-- The bytes of an item in a copy, where they can be told: a SHARD item's need the loaded plan's record of the shard. -/
def State.copyItemBytes (s : State) (it : Nat) (body : List Byte) : Option Nat :=
  let k := SetItem.itemKind.get it
  let o := SetItem.object.get it
  if SetItem.absent.get it = 1 then some 0
  else if byAddress it then some (roundUp (SetItem.bytes.get it) 65536)
  else if k = Ik.group then some (roundUp (64 + 256 + 16 * GroupHdr.pkgMapCount.get (sliceNat body 0 64)) 65536)
  else if k = Ik.shard then
    let h := sliceNat body 0 64
    if o < s.shardCount ∧ s.shf o ShardRec.shardId = ExportHdr.shardId.get h then
      some (roundUp (roundUp (64 + ExportHdr.payloadBytes.get h) 65536 + s.shf o ShardRec.slots * s.shf o ShardRec.slotBytes) 65536)
    else none
  else some (roundUp (4096 + copyIndexBytes body + ((copySegments body).map (fun n => roundUp n 4096)).foldl (· + ·) 0) 65536)

/-- The copy's items, each with its bytes; an item whose place cannot be told has none. -/
def State.copyItems (s : State) (copy : List Byte) : List (Nat × Option (List Byte)) :=
  let n := SetDesc.itemCount.get (sliceNat copy 128 64)
  ((List.range (min n 2040)).foldl (fun (r : List (Nat × Option (List Byte)) × Option Nat) i =>
    let it := sliceNat copy (192 + 32 * i) 32
    match r.2 with
    | none => (r.1 ++ [(it, none)], none)
    | some o =>
      match s.copyItemBytes it (copy.drop o) with
      | some n => (r.1 ++ [(it, some (slice copy o n))], some (o + n))
      | none => (r.1 ++ [(it, none)], none)) ([], some 65536)).1

/-! ### Applying an item (R368) -/

/-- What came of an item: applied, skipped, or a write that failed, with the status. -/
inductive Put where
  | done (s : State)
  | skipped
  | failed (s : State) (status : Nat)

def State.putRange (s : State) (it : Nat) (body : List Byte) : Put :=
  let a := SetItem.addr.get it
  let n := SetItem.bytes.get it
  match s.mergeFails a n with
  | some sec => .failed (s.sectorFound sec none) St.detected
  | none => .done (s.put a (body.take n))

/-- The entries and the map of a GROUP item, which may be written only while no plan is loaded; a block with a reserved bit set, or a value outside its entry's range, skips the item (R4, R405). -/
def State.putGroup (s : State) (body : List Byte) : Put :=
  let h := sliceNat body 0 64
  let ovr := GroupHdr.masterOverride.get h
  let count := GroupHdr.pkgMapCount.get h
  if s.planLoaded ∨ GroupHdr.groupMagic.get h ≠ 0x50555247 ∨ GroupHdr.formatGen.get h ≠ 3 ∨ (rsvdBit h GroupHdr.rsvd).isSome
    ∨ (8 ≤ ovr ∧ ovr ≠ 0xFF) ∨ 4096 ≤ GroupHdr.selfPackage.get h ∨ count = 0 ∨ 4096 < count
    ∨ (List.range 8).any (fun i => decide (2 ^ 52 ≤ sliceNat body (64 + 16 * i) 8)) then .skipped
  else
    let w := fun (i : Nat) => sliceNat body (64 + 8 * i) 8
    let s := [(Ch.groupId, GroupHdr.groupId), (Ch.masterOverride, GroupHdr.masterOverride), (Ch.members, GroupHdr.members), (Ch.selfPackage, GroupHdr.selfPackage),
      (Ch.pkgMapCount, GroupHdr.pkgMapCount)].foldl (fun (s : State) (e : Nat × Fld) => s.setCh e.1 (e.2.get h)) s
    let s := (List.range 8).foldl (fun (s : State) i => ((s.setCh (Ch.lendBase + 256 * i) (w (2 * i))).setCh (Ch.lendBytes + 256 * i) (w (2 * i + 1))).setCh (Ch.borrow + 256 * i) (w (16 + 2 * i))) s
    let s := s.put (s.ch Ch.pkgMapBase) (slice body 320 (16 * GroupHdr.pkgMapCount.get h))
    let s : State := { s with cascade := { s.cascade with peers := s.cascade.peers.map (fun e => (e.1, { e.2 with heard := false, agrees := false, lost := false })) } }
    .done s.settleGroup

/-- The step that RESTART runs next. -/
def State.nextStep (s : State) : Nat := match s.plan.steps with | st :: _ => st.num | [] => s.plan.stepsBegun

def State.putShard (s : State) (o : Nat) (body : List Byte) : Put :=
  if !(s.ch Ch.planState = Pl.loaded ∨ s.ch Ch.planState = Pl.stopped) then .skipped
  else match s.shardOpt o with
  | none => .skipped
  | some a =>
    if !s.exportMatches o a body then .skipped
    else
      let h := sliceNat body 0 64
      let v := ExportHdr.version.get h
      let at_ := roundUp (64 + ExportHdr.payloadBytes.get h) 65536
      let m := (s.updatesOf o).length
      let base := (v + 65536 * (s.nextStep * m) - s.nextStep * m) % 65536
      let first := if s.fld a OptRec.delay = 0 then base + s.nextStep * m else s.nextStep
      let s := s.put (s.shf o ShardRec.base) (slice body at_ (s.shf o ShardRec.slots * s.shf o ShardRec.slotBytes))
      let s := s.setFld (s.tables.shards + 32 * o) ShardRec.currentVersion v
      let s : State := { s with plan := { s.plan with baseUpdates := s.plan.baseUpdates.put o base } }
      match s.importState o a body first with
      | (s, some st) => .failed s st
      | (s, none) => .done ((s.setFld a OptRec.added 0).modShard o (fun z => { z with marks := [], open_ := first }))

/-- The generations that the index entries of a copy name. -/
def copyGens (body : List Byte) : List Nat :=
  let sr := sliceNat body 0 64
  let c := (copyClass sr).1
  if hasIndex c then ((List.range (recTiles c sr)).map (fun t => IndexEnt.tableGen.get (sliceNat body (4096 + 8 * t) 8))).foldl (fun l g => if g = 0 ∨ l.contains g then l else l ++ [g]) []
  else []

def State.putStream (s : State) (n : Nat) (body : List Byte) : Put :=
  let sr := sliceNat body 0 64
  let cr := copyClass sr
  let same := fun (f : Fld) => f.get sr == s.sf n f
  let gens := copyGens body
  let st := s.stateOf n
  if s.ch Ch.planState ≠ Pl.loaded ∨ s.streamCount ≤ n ∨ !(st = Ss.unborn ∨ st = Ss.released)
    ∨ !(same StreamRec.classF && same StreamRec.byteLength && same StreamRec.context && gens.all (fun g => (s.genSlot g).isSome)) then .skipped
  else
    let segs := copySegments body
    let ix := copyIndexBytes body
    let at_ := fun h => 4096 + ix + ((segs.take h).map (fun k => roundUp k 4096)).foldl (· + ·) 0
    let rg := s.sf n StreamRec.region
    let step := s.plan.stepsBegun - 1
    let tiles := recTiles cr.1 sr
    let period := FrRecHdr.period.get (sliceNat body (at_ 0 + 32 * fixedGranules cr.2 * ceilDiv tiles 20) 64)
    let own := s.ch Ch.frPeriod
    let s := s.bornAgain n
    let s := if cr.1 = s.sf n StreamRec.classF then s else s.modAux n (fun z => { z with fallback := cr.2 })
    let s := if cr.1 = Cl.lossy then s.setCh Ch.frPeriod period else s
    let room := s.ch (Ch.chargeLimit + 256 * rg) - 32 * s.ledger step ((s.producer n).getD 0) rg
    if s.sf n StreamRec.place ≠ Pc.quay ∧ room < 32 * s.reservation n then .skipped
    else match (s.placeStream n step).map (fun s => s.setCh Ch.frPeriod own) with
    | none => .skipped
    | some s =>
      if s.residence n = Rs.quay then
        match (List.range tiles).foldl (fun (s : Option State) t => s.bind (fun s => s.holdTile (s.sf n StreamRec.die) n t (slice body (at_ (t % 20) + 4096 * (t / 20)) 4096))) (some s) with
        | none => .skipped
        | some s => .done ((s.modAux n (fun z => { z with nextTile := tiles, written := tiles })).streamHeld n)
      else
        let s := if ix = 0 then s else s.put (s.sf n StreamRec.indexBase) (slice body 4096 (8 * tiles))
        let s := (segs.mapIdx (fun h k => (h, k))).foldl (fun (s : State) p => if p.2 = 0 then s else s.put (s.segment n p.1) (slice body (at_ p.1) p.2)) s
        let offs : SMap Nat := (segs.mapIdx (fun h k => (h, (if cr.1 = Cl.lossy then fixedGranules cr.2 * ceilDiv (tiles - h) 20 else k / 32)))).foldl (fun (m : SMap Nat) p => m.put p.1 p.2) []
        let s := s.modAux n (fun z => { z with gens := gens, offsets := offs, nextTile := tiles, written := tiles })
        let s := if cr.1 = Cl.regen then (s.sourcesOf n).foldl (fun (s : State) m => s.modAux m (fun z => { z with pins := z.pins + 1 })) s else s
        .done (s.streamHeld n)

/-- An item of a copy applied, or skipped. -/
def State.putItem (s : State) (adopted : Bool) (kind it : Nat) (body : Option (List Byte)) : Put :=
  let k := SetItem.itemKind.get it
  let o := SetItem.object.get it
  if SetItem.absent.get it = 1 ∨ (kind = 0 ∧ (k = Ik.position ∨ k = Ik.counters)) then .skipped
  else match body with
  | none => .skipped
  | some b =>
    if byAddress it then (if 20 * 2 ^ 38 < SetItem.addr.get it + SetItem.bytes.get it then .skipped else s.putRange it b)
    else if k = Ik.group then s.putGroup b
    else if k = Ik.shard then (if s.shardCount ≤ o then .skipped else s.putShard o b)
    else if k = Ik.stream then (if adopted then .skipped else s.putStream o b)
    else .skipped

/-! ### RESTORE -/

/-- The lowest leaf of a copy that differs from the stored tree's, with the stored leaf and the recomputed one. -/
def State.lowestDiffering (s : State) (treeBase : Nat) (leaves : List (List Byte)) : Option (Nat × List Byte × List Byte) :=
  (leaves.mapIdx (fun i l => (i, s.rd (treeBase + 32 * i) 32, l))).find? (fun p => p.2.1 != p.2.2)

/-- The end of a RESTORE, whatever its status: the set is COMPLETE. -/
def State.restoreEnds (s : State) (d : Dispatched) (k status detail : Nat) : State :=
  (s.setStf k SetRec.state Sst.complete).endCmd d status detail

/-- A RESTORE whose copy cannot be read ends, reported with the copy's address (R139, R368). -/
def State.restoreFails (s : State) (d : Dispatched) (k status : Nat) : State :=
  let s := s.raise ⟨0x0402, noRef, evAddr (s.stf k SetRec.destBase) status, cmdGet d.word Cmd.sequence, some (s.cmdContext d), [d.queue]⟩
  s.restoreEnds d k status (s.nextEvent - 1)

/-- A copy that has been read is checked and its items applied, in descriptor order (R368). -/
def State.restoreWith (s : State) (d : Dispatched) (k : Nat) (copy : List Byte) : State :=
  let ctx := some (s.cmdContext d)
  let kind := cmdGet d.word CmdSet.setKind
  let tree := treeOf copy
  if leNat (treeRoot tree) ≠ s.stf k SetRec.root then
    let s := match s.lowestDiffering (s.stf k SetRec.treeBase) (tree.headD []) with
      | some (i, old, new) => s.raise ⟨0x0705, k, i, 0, ctx, [sliceNat old 0 16, sliceNat old 16 16, sliceNat new 0 16, sliceNat new 16 16]⟩
      | none => (s.drew 65).raise ⟨0x0705, k, (Config.freeWord s.freeCount).toNat, 0, ctx, (List.range 4).map (fun i => leNat ((s.drew (1 + 16 * i)).freeBytes 16))⟩
    s.restoreEnds d k St.digestMismatch (s.nextEvent - 1)
  else
    let adopted := (s.setAt k).adopted
    let items := (s.copyItems copy).mapIdx (fun i p => (i, p))
    let r := items.foldl (fun (r : State × List Nat × Option Nat) p =>
      match r.2.2 with
      | some _ => r
      | none =>
        match r.1.putItem adopted kind p.2.1 p.2.2 with
        | .done s => (s, r.2)
        | .skipped => (r.1, r.2.1 ++ [p.1], none)
        | .failed s st => (s, r.2.1, some st)) (s, [], none)
    let s := r.1
    match r.2.2 with
    | some st => s.restoreEnds d k st (s.nextEvent - 1)
    | none =>
      let s := if kind = 1 ∧ s.planLoaded then
          (({ s with plan := { s.plan with stepCount := s.stf k SetRec.stepCount } } : State).setFld s.tables.header PlanHdr.stepCount (s.stf k SetRec.stepCount)) else s
      let s := if r.2.1.isEmpty then s else s.raise ⟨0x0704, k, r.2.1.length, r.2.1.headD 0, ctx, []⟩
      s.restoreEnds d k St.success 0

/-- The token under which a set's copy is asked of the partner: a command's tag, or an adoption's set. -/
def adoptToken (k : Nat) : Nat := 2 ^ 40 + k

/-- `n` bytes at a Reef address of the partner are asked for (log entry 13, DESIGN CHOICE). -/
def State.askSet (s : State) (pkg token addr n : Nat) : State :=
  (s.sendData pkg Dk.setAsk addr (leBytes 8 token ++ leBytes 8 n)).putInbox (.bytes token) ((s.inbox (.bytes token)).getD [])

/-- RESTORE (R368, R374). A PARTNER copy is asked of the partner first; the row is carried out again once it has come. (log entry 77, DEDUCED.) -/
def execRestore (c : Nat) (m : MemResult) (s : State) : Host.Outcome State Fault Refusal :=
  match s.cmd c Op.restore with
  | none => .next s
  | some d =>
    let k := cmdGet d.word CmdSet.set
    let n := s.stf k SetRec.copyBytes
    let st := s.stf k SetRec.state
    if d.stage = .underway then
      match s.inbox (.bytes c) with
      | some bs => if bs.length < n then .next s else .next ((s.takeInbox (.bytes c)).restoreWith d k (bs.take n))
      | none => .next s
    else if d.stage ≠ .ready then .next s
    else if s.ch Ch.setsCount ≤ k then .next (s.endCmd d St.noObject 416)
    else if cmdGet d.word CmdSet.setKind = 1 ∧ s.stf k SetRec.kind = 0 ∧ st = Sst.complete then .next (s.endCmd d St.noObject 24)
    else if st = Sst.complete ∧ s.stf k SetRec.context ≠ s.cmdContext d then .next (s.endCmd d St.objectOwned 0)
    else if st ≠ Sst.complete then .next (s.endCmd d St.streamState st)
    else if s.ch Ch.planState = Pl.loading ∨ s.ch Ch.planState = Pl.running then .next (s.endCmd d St.planState s.planDetail)
    else
      let base := s.stf k SetRec.destBase
      let s := s.setStf k SetRec.state Sst.restoring
      if s.stf k SetRec.destKind = 0 then
        if m ≠ .ok then .next (let s := s.memFault d m; s.restoreEnds d k m.status (s.nextEvent - 1))
        else match s.failing base n with
          | some sec => .next (let s := s.sectorFound sec (some (s.cmdContext d)); s.restoreEnds d k St.detected (s.nextEvent - 1))
          | none => .next (s.restoreWith d k (s.rd base n))
      else if s.stf k SetRec.destKind = 1 then
        match s.reefRead base n with
        | (s, .ok bs) => .next (s.restoreWith d k bs)
        | (s, .error e) => .next (s.restoreFails d k e)
      else
        let pkg := s.stf k SetRec.partner
        if !s.pkgValid pkg ∨ (s.peer pkg).lost then .next (s.restoreFails d k St.reefLost)
        else .next ((s.askSet pkg c base n).setStage c .underway 0)

/-! ### SET_ADOPT (R370) -/

/-- The items of a copy that are ABSENT once it is adopted: those that were, and every STREAM item (R370). -/
def adoptedAbsent (copy : List Byte) : Nat :=
  ((List.range (SetDesc.itemCount.get (sliceNat copy 128 64))).filter (fun i =>
    let it := sliceNat copy (192 + 32 * i) 32
    SetItem.absent.get it == 1 || SetItem.itemKind.get it == Ik.stream)).length

/-- A copy that has been read is adopted if its root is the one expected: the header page's record describes it, its STREAM items absent. -/
def State.adoptWith (s : State) (k : Nat) (copy : List Byte) : State :=
  let tree := treeOf copy
  let s := s.store (s.stf k SetRec.treeBase) (treeBytes tree)
  if leNat (treeRoot tree) = s.stf k SetRec.root then
    ((s.setStf k SetRec.itemsAbsent (adoptedAbsent copy)).setStf k SetRec.state Sst.complete).modSet k (fun z => { z with adopted := true, gens := [], content := [], pieces := [], pages := [] })
  else s.adoptFails k 1

/-- The header page is that of a set copy, with zero in every RSVD bit of its record, descriptor and items (R4). -/
def adoptable (page : List Byte) : Bool :=
  let h := sliceNat page 128 64
  SetDesc.setMagic.get h == 0x54455352 && SetDesc.formatGen.get h == 3
  && (rsvdBit (sliceNat page 0 128) SetRec.rsvd).isNone && (rsvdBit h SetDesc.rsvd).isNone
  && (List.range (SetDesc.itemCount.get h)).all (fun i => (rsvdBit (sliceNat page (192 + 32 * i) 32) SetItem.rsvd).isNone)

/-- ADOPTING: the record is that of the header page, with the place and the root that the adoption names. -/
def State.adoptBegins (s : State) (k destKind destBase root partner : Nat) (page : List Byte) : State :=
  let sr := sliceNat page 0 128
  let desc := s.stf k SetRec.descAddr
  let v := [(SetRec.root, root), (SetRec.descAddr, desc), (SetRec.state, Sst.adopting), (SetRec.destKind, destKind), (SetRec.partner, partner), (SetRec.destBase, destBase)].foldl (fun v p => p.1.set v p.2) sr
  s.store (s.setBase k) (leBytes 128 v)

/-- Log entry 78, DEDUCED. -/
def execSetAdopt (r : Req) (m : MemResult) (s : State) : Host.Outcome State Fault Refusal :=
  let v := r.value
  let k := v % 2 ^ 32
  let dk := Fld.get ⟨39, 32⟩ v
  let base := Fld.get ⟨127, 64⟩ v
  let root := Fld.get ⟨383, 128⟩ v
  let pkg := s.ch Ch.copyPartner
  let act := fun (ok : Bool) (effect : State → State) => ({ range := decide (dk ≤ 2) && base % 65536 == 0 && decide (base < 2 ^ 52) && Fld.get ⟨63, 40⟩ v == 0 && decide (k < s.ch Ch.setsCount)
                                                            state := ok && (s.stf k SetRec.state == Sst.empty || s.stf k SetRec.state == Sst.broken)
                                                            params := true
                                                            effect := effect } : ChAct)
  let go := fun (page : List Byte) (rest : State → State × Option (List Byte)) =>
    State.chartDo s 0x8000 4 r (act (adoptable page) (fun s =>
      let s := s.adoptBegins k dk base root (if dk = 2 then pkg else 0) page
      match rest s with
      | (s, some bs) => s.adoptWith k bs
      | (s, none) => s.adoptFails k 2))
  if dk = 0 then
    let n := SetRec.copyBytes.get (s.rdNat base 128)
    let early : Bool := match m with | .ok => false | .pageFault a => decide (a < base + 65536) | .busError a => decide (a < base + 65536)
    let page := if early ∨ (s.failing base 65536).isSome ∨ (s.firstOutside base 65536).isSome then [] else s.rd base 65536
    .next (go page (fun s => if m ≠ .ok ∨ (s.failing base n).isSome ∨ (s.firstOutside base n).isSome then (s, none) else (s, some (s.rd base n))))
  else if dk = 1 then
    match s.reefRead base 65536 with
    | (_, .error _) => .next (go [] (fun s => (s, none)))
    | (_, .ok page) => .next (go page (fun s =>
        match s.reefRead base (SetRec.copyBytes.get (sliceNat page 0 128)) with
        | (s, .ok bs) => (s, some bs)
        | (s, .error _) => (s, none)))
  else if s.slotBusy r.path ∨ s.writeStatus 0x8000 4 r (act true id) ≠ Cs.ok ∨ !s.pkgValid pkg ∨ (s.peer pkg).lost ∨ s.cascade.adoptAsk.isSome then .next (go [] (fun s => (s, none)))
  else .next (({ s with cascade := { s.cascade with adoptAsk := some (r, k) } } : State).chartHold r |>.askSet pkg (adoptToken k) base 65536)

/-- The header page of a partner's copy has come: the write that waited for it is answered, and the rest asked for. -/
def State.adoptHeader (s : State) (r : Req) (k : Nat) : State :=
  match s.inbox (.bytes (adoptToken k)) with
  | none => s
  | some page =>
    let n := SetRec.copyBytes.get (sliceNat page 0 128)
    let v := r.value
    let base := Fld.get ⟨127, 64⟩ v
    let pkg := s.ch Ch.copyPartner
    let s : State := { s with cascade := { s.cascade with adoptAsk := none } }
    if page.length < 65536 ∨ !adoptable page then (s.takeInbox (.bytes (adoptToken k))).chartEnd 0x8000 4 r refusedAct
    else
      let ok : ChAct := { range := true, state := s.stf k SetRec.state == Sst.empty || s.stf k SetRec.state == Sst.broken, params := true
                          effect := fun s => s.adoptBegins k 2 base (Fld.get ⟨383, 128⟩ v) pkg page }
      let s := s.chartEnd 0x8000 4 r ok
      if s.stf k SetRec.state ≠ Sst.adopting then s.takeInbox (.bytes (adoptToken k))
      else if n ≤ 65536 then (s.takeInbox (.bytes (adoptToken k))).adoptWith k page
      else s.askSet pkg (adoptToken k) (base + 65536) (n - 65536)

/-- A partner's copy, or its header page, has come: the adoption goes on. -/
def State.adoptArrives (s : State) (k : Nat) : State :=
  match s.cascade.adoptAsk.filter (fun p => p.2 == k) with
  | some (r, _) => s.adoptHeader r k
  | none =>
  match s.inbox (.bytes (adoptToken k)) with
  | none => s
  | some bs =>
    let n := s.stf k SetRec.copyBytes
    if s.stf k SetRec.state ≠ Sst.adopting ∨ bs.length < n then s
    else (s.takeInbox (.bytes (adoptToken k))).adoptWith k (bs.take n)

/-! ### DIGEST and COMPARE -/

/-- The root over `n` bytes at `a`. -/
def State.digestOf (s : State) (a n : Nat) : List Byte := treeRoot (treeOf (s.rd a n))

/-- The leaves of a digest are invocations of built-in program 0xFF30, leaf i on engine 2h + (i mod 2) of the page's stack h (R245, R358; log entry 114, DEDUCED). -/
def State.digestRuns (s : State) (a n : Nat) : State :=
  (List.range (ceilDiv n 65536)).foldl (fun (s : State) i => s.count (Ch.invocations + 256 * (2 * ((a + 65536 * i) / 2 ^ 38) + i % 2)) 64) s

/-- DIGEST (R358): the range and the result lie in assigned Harbour regions. -/
def execDigest (c : Nat) (m : MemResult) (s : State) : Host.Outcome State Fault Refusal :=
  match (s.cmd c Op.digest).filter (fun d => d.stage == .ready) with
  | none => .next s
  | some d =>
    let a := cmdGet d.word CmdDigest.base
    let n := cmdGet d.word CmdDigest.bytes
    let out := cmdGet d.word CmdDigest.result
    if n = 0 then .next (s.endCmd d St.success 0)
    else match (s.firstOutside a n).orElse (fun _ => (s.firstOutside out 32).orElse (fun _ => s.offending out 32 true)) with
    | some x => .next (s.endCmd d St.protected_ (x % 2 ^ 48))
    | none =>
    match s.readEnds d m a n with
      | some s => .next s
      | none =>
        match s.mergeFails out 32 with
        | some sec => .next ((s.sectorFound sec (some (s.cmdContext d))).failCmd d St.detected)
        | none => .next (((s.put out (s.digestOf a n)).digestRuns a n).endCmd d St.success 0)

/-- The first place at which two lists of bytes differ. -/
def firstDifference (a b : List Byte) : Option Nat := (List.zipWith (fun x y => x != y) a b).findIdx? id

/-- COMPARE (R135, R359). -/
def execCompare (c : Nat) (m : MemResult) (s : State) : Host.Outcome State Fault Refusal :=
  match (s.cmd c Op.compare).filter (fun d => d.stage == .ready) with
  | none => .next s
  | some d =>
    let n := cmdGet d.word CmdCompare.bytes
    let a := cmdGet d.word CmdCompare.a
    let b := cmdGet d.word CmdCompare.b
    let tree := cmdGet d.word CmdCompare.mode = 1
    let nodes := treeNodes 64 (n / 65536)
    let len := if tree then 32 * nodes else n
    if n = 0 then .next (s.endCmd d St.success 0)
    else match s.readEnds d m a len with
    | some s => .next s
    | none =>
      match s.readEnds d .ok b len with
      | some s => .next s
      | none =>
        if tree then
          if s.rd (a + 32 * (nodes - 1)) 32 = s.rd (b + 32 * (nodes - 1)) 32 then .next (s.endCmd d St.success 0)
          else
            let leaf := (firstDifference (s.rd a (32 * (n / 65536))) (s.rd b (32 * (n / 65536)))).map (· / 32)
            .next (s.endCmd d St.mismatch (leaf.getD (2 ^ 48 - 1)))
        else match firstDifference (s.rd a n) (s.rd b n) with
          | none => .next (s.endCmd d St.success 0)
          | some i => .next (s.endCmd d St.mismatch i)

end Sys2Proof.Machine
end

