-- ==== Sys2Proof/Machine/Replica.lean ====
section
/-! DEFINITION. Replica comparison (R371 to R373) and copy partners (R374). The payloads of the cascade messages are the model's own (log entry 13, DESIGN CHOICE). -/

namespace Sys2Proof.Machine

/-! ### Replicas -/

/-- The master of the tier group that a shard's owner belongs to. (log entry 79, DEDUCED.) -/
def State.groupMaster (s : State) (owner : Nat) : Option Nat :=
  let g := mapGroup (s.mapRecord owner)
  if owner = s.self ∧ s.ch Ch.groupId = 0 then some s.self
  else (List.range (s.ch Ch.pkgMapCount)).find? (fun p => s.pkgValid p && mapGroup (s.mapRecord p) == g && mapPosition (s.mapRecord p) == s.masterPosition)

/-- What a DIGEST_ROOT carries beside SHARD_ID, version and the number of roots: the root, STEP_COUNT, owner, weight type and logical coordinates. -/
def State.rootPayload (s : State) (k a : Nat) (root : List Byte) : List Byte :=
  let f := fun (x : Fld) => leBytes 4 (s.fld a x)
  root ++ leBytes 4 s.plan.stepCount ++ leBytes 2 (s.shf k ShardRec.ownerPackage) ++ leBytes 2 (s.fld a OptRec.weightType)
    ++ f OptRec.tensorId ++ f OptRec.rowFirst ++ f OptRec.colFirst ++ f OptRec.rows ++ f OptRec.cols

def rootOf (p : List Byte) : List Byte := p.take 32
def rootStep (p : List Byte) : Nat := sliceNat p 32 4
def rootOwner (p : List Byte) : Nat := sliceNat p 36 2
def rootSize (p : List Byte) : Nat := elemBytes (sliceNat p 38 2)
def rootWord (p : List Byte) (i : Nat) : Nat := sliceNat p (40 + 4 * i) 4
def rootParams (p : List Byte) : Nat := rootWord p 3 * rootWord p 4
def rootLeaves (p : List Byte) : Nat := ceilDiv (rootParams p * rootSize p) 65536

/-- The leaf level of this package's tree of a shard. -/
def State.leafLevel (s : State) (shardId n : Nat) : List Byte :=
  match (List.range s.shardCount).find? (fun k => s.shf k ShardRec.shardId == shardId) with
  | some k => s.rd (s.ch Ch.dtreeBase + k * s.ch Ch.dtreeStride) (32 * n)
  | none => []

def State.modComparison (s : State) (shard version : Nat) (f : Comparison → Comparison) : State :=
  { s with comparisons := s.comparisons.map (fun c => if c.shard = shard ∧ c.version = version then f c else c) }

/-- One mismatch record, its count and its event (R372). -/
def State.mismatch (s : State) (c : Comparison) (pkg : Nat) : State :=
  let own := c.roots.getD c.owner []
  let lo := c.leaves.getD c.owner []
  let lp := c.leaves.getD pkg []
  let leaf := (firstDifference lo lp).map (· / 32)
  let i := leaf.getD 0xFFFFFFFF
  let per := 65536 / rootSize own
  let first := match leaf with | some j => j * per | none => 0
  let count := match leaf with | some j => min per (rootParams own - j * per) | none => 0
  let n := s.ch Ch.mismatchCount
  let dig := fun (l : List Byte) => match leaf with | some j => sliceNat l (32 * j) 32 | none => 0
  let rcd := [(MismatchRec.digestOther, dig lp), (MismatchRec.digestOwner, dig lo), (MismatchRec.step, rootStep own), (MismatchRec.leaf, i), (MismatchRec.version, c.version),
    (MismatchRec.pkgOther, pkg), (MismatchRec.pkgOwner, c.owner), (MismatchRec.cols, rootWord own 4), (MismatchRec.rows, rootWord own 3), (MismatchRec.colFirst, rootWord own 2),
    (MismatchRec.rowFirst, rootWord own 1), (MismatchRec.tensorId, rootWord own 0), (MismatchRec.shardId, c.shard), (MismatchRec.leafParamFirst, first),
    (MismatchRec.leafParamCount, count)].foldl (fun v p => p.1.set v p.2) 0
  let entries := s.ch Ch.mismatchLogEntries
  let idx := if entries = 0 then 0 else n % entries
  let s := if entries = 0 then s else s.store (s.ch Ch.mismatchLogBase + 128 * idx) (leBytes 128 rcd)
  (s.countSticky Ch.mismatchCount).raise ⟨0x0707, c.shard, idx, pkg, none, []⟩

/-- The packages whose roots differ from the owner's. -/
def Comparison.differing (c : Comparison) : List Nat := SMap.keys (c.roots.filter (fun (e : Nat × List Byte) => rootOf e.2 != rootOf (c.roots.getD c.owner [])))

/-- A comparison whose leaf levels are here is decided; every package's tree is released, its next UPDATE aborted where REPLICA_ACTION says so (R373). -/
def State.compareLeaves (s : State) (c : Comparison) : State :=
  let s := c.differing.foldl (fun (s : State) p => s.mismatch c p) s
  let abort := !c.differing.isEmpty && s.ch Ch.replicaAction == 1
  let s : State := { s with comparisons := s.comparisons.filter (fun d => !(d.shard == c.shard && d.version == c.version)) }
  c.roots.keys.foldl (fun (s : State) p => s.releaseTree p c.shard c.version abort) s

/-- A comparison goes on: with all roots, the leaf levels that are needed are read or asked for; with them, it is decided. -/
def State.settleComparison (s : State) (shard version : Nat) : State :=
  match s.comparisons.find? (fun c => c.shard == shard && c.version == version) with
  | none => s
  | some c =>
    if c.roots.length < c.want then s
    else if (c.roots.find c.owner).isNone ∨ c.differing.isEmpty then
      let s : State := { s with comparisons := s.comparisons.filter (fun d => !(d.shard == shard && d.version == version)) }
      c.roots.keys.foldl (fun (s : State) p => s.releaseTree p shard version false) s
    else
      let n := rootLeaves (c.roots.getD c.owner [])
      let need := c.owner :: c.differing
      let c' := if need.contains s.self ∧ (c.leaves.find s.self).isNone then { c with leaves := c.leaves.put s.self (s.leafLevel shard n) } else c
      let ask := need.filter (fun p => (c'.leaves.find p).isNone)
      let s := ask.foldl (fun (s : State) p => s.send p Mk.treeRequest (shard + version * 2 ^ 32) (leBytes 4 n)) s
      let c' := { c' with leaves := ask.foldl (fun (m : SMap (List Byte)) p => m.put p []) c'.leaves }
      let s := s.modComparison shard version (fun _ => c')
      if need.all (fun p => decide (32 * n ≤ (c'.leaves.getD p []).length)) then s.compareLeaves c' else s

/-- A root reaches the master. -/
def State.rootArrives (s : State) (pkg shard version want : Nat) (payload : List Byte) : State :=
  if s.comparisons.any (fun c => c.shard == shard && c.version == version) then
    (s.modComparison shard version (fun c => { c with roots := c.roots.put pkg payload })).settleComparison shard version
  else if 16384 ≤ s.comparisons.length then
    ((s.countSticky Ch.mismatchDrops).raise ⟨0x0708, shard, version, 1, none, []⟩).releaseTree pkg shard version false
  else
    let s : State := { s with comparisons := s.comparisons ++ [⟨shard, version, want, rootOwner payload, [(pkg, payload)], []⟩] }
    s.settleComparison shard version

/-- A DIGEST task's work: the tree of the pinned version is written and its root goes to the master. -/
def State.digestWork (x : TaskRef) (s : State) : State :=
  let k := s.tf x.task TaskRec.shard
  match s.shardOpt k with
  | none => s.abortGroup x St.noObject
  | some a =>
    let v := (s.pinned x).elim (s.shf k ShardRec.currentVersion) Prod.snd
    let n := s.optParams a * elemBytes (s.fld a OptRec.weightType)
    let id := s.shf k ShardRec.shardId
    match s.failing (s.slotBase k v) n with
    | some sec => (s.sectorFound sec (some (s.tf x.task TaskRec.context))).abortGroup x St.detected
    | none =>
      let tree := treeOf (s.rd (s.slotBase k v) n ++ zeros (roundUp n 65536 - n))
      let s := (s.put (s.ch Ch.dtreeBase + k * s.ch Ch.dtreeStride) (treeBytes tree)).digestRuns (s.slotBase k v) n
      let s : State := { s with cascade := { s.cascade with trees := s.cascade.trees ++ [id] } }
      let want := s.tf x.task TaskRec.tileCount
      let payload := s.rootPayload k a (treeRoot tree)
      let s := s.finishRun x
      match s.groupMaster (s.shf k ShardRec.ownerPackage) with
      | none => s
      | some p => if p = s.self then s.rootArrives s.self id v want payload else s.send p Mk.digestRoot (id + v * 2 ^ 32 + want * 2 ^ 48) payload

/-- DIGEST_TASK (R371): waits until the master has released the previous tree of its shard. -/
def execDigestTask (x : TaskRef) (s : State) : Host.Outcome State Fault Refusal :=
  .next (s.dispatch x Tk.digest (fun s => !s.cascade.trees.contains (s.shf (s.tf x.task TaskRec.shard) ShardRec.shardId)) (State.digestWork x))

/-- DIGEST_ROOT. -/
def execDigestRoot (f : Frame) (s : State) : Host.Outcome State Fault Refusal :=
  .next (s.message Mk.digestRoot f (fun s src arg => s.rootArrives src (arg % 2 ^ 32) (arg / 2 ^ 32 % 2 ^ 16) (arg / 2 ^ 48) f.payload))

/-- TREE_REQUEST: action 0 asks for the leaf level, 1 releases the tree, 2 releases it and has the shard's next UPDATE or version EXCHANGE aborted. -/
def execTreeRequest (f : Frame) (s : State) : Host.Outcome State Fault Refusal :=
  .next (s.message Mk.treeRequest f (fun s src arg =>
    let id := arg % 2 ^ 32
    let act := arg / 2 ^ 56
    if act = 0 then
      (chunksOf 4096 (s.leafLevel id (leNat (f.payload.take 4))).length (s.leafLevel id (leNat (f.payload.take 4)))).foldl
        (fun (s : State) c => s.send src Mk.treeData (arg % 2 ^ 48) c) s
    else s.treeReleased id (act == 2)))

/-- TREE_DATA: a part of a leaf level, in order. -/
def execTreeData (f : Frame) (s : State) : Host.Outcome State Fault Refusal :=
  .next (s.message Mk.treeData f (fun s src arg =>
    let id := arg % 2 ^ 32
    let v := arg / 2 ^ 32 % 2 ^ 16
    let s := s.modComparison id v (fun c => if (c.leaves.find src).isSome then { c with leaves := c.leaves.put src (c.leaves.getD src [] ++ f.payload) } else c)
    match s.comparisons.find? (fun c => c.shard == id && c.version == v) with
    | none => s
    | some c =>
      let n := rootLeaves (c.roots.getD c.owner [])
      if !c.leaves.isEmpty && (c.owner :: c.differing).all (fun p => decide (32 * n ≤ (c.leaves.getD p []).length)) then s.compareLeaves c else s))

/-! ### Copy partners (R374) -/

/-- Two feeds that make a pairing correlated: one unknown, or one the two packages share. -/
def correlated (a b pa pb : Nat) : Bool :=
  [a, b, pa, pb].any (· == 0) || a == pa || a == pb || b == pa || b == pb

abbrev Pair.none : Nat := 0
abbrev Pair.independent : Nat := 1
abbrev Pair.degraded : Nat := 2
abbrev Pair.suspended : Nat := 3

def State.isCorrelated (s : State) : Bool := correlated (s.ch Ch.feedA) (s.ch Ch.feedB) (s.ch Ch.partnerFeedA) (s.ch Ch.partnerFeedB)

def State.pairEvent (s : State) (pkg refused : Nat) : State := s.raise ⟨0x070A, pkg, s.ch Ch.pairState + 16 * refused, 0, none, []⟩

def State.setPair (s : State) (st : Nat) : State := (s.setCh Ch.pairState st).pairEvent (s.ch Ch.copyPartner) 0

/-- The pairing after a change of feeds or of the override. -/
def State.settlePair (s : State) : State :=
  let st := s.ch Ch.pairState
  if st = Pair.none then s
  else if !s.isCorrelated then (if st = Pair.independent then s else s.setPair Pair.independent)
  else if st = Pair.independent then s.setPair (if s.ch Ch.correlatedOverride = 1 then Pair.degraded else Pair.suspended)
  else if st = Pair.degraded ∧ s.ch Ch.correlatedOverride = 0 then s.setPair Pair.suspended
  else s

/-- A read of an entry of another package is sent; ARG says what the reply is for: 1 and 2 the feeds that a write of COPY_PARTNER waits for, 3 and 4 feeds read because this package's have changed, 5 and 6 feeds read because the partner's have, 7 + p the area that position p lends. -/
def State.askChart (s : State) (pkg token index sub : Nat) : State :=
  s.send pkg Mk.chartRequest token (leBytes 24 (chartHeader 1 index sub ⟨.cascade, 0, 0, []⟩ ⟨0, 0, 0, []⟩ 0 0))

def State.askFeeds (s : State) (pkg token : Nat) : State := (s.askChart pkg token 0x9180 1).askChart pkg (token + 1) 0x9180 2

/-- The write of COPY_PARTNER that waited for the feeds is decided. -/
def State.pairDecided (s : State) (r : Req) (pkg a b : Nat) : State :=
  let s : State := { s with cascade := { s.cascade with pairAsk := none } }
  let cor := correlated (s.ch Ch.feedA) (s.ch Ch.feedB) a b
  let take := fun (s : State) (st : Nat) => (((s.setCh Ch.copyPartner pkg).setCh Ch.partnerFeedA a).setCh Ch.partnerFeedB b).setCh Ch.pairState st
  if !cor then s.chartEnd 0x9181 1 r { range := true, state := true, params := true, effect := fun s => take s Pair.independent }
  else if s.ch Ch.correlatedOverride = 1 then
    s.chartEnd 0x9181 1 r { range := true, state := true, params := true, effect := fun s => (take s Pair.degraded).pairEvent pkg 0 }
  else (s.chartEnd 0x9181 1 r refusedAct).pairEvent pkg 1

/-- COPY_PARTNER: the partner's feeds are read before the write is answered; none takes effect at once. A second write meanwhile, or a partner that cannot be reached, is refused. -/
def execCopyPartner (r : Req) (s : State) : Host.Outcome State Fault Refusal :=
  let v := r.value
  let act := fun (ok : Bool) (effect : State → State) =>
    ({ range := v == noRef || decide (v < 4096), state := ok && s.cascade.pairAsk.isNone, params := v == noRef || (s.pkgValid v && v != s.self), effect := effect } : ChAct)
  if v = noRef then
    .next (s.chartDo 0x9181 1 r (act true (fun s => (((s.setCh Ch.copyPartner v).setCh Ch.partnerFeedA 0).setCh Ch.partnerFeedB 0).setCh Ch.pairState Pair.none)))
  else if s.slotBusy r.path ∨ s.writeStatus 0x9181 1 r (act true id) ≠ Cs.ok ∨ (s.peer v).lost then .next (s.chartDo 0x9181 1 r (act false id))
  else .next ((({ s with cascade := { s.cascade with pairAsk := some (r, v, none) } } : State).chartHold r).askFeeds v 1)

/-- FEED_WRITE: sub 1 FEED_A, 2 FEED_B; the partner's feeds are read again. -/
def execFeedWrite (sub : Nat) (r : Req) (s : State) : Host.Outcome State Fault Refusal :=
  if sub ≠ 1 ∧ sub ≠ 2 then .next s else
  let effect := fun (s : State) =>
    let s := (s.setCh (if sub = 1 then Ch.feedA else Ch.feedB) r.value).settlePair
    if s.ch Ch.pairState = Pair.none then s else s.askFeeds (s.ch Ch.copyPartner) 3
  .next (s.chartDo 0x9180 sub r { range := true, state := true, params := true, effect := effect })

/-- CORRELATED_OVERRIDE. -/
def execCorrelatedOverride (r : Req) (s : State) : Host.Outcome State Fault Refusal :=
  .next (s.chartDo 0x9181 4 r { range := true, state := true, params := true, effect := fun s => (s.setCh Ch.correlatedOverride r.value).settlePair })

/-- A feed of the partner has come. -/
def State.feedArrives (s : State) (src tok status v : Nat) : State :=
  if tok ≤ 2 then
    match s.cascade.pairAsk with
    | none => s
    | some (r, pkg, first) =>
      if src ≠ pkg then s
      else if status ≠ Cs.ok then ({ s with cascade := { s.cascade with pairAsk := none } } : State).chartEnd 0x9181 1 r refusedAct
      else match first with
        | none => { s with cascade := { s.cascade with pairAsk := some (r, pkg, some v) } }
        | some a => s.pairDecided r pkg a v
  else if src ≠ s.ch Ch.copyPartner ∨ status ≠ Cs.ok then s
  else if tok % 2 = 1 then s.setCh Ch.partnerFeedA v
  else (s.setCh Ch.partnerFeedB v).settlePair

/-- CHART_REPLY: the payload is bytes 0 to 23 of the response's header, and its data (R401, R455, R457). -/
def execChartReply (f : Frame) (s : State) : Host.Outcome State Fault Refusal :=
  .next (s.message Mk.chartReply f (fun s src arg =>
    let st := MailboxHdr.status.get (leNat (f.payload.take 24))
    let v := leNat (f.payload.drop 24)
    if 1 ≤ arg ∧ arg ≤ 6 then s.feedArrives src arg st v
    else if 7 ≤ arg ∧ arg < 15 then (if st = Cs.ok ∧ s.pkgAt (arg - 7) = some src then s.setCh (Ch.borrowGranted + 256 * (arg - 7)) v else s)
    else s.out (.chartReply .cascade (MailboxHdr.seq.get (leNat (f.payload.take 24))) st 0 0 (f.payload.drop 24))))

end Sys2Proof.Machine
end

