-- ==== Sys2Proof/Machine/Exchange.lean ====
section
/-! DEFINITION. What moves between packages: EXCHANGE tasks (R310, R317, R404), the DATA and DATA_DONE messages with borrowed Reef (R402) and partner copies (R360), and the commands EXPORT and IMPORT (R57, R322 to R324, R375). The payloads are the model's own (log entry 13, DESIGN CHOICE). -/

namespace Sys2Proof.Machine

abbrev place24 (n i : Nat) : Nat := n + i * 2 ^ 24

/-! ### EXCHANGE tasks: what is moved -/

def State.exStream (s : State) (t : Nat) : Nat := s.tf t TaskRec.stream
def State.exReceives (s : State) (t : Nat) : Bool := bit (s.tf t TaskRec.streamB) 31
/-- A gradient goes to the owner (PHASE BACKWARD); else a version is fetched (PHASE UPDATE). -/
def State.exGradient (s : State) (t : Nat) : Bool := s.tf t TaskRec.phase == 1

/-- The kind and place under which an EXCHANGE task's transfer goes. -/
def State.exPlace (s : State) (x : TaskRef) : Nat × Nat :=
  let t := x.task
  let k := s.tf t TaskRec.shard
  let id := s.shf k ShardRec.shardId
  if s.exStream t ≠ noRef then (Dk.streamRec, s.exStream t)
  else if s.exGradient t then
    let w := match s.shardOpt k with | some a => (s.contribution x k a).1 | none => 0
    (Dk.gradient, id + s.tf t TaskRec.tileFirst * 2 ^ 32 + w % 4096 * 2 ^ 44)
  else (Dk.version, id + s.newVersion x * 2 ^ 32)

/-! ### Sending -/

/-- The bytes of a stored tile as they lie, with its index entry (0 without an index table); the status where they cannot be read. -/
def State.storedBlock (s : State) (n t : Nat) : State × Except Nat (List Byte) :=
  if s.residence n = Rs.quay then
    match (s.quay (s.sf n StreamRec.die)).held.find (n * 2 ^ 20 + t) with
    | some slot => (s, .ok (zeros 8 ++ s.quayBytes (s.sf n StreamRec.die) slot))
    | none => (s, .ok (zeros 8 ++ zeros 4096))
  else
    let e := if hasIndex (s.cls n) then s.entry n t else 0
    if hasIndex (s.cls n) ∧ (s.failing (s.entryAddr n t) 8).isSome then (s, .error St.detected) else
    let b := s.reefBlock n t
    if s.residence n = Rs.reef ∨ s.residence n = Rs.toHarbour then
      match s.reefRead b.1 b.2 with
      | (s, .ok bs) => (s, .ok (leBytes 8 e ++ bs))
      | (s, .error st) => (s, .error st)
    else
      let a := s.segment n (t % 20) + (b.1 - (s.sf n StreamRec.dataBase + t % 20 * 32 * s.segGranules n))
      match s.failing a b.2 with
      | some _ => (s, .error St.detected)
      | none => (s, .ok (leBytes 8 e ++ s.rd a b.2))

/-- A stream sent whole: its record with the class and rate in force, the generations its blocks name, its record copy, its tiles; DATA_DONE says how it ended. -/
def State.sendStream (s : State) (pkg n : Nat) : State × Option Nat :=
  let s := s.sendData pkg Dk.streamRec n (s.rd (s.streamBase n) 64 ++ leBytes 1 (s.cls n) ++ leBytes 1 (s.rate n))
  let s := (s.aux n).gens.foldl (fun (s : State) g =>
    match s.genSlot g with
    | some x => s.sendData pkg Dk.streamGen (place24 n g) (serialTable x.kind x.scope x.lengths)
    | none => s) s
  let copy := if s.cls n ≠ Cl.lossy then [] else if s.residence n = Rs.reef ∨ s.residence n = Rs.toHarbour then (s.aux n).reefRec else s.rd (s.recordAddr n) (32 * (s.aux n).copySize)
  let s := if copy.isEmpty then s else s.sendParts pkg Dk.streamFixed n copy
  let r := (if s.cls n = Cl.regen ∨ s.cls n = Cl.drop then [] else List.range (s.tiles n)).foldl (fun (r : State × Option Nat) t =>
    match r.2 with
    | some st => (r.1, some st)
    | none =>
      match r.1.storedBlock n t with
      | (s, .ok bs) => (s.sendData pkg Dk.streamTile (place24 n t) bs, none)
      | (s, .error st) => (s, some st)) (s, none)
  (r.1.sendDone pkg Dk.streamRec n (r.2.getD 0) false, r.2)

/-- The window that a replica sends is complete (R310, R311). -/
def State.windowReady (s : State) (x : TaskRef) (k a : Nat) : Bool :=
  let w := (s.contribution x k a).1
  if s.fld a OptRec.delay = 0 then (s.shard k).open_ == w && s.windowTotal k a w == some (s.fld a OptRec.added)
  else (s.shard k).complete.any (fun c => c.1 == (w : Int)) || (s.windowTotal k a w == some 0 && decide ((s.shard k).open_ ≤ w))

/-- The sent window closes on the replica (R310). -/
def State.closeWindow (s : State) (x : TaskRef) (k a : Nat) : State :=
  let w := (s.contribution x k a).1
  if s.fld a OptRec.delay = 0 then (s.modShard k (fun z => { z with open_ := w + 1 })).setFld a OptRec.added 0
  else if (s.shard k).complete.any (fun c => c.1 == (w : Int)) then
    (s.modShard k (fun z => { z with complete := z.complete.filter (fun c => c.1 != (w : Int)) })).setFld a OptRec.pending (s.fld a OptRec.pending - 1)
  else s

/-- The replica's window sum goes to the owner as one binary32 contribution; +0 where nothing contributed. -/
def State.sendGradient (s : State) (x : TaskRef) (k a : Nat) : State :=
  let pkg := s.exchangePeer x.task
  let p := s.exPlace x
  let w := (s.contribution x k a).1
  let acc := s.accBuf a (s.windowBuf a w)
  let n := 4 * s.optParams a
  if s.windowTotal k a w = some 0 then (s.sendParts pkg p.1 p.2 (zeros n)).sendDone pkg p.1 p.2 0 false
  else match s.failing acc n with
    | some sec => (s.sectorFound sec (some (s.tf x.task TaskRec.context))).abortGroup x St.detected
    | none => (s.sendParts pkg p.1 p.2 (s.rd acc n)).sendDone pkg p.1 p.2 0 false

/-- A lane begins an EXCHANGE. -/
def State.exchangeStart (s : State) (x : TaskRef) : State :=
  let t := x.task
  let n := s.exStream t
  let k := s.tf t TaskRec.shard
  let pkg := s.exchangePeer t
  if !s.pkgValid pkg ∨ (s.peer pkg).lost then s.abortGroup x St.ownerLost
  else if n ≠ noRef ∧ s.exReceives t then s.beginFill x n
  else if n ≠ noRef then
    match (s.fetchStarts n).sendStream pkg n with
    | (s, none) => s
    | (s, some st) => s.abortGroup x st
  else match s.shardOpt k with
  | none => s.abortGroup x St.noObject
  | some a =>
    if s.exGradient t then s.sendGradient x k a
    else let p := s.exPlace x; s.sendData pkg Dk.versionAsk p.2 []

/-! ### Receiving a stream (R404) -/

/-- What a receiver checks of the sender's record before anything else: CLASS with the class in force, BYTE_LENGTH, ELEM_TYPE, the LOSSY fields, CONTEXT. -/
def State.sameStream (s : State) (n : Nat) (payload : List Byte) : Bool :=
  let r := sliceNat payload 0 64
  [StreamRec.classF, StreamRec.byteLength, StreamRec.elemType, StreamRec.lossyRate, StreamRec.lossyCb, StreamRec.lossyEnv, StreamRec.context].all (fun f => f.get r == s.sf n f)
  && sliceNat payload 64 1 == s.cls n && (s.cls n != Cl.lossy || sliceNat payload 65 1 == s.rate n)

/-- The serialised generations that have come for a stream. -/
def State.streamGens (s : State) (n : Nat) : List (Nat × List Byte) :=
  s.cascade.incoming.filterMap (fun e => match e.1 with | .streamGen m g => if m = n then some (g, e.2) else none | _ => none)

/-- Each generation becomes a STREAM generation of the stream (R206): the new numbers by the sender's; nothing while a slot is wanting. -/
def State.takeGens (s : State) (n : Nat) : Option (State × SMap Nat) :=
  (s.streamGens n).foldl (fun (r : Option (State × SMap Nat)) e =>
    r.bind (fun r =>
      match readTable e.2 with
      | .error _ => some r
      | .ok (kind, _, lens) =>
        (r.1.slotFor 0 kind).map (fun k =>
          let s := r.1.takeSlot k kind 0 n (r.1.sf n StreamRec.context)
          let g := (nth s.skerry.gens k GenSlot.reset).gen
          let s := s.modAux n (fun z => { z with gens := z.gens ++ [g] })
          (s.makeCurrent k lens, r.2.put e.1 g)))) (some (s, []))

/-- TABLE_GEN rewritten in a trailer (R192). -/
def retagBlock (g : Nat) (block : List Byte) : List Byte :=
  let at_ := block.length - 8
  block.take at_ ++ leBytes 8 (Trailer.tableGen.set (sliceNat block at_ 8) g)

/-- One received tile stored in its place. -/
def State.placeTile (s : State) (n : Nat) (gens : SMap Nat) (t : Nat) (payload : List Byte) : State :=
  let e := sliceNat payload 0 8
  let block := payload.drop 8
  if s.residence n = Rs.quay then (s.holdTile (s.sf n StreamRec.die) n t (block.take 4096)).getD s
  else if hasIndex (s.cls n) then
    let old := IndexEnt.tableGen.get e
    let g := if old = 0 then 0 else gens.getD old 0
    let s := s.put (s.segment n (t % 20) + 32 * IndexEnt.offset.get e) (if old = 0 then block else retagBlock g block)
    s.put (s.entryAddr n t) (leBytes 8 (IndexEnt.tableGen.set e g))
  else
    let b := s.reefBlock n t
    s.put b.1 block
where
  /-- The granules a tile ends at in its segment. -/
  ends (s : State) (n t : Nat) (payload : List Byte) : Nat :=
    let e := sliceNat payload 0 8
    if hasIndex (s.cls n) then IndexEnt.offset.get e + IndexEnt.lenM1.get e + 1
    else if s.cls n = Cl.lossy then fixedGranules (s.rate n) * (t / 20 + 1) else 128 * (t / 20 + 1)

/-- What came for a stream is taken out of the inbox. -/
def State.dropStreamIn (s : State) (n : Nat) : State :=
  { s with cascade := { s.cascade with incoming := s.cascade.incoming.filter (fun e =>
      match e.1 with
      | .streamRec m => m != n
      | .streamGen m _ => m != n
      | .streamFixed m => m != n
      | .streamTile m _ => m != n
      | _ => true) } }

/-- The whole stream has come: it is checked, stored in this package's own place, and HELD; the sender is answered. -/
def State.takeStream (s : State) (x : TaskRef) (n pkg : Nat) (status : Nat) : State :=
  let answer := fun (s : State) (st : Nat) => ((s.takeInbox (.ended pkg Dk.streamRec n)).dropStreamIn n).sendDone pkg Dk.streamRec n st true
  if status ≠ 0 then ((s.takeInbox (.ended pkg Dk.streamRec n)).dropStreamIn n).abortGroup x status
  else if !s.sameStream n ((s.inbox (.streamRec n)).getD []) then (answer s St.streamState).abortGroup x St.streamState
  else if s.stateOf n = Ss.held then (answer s 0).sourceEnds (.task x)
  else match s.takeGens n with
  | none => s
  | some (s, gens) =>
    let tiles := s.tiles n
    let copy := (s.inbox (.streamFixed n)).getD []
    let s := if copy.isEmpty then s else s.put (s.recordAddr n) (copy.take (32 * (s.aux n).copySize))
    let s := (List.range tiles).foldl (fun (s : State) t =>
      let p := (s.inbox (.streamTile n t)).getD []
      let s := s.placeTile n gens t p
      s.modAux n (fun z => { z with written := z.written + 1, offsets := z.offsets.put (t % 20) (max (z.offsets.getD (t % 20) 0) (State.placeTile.ends s n t p)) })) s
    let s := (s.modAux n (fun z => { z with nextTile := tiles })).streamHeld n
    (answer s 0).sourceEnds (.task x)

/-- An EXCHANGE under way ends if what it waits for has come. -/
def State.exchangeTry (s : State) (x : TaskRef) : State :=
  let t := x.task
  let n := s.exStream t
  let k := s.tf t TaskRec.shard
  let pkg := s.exchangePeer t
  let p := s.exPlace x
  match (s.inbox (.ended pkg p.1 p.2)).map leNat with
  | none => s
  | some status =>
    if n ≠ noRef ∧ s.exReceives t then s.takeStream x n pkg status
    else
      let s := s.takeInbox (.ended pkg p.1 p.2)
      if status ≠ 0 then s.abortGroup x status
      else if n ≠ noRef then s.sourceEnds (.task x)
      else match s.shardOpt k with
      | none => s.abortGroup x St.noObject
      | some a =>
        if s.exGradient t then (s.closeWindow x k a).sourceEnds (.task x)
        else
          let v := s.newVersion x
          let key := Inbox.version (s.shf k ShardRec.shardId) v
          let bytes := (s.inbox key).getD []
          ((s.takeInbox key).put (s.slotBase k v) (bytes.take (s.shf k ShardRec.slotBytes))).sourceEnds (.task x)

/-! ### EXCHANGE -/

/-- EXCHANGE (R310, R317, R404): the dispatch hands the transfer to the task's channel. A version fetch is held by pins as an UPDATE is, and stopped as one by a replica mismatch. (log entry 80, DEDUCED.) -/
def execExchange (x : TaskRef) (s : State) : Host.Outcome State Fault Refusal :=
  let t := x.task
  if s.tf t TaskRec.taskKind ≠ Tk.exchange ∨ s.taskCount ≤ t then .next s else
  let n := s.exStream t
  let k := s.tf t TaskRec.shard
  let item := fun (s : State) => s.addItem (s.tf t TaskRec.channel) (.task x) (.exchange x) (s.tf t TaskRec.urgency)
  if n ≠ noRef ∧ s.exReceives t then .next ((s.reportWait x n).dispatch x Tk.exchange (State.mayProduce x n) item)
  else if n ≠ noRef then .next (s.dispatch x Tk.exchange (fun _ => true) (fun s => if s.stateOf n = Ss.held ∨ s.stateOf n = Ss.serving then item s else s.abortGroup x St.streamState))
  else match s.shardOpt k with
  | none => .next (s.dispatch x Tk.exchange (fun _ => true) (fun s => s.abortGroup x St.noObject))
  | some a =>
    if s.exGradient t then .next (s.dispatch x Tk.exchange (fun s => s.windowReady x k a) item)
    else
      let v := s.newVersion x
      let rest := fun (s : State) => s.written k ((v + 65535) % 65536)
      let work := fun (s : State) =>
        if (s.shard k).abortNext then (s.modShard k (fun z => { z with abortNext := false })).abortGroup x St.mismatch
        else item s
      let s := s.dispatch x Tk.exchange (fun s => rest s && s.slotUnpinned k v (some x)) work
      if (s.run x).isNone && s.taskState x == Ts.pending && s.atHead x && s.edgesMet x && rest s && !s.slotUnpinned k v (some x) && !(s.shard k).waited.contains x then
        .next (((s.modShard k (fun z => { z with waited := x :: z.waited })).countSticky Ch.versionWaits).soundLayer (s.tf t TaskRec.layer) LayerSnd.versionWaits)
      else .next s

/-! ### DATA -/

/-- Memory as a package reads or writes it for another: the Harbour, or the Reef through the window's place. -/
def State.peerRead (s : State) (a n : Nat) : State × Except Nat (List Byte) :=
  if windowStart ≤ a ∧ a + n ≤ windowStart + windowBytes then s.reefRead (s.ch Ch.windowOffset + (a - windowStart)) n
  else match s.failing a n with
    | some sec => (s.sectorFound sec none, .error St.detected)
    | none => if s.unreachable a n false then (s, .error St.protected_) else (s, .ok (s.rd a n))

def State.peerWrite (s : State) (a : Nat) (bs : List Byte) : State × Option Nat :=
  if s.unreachable a bs.length true ∨ s.protects a bs.length then (s, some St.protected_)
  else match s.mergeFails a bs.length with
    | some sec => (s.sectorFound sec none, some St.detected)
    | none => (s.put a bs, none)

/-- DATA (R402, R404). -/
def execData (f : Frame) (s : State) : Host.Outcome State Fault Refusal :=
  .next (s.message Mk.data f (fun s src arg =>
    let kind := arg / 2 ^ 56
    let place := arg % 2 ^ 56
    let b := f.payload
    let n := place % 2 ^ 24
    let i := place / 2 ^ 24
    let lend := match s.memberAt src with
      | some p => (s.ch (Ch.lendBase + 256 * p), s.ch (Ch.lendBytes + 256 * p))
      | none => (0, 0)
    if kind = Dk.streamRec then s.putInbox (.streamRec n) b
    else if kind = Dk.streamGen then s.putInbox (.streamGen n i) b
    else if kind = Dk.streamFixed then s.addInbox (.streamFixed n) b
    else if kind = Dk.streamTile then s.putInbox (.streamTile n i) b
    else if kind = Dk.gradient then
      (let id := place % 2 ^ 32
       let s := s.addInbox (.gradient id (place / 2 ^ 32 % 2 ^ 12) (place / 2 ^ 44)) b
       match (List.range s.shardCount).find? (fun k => s.shf k ShardRec.shardId == id) with
       | none => s
       | some k => match s.shardOpt k with
         | some a => s.landRemote k a
         | none => s)
    else if kind = Dk.version then s.addInbox (.version (place % 2 ^ 32) (place / 2 ^ 32)) b
    else if kind = Dk.versionAsk then
      let id := place % 2 ^ 32
      let s := s.putInbox (.versionAsk src id (place / 2 ^ 32)) []
      (match (List.range s.shardCount).find? (fun k => s.shf k ShardRec.shardId == id && s.owns k) with
       | some k => s.serveVersions k
       | none => s)
    else if kind = Dk.reefWrite then
      (match (match unpackBlock (place % 4096) b with
          | none => (s, some St.detected)
          | some bs => if place + bs.length ≤ lend.2 then s.reefStore (lend.1 + place) bs else (s, some St.noObject)) with
       | (s, some st) => s.sendDone src Dk.reefWrite place st true
       | (s, none) => s)
    else if kind = Dk.reefAsk then
      let len := sliceNat b 8 4
      (match (if place + len ≤ lend.2 then s.reefRead (lend.1 + place) len else (s, .error St.noObject)) with
       | (s, .ok bs) => s.sendData src Dk.reefRead 0 (b.take 8 ++ packBlock (place % 4096) bs)
       | (s, .error st) => s.sendDone src Dk.reefRead (sliceNat b 0 8) st true)
    else if kind = Dk.reefRead then s.putInbox (.reefRead (sliceNat b 0 8)) (b.drop 8)
    else if kind = Dk.setWrite then
      (match (if place + b.length ≤ s.ch Ch.swBytes then s.reefStore place b else (s, some St.noObject)) with
       | (s, some st) => s.sendDone src Dk.setWrite place st true
       | (s, none) => s)
    else if kind = Dk.setAsk ∨ kind = Dk.importAsk then
      let tok := sliceNat b 0 8
      let len := sliceNat b 8 8
      (match (if kind = Dk.setAsk then s.reefRead place len else s.peerRead place len) with
       | (s, .ok bs) => (s.sendParts src Dk.importBytes tok bs).sendDone src Dk.importBytes tok 0 true
       | (s, .error st) => s.sendDone src Dk.importBytes tok st true)
    else if kind = Dk.importBytes then s.addInbox (.bytes place) b
    else if kind = Dk.exportBytes then
      (match s.peerWrite place b with
       | (s, some st) => s.putInbox (.ended src Dk.exportBytes 0) (leBytes 1 st)
       | (s, none) => s)
    else s))

/-- The running EXCHANGE items look again. -/
def State.retryExchanges (s : State) : State :=
  (s.ferry.items.filterMap (fun i => match i.work with | .exchange x => if s.ferry.lanes.any (fun e => e.2.item == i.id) then some x else none | _ => none)).foldl State.exchangeTry s

/-! ### EXPORT -/

/-! A command's transfer is one work item of its channel (R142, R145), carried in one piece by the lane that takes it, as a chain of one descriptor with tag 0 (log entry 100, DESIGN CHOICE). -/

/-- The item that carries a command's transfer. -/
def State.carrier (s : State) (c : Nat) : Option WorkItem := s.ferry.items.find? (fun i => i.source == .cmd c)

/-- A carried command ends, and its item with it: its descriptor completes, or the early end is reported and its interrupt given (R161, R163); a bus error leaves the channel HALTED (R162). DETAIL is the given one, or the event's number where the status asks for it. -/
def State.carryEnds (s : State) (d : Dispatched) (status detail addr : Nat) : State :=
  match s.carrier d.tag with
  | none => s.endCmd d status detail
  | some i =>
    if status = St.success then
      let s := match s.ferry.lanes.find? (fun e => e.2.item == i.id) with | some (l, _) => s.descDone l i.channel 0 | none => s
      (s.dropItem i).endCmd d status detail
    else
      let s := (s.raise ⟨0x0402, i.channel, evAddr addr status, if status = St.busError then 2 ^ 16 else 0, some (s.cmdContext d), [0]⟩).chanInt i.channel
      let ev := s.nextEvent - 1
      let s := if status = St.busError then s.setFlds (s.chan i.channel) [(ChanRec.state, Cn.halted), (ChanRec.haltCause, 1)] else s
      (s.dropItem i).endCmd d status (if detailIsEvent status then ev else detail)

/-- The state in which EXPORT or IMPORT finds its object, where it is not one that accepts the command (R57, R131 step 12, R322 to R324). -/
def State.replicaState (s : State) (w : Nat) : Option (Nat × Nat) :=
  let o := cmdGet w CmdExport.object
  let out := cmdGet w Cmd.opcode == Op.exportC
  if cmdGet w CmdExport.objectKind = 0 then
    if (if out then [Ss.held, Ss.serving, Ss.aborted] else [Ss.unborn, Ss.released, Ss.filling]).contains (s.stateOf o) then none else some (St.streamState, s.streamDetail o)
  else if cmdGet w CmdExport.objectKind = 1 then
    if (if out then s.ch Ch.planState != Pl.running else s.ch Ch.planState == Pl.loaded && s.plan.stepCount == 0) then none else some (St.planState, s.planDetail)
  else if out && !s.owns o then some (St.streamState, s.freeDetail % 128) else none

/-- The bytes that an EXPORT takes at ADDRESS: the tiles of a stream, an export record, or the ring that BYTES gives (R322, R324). -/
def State.exportBytes (s : State) (w : Nat) : Nat :=
  let o := cmdGet w CmdExport.object
  if cmdGet w CmdExport.objectKind = 0 then 4096 * s.tiles o
  else if cmdGet w CmdExport.objectKind = 1 then (match s.shardOpt o with | some a => 64 + (partBytes (s.exportPayload o a).2.1).length | none => 64)
  else cmdGet w CmdExport.bytes

/-- BYTES meets the bound that the object gives it; 0 moves nothing (R133, R322, R324). -/
def State.replicaFits (s : State) (w : Nat) : Bool :=
  let n := cmdGet w CmdExport.bytes
  let kind := cmdGet w CmdExport.objectKind
  n == 0
  || (if cmdGet w Cmd.opcode = Op.exportC then
        (if kind = 2 then decide (64 < n ∧ (n - 64) % 4160 = 0) else decide (s.exportBytes w ≤ n))
      else kind != 0 || decide (s.sf (cmdGet w CmdExport.object) StreamRec.byteLength ≤ n))

/-- A stored tile of a stream, wherever it lies, as FETCH would deliver it. -/
def State.tileOut (s : State) (n t : Nat) : State × Except Dmg (List Byte) :=
  if s.residence n = Rs.reef ∨ s.residence n = Rs.toHarbour then
    let b := s.reefBlock n t
    match s.reefRead b.1 b.2 with
    | (s, .error _) => (s, .error (.block b.1 1))
    | (s, .ok bs) =>
      let slot := 2 ^ 50
      let v := (s.store (s.slotAddr slot) bs).modAux n (fun z => { z with staged := z.staged.put t slot })
      (s, v.readStored n t)
  else (s, s.readStored n t)

/-- The bytes of an ABORTED, HELD or SERVING stream; tiles never stored are not read. A tile that cannot be read ends it with its status. -/
def State.streamOut (s : State) (n : Nat) : State × Except Nat (List (Nat × List Byte)) :=
  (List.range (s.tiles n)).foldl (fun (r : State × Except Nat (List (Nat × List Byte))) t =>
    match r.2 with
    | .error e => (r.1, .error e)
    | .ok l =>
      if hasIndex (r.1.cls n) && IndexEnt.valid.get (r.1.entry n t) == 0 then r
      else match r.1.tileOut n t with
        | (s, .ok bs) => (s, .ok (l ++ [(t, bs)]))
        | (s, .error d) => (s.reportDamage n t d, .error d.status)) (s, .ok [])

/-- The lowest byte of some pieces that the command may not write (R48, R139). -/
def State.piecesOffend (s : State) (pieces : List (Nat × List Byte)) : Option Nat :=
  (pieces.filterMap (fun p => s.offending p.1 p.2.length true)).foldl (fun m x => match m with | none => some x | some y => some (min x y)) none

/-- The pieces `at, bytes` go to memory here, where `m` is what the writes meet, or to the peer's. -/
def State.exportTo (s : State) (d : Dispatched) (m : MemResult) (pieces : List (Nat × List Byte)) : State :=
  let w := d.word
  let pkg := cmdGet w CmdExport.package
  if cmdGet w CmdExport.remote = 1 then
    if !s.pkgValid pkg ∨ (s.peer pkg).lost then s.carryEnds d St.ownerLost 0 0
    else (pieces.foldl (fun (s : State) p => s.sendRun pkg Dk.exportBytes p.1 p.2) s).sendDone pkg Dk.exportBytes d.tag 0 false
  else match s.piecesOffend pieces with
    | some a => s.carryEnds d St.protected_ (a % 2 ^ 48) a
    | none =>
      if m ≠ .ok then s.carryEnds d m.status 0 m.addr
      else match (pieces.filterMap (fun p => s.mergeFails p.1 p.2.length)).head? with
        | some sec => (s.sectorFound sec (some (s.cmdContext d))).carryEnds d St.detected 0 (256 * sec)
        | none => (pieces.foldl (fun (s : State) p => s.put p.1 p.2) s).carryEnds d St.success 0 0

/-- A difference stream is armed (R324). A ring header with an RSVD bit set is rejected (R4, log entry 101, DEDUCED). -/
def State.armDiff (s : State) (d : Dispatched) (m : MemResult) (k a : Nat) : State :=
  let n := cmdGet d.word CmdExport.bytes
  let r := cmdGet d.word CmdExport.address
  match s.offending r n true with
  | some x => s.carryEnds d St.protected_ (x % 2 ^ 48) x
  | none =>
    if m ≠ .ok then s.carryEnds d m.status 0 m.addr
    else match s.failing r 64 with
    | some sec => (s.sectorFound sec (some (s.cmdContext d))).carryEnds d St.detected 0 (256 * sec)
    | none =>
      if s.rdNat r 64 / 2 ^ 130 ≠ 0 then s.carryEnds d St.rsvdSet CmdExport.address.lo r
      else
        let s := (s.put r (zeros 8)).put (r + 16) (leBytes 1 (s.rdNat (r + 16) 1 % 2))
        let s := (s.setFlds a [(OptRec.diffRing, r), (OptRec.diffArmed, 1)]).modShard k (fun z => { z with diffArea := n - 64 })
        s.carryEnds d St.success 0 0

/-- Why an EXPORT or IMPORT that has been accepted can no longer be carried out: its object has changed since (R131 step 12). -/
def State.replicaRefused (s : State) (w : Nat) : Option (Nat × Nat) :=
  match s.replicaState w with
  | some r => some r
  | none => if s.replicaFits w then none else some (St.badLength, CmdExport.bytes.lo)

/-- CURRENT_VERSION plus 1 where an export record is written, which the EXPORT pins until it completes (R322); else 0. -/
def State.exportedVersion (s : State) (w : Nat) : Nat :=
  if cmdGet w CmdExport.objectKind = 1 then s.shf (cmdGet w CmdExport.object) ShardRec.currentVersion + 1 else 0

/-- A lane carries out an EXPORT (R57, R322, R324). -/
def State.exportRun (s : State) (d : Dispatched) (m : MemResult) : State :=
  let w := d.word
  let o := cmdGet w CmdExport.object
  let at_ := cmdGet w CmdExport.address
  match s.replicaRefused w with
  | some (st, det) => s.carryEnds d st det 0
  | none =>
    if cmdGet w CmdExport.objectKind = 0 then
      match s.streamOut o with
      | (s, .error st) => s.carryEnds d st 0 0
      | (s, .ok ts) => s.exportTo d m (ts.map (fun p => (at_ + 4096 * p.1, p.2)))
    else match s.shardOpt o with
    | none => s.carryEnds d St.noObject CmdExport.object.lo 0
    | some a =>
      if cmdGet w CmdExport.objectKind = 2 then s.armDiff d m o a
      else match (s.setStage d.tag .underway (s.exportedVersion w)).exportPayload o a with
        | (s, ps, fail) =>
          let bytes := partBytes ps
          match fail, (ps.filterMap (fun p => p.2.1.bind (fun x => s.failing x p.1.length))).head? with
          | some (x, st), _ => s.carryEnds d st 0 x
          | none, some sec => (s.sectorFound sec (some (s.cmdContext d))).carryEnds d St.detected 0 (256 * sec)
          | none, none => s.exportTo d m [(at_, s.exportHeader o a bytes ++ bytes)]

/-- EXPORT (R57, R133, R142, R322, R324): its transfer joins the work of its channel. -/
def execExportCmd (c : Nat) (s : State) : Host.Outcome State Fault Refusal :=
  match (s.cmd c Op.exportC).filter (fun d => d.stage == .ready) with
  | none => .next s
  | some d =>
    if cmdGet d.word CmdExport.bytes = 0 then .next (s.endCmd d St.success 0)
    else match s.replicaRefused d.word with
    | some (st, det) => .next (s.endCmd d st det)
    | none => .next ((s.setStage c .underway (s.exportedVersion d.word)).addItem (cmdGet d.word CmdExport.channel) (.cmd c) (.carry c) (cmdGet d.word Cmd.urgency))

/-! ### IMPORT -/

/-- An export record is taken (R323). -/
def State.importRecord (s : State) (d : Dispatched) (k a : Nat) (bytes : List Byte) : State :=
  if !s.exportMatches k a bytes then s.carryEnds d St.codecDamage 0 (cmdGet d.word CmdExport.address)
  else
    let h := sliceNat bytes 0 64
    let size := s.optParams a * elemBytes (s.fld a OptRec.weightType)
    let s := (s.put (s.shf k ShardRec.base) (slice bytes 64 size)).setFld (s.tables.shards + 32 * k) ShardRec.currentVersion 0
    let s : State := { s with plan := { s.plan with baseUpdates := s.plan.baseUpdates.put k 0 } }
    match s.importState k a bytes 0 with
    | (s, some st) => s.carryEnds d st 0 (s.fld a OptRec.stateBase)
    | (s, none) => s.carryEnds d St.success (ExportHdr.version.get h) 0

/-- One difference record's page is combined with the target's (R324). -/
def State.applyPage (s : State) (k a section_ page : Nat) (payload : List Byte) : State × Option Nat :=
  let xor := fun (p q : List Byte) => List.zipWith (fun (x y : Byte) => x ^^^ y) p q
  if section_ = 0 then
    let at_ := s.slotBase k (s.shf k ShardRec.currentVersion) + 4096 * page
    (s.put at_ (xor (s.rd at_ 4096) payload), none)
  else
    let at_ := s.fld a OptRec.stateBase + s.secOffset a section_ + 4096 * page
    if s.reefState a then
      match s.reefRead at_ 4096 with
      | (s, .ok old) => s.reefPut at_ (xor old payload)
      | (s, .error st) => (s, some st)
    else (s.put at_ (xor (s.rd at_ 4096) payload), none)

/-- The records of one update from place `i` on, up to its END; the place of the one at fault. -/
def updateRecords : Nat → List Byte → Nat → Nat → Nat → Except Nat (List Nat × Nat)
  | 0, _, first, _, _ => .error first
  | fuel + 1, bytes, first, i, want =>
    if bytes.length < 4160 * (i + 1) then .error first
    else
      let o := 4160 * i
      let sec := sliceNat bytes (o + 8) 4
      if sliceNat bytes (o + 4) 4 ≠ want ∨ sliceNat bytes (o + 16) 4 ≠ crc32c (slice bytes (o + 64) 4096) then .error i
      else if sec = 15 then .ok ([], i + 1)
      else match updateRecords fuel bytes first (i + 1) want with
        | .error e => .error e
        | .ok (l, next) => .ok (i :: l, next)

/-- Whole updates are applied in order; the first record that does not fit, or a Reef that fails, ends the IMPORT (R324, R375). -/
def State.applyUpdates : Nat → State → Dispatched → Nat → Nat → List Byte → Nat → State
  | 0, s, d, _, _, _, _ => s.carryEnds d St.success 0 0
  | fuel + 1, s, d, k, a, bytes, i =>
    if bytes.length ≤ 4160 * i then s.carryEnds d St.success 0 0
    else
      let want := (s.fld a OptRec.updates + 1) % 2 ^ 32
      match updateRecords (bytes.length / 4160 + 1) bytes i i want with
      | .error j => s.carryEnds d St.codecDamage 0 (cmdGet d.word CmdExport.address + 4160 * j)
      | .ok (l, next) =>
        let r := l.foldl (fun (r : State × Option Nat) j => match r.2 with
          | some _ => r
          | none => r.1.applyPage k a (sliceNat bytes (4160 * j + 8) 4) (sliceNat bytes (4160 * j + 12) 4) (slice bytes (4160 * j + 64) 4096)) (s, none)
        match r with
        | (s, some st) => s.carryEnds d st 0 (s.fld a OptRec.stateBase)
        | (s, none) => State.applyUpdates fuel (s.setFld a OptRec.updates want) d k a bytes next

/-- A stream enters FILLING for an IMPORT of all its tiles (R50, R65). -/
def State.fillWhole (s : State) (n : Nat) : Started :=
  match s.fillForCmd n with
  | .filling t =>
    let t := if s.stateOf n = Ss.filling then t else t.startPasses n
    .filling (t.modAux n (fun z => { z with nextTile := max z.nextTile (t.tiles n) }))
  | r => r

/-- A tile whose bytes have come by message, as a lane holds it. -/
def State.arrivedTile (s : State) (n : Nat) (bytes : List Byte) (t : Nat) : IssuedDesc :=
  let k := min 4096 (recStoredBytes (s.cls n) (s.streamRec n) - 4096 * t)
  { IssuedDesc.begin_ 0 (builtDesc 0 0 k false false) (.stowTile n t) with rd := k, buf := List.zip (List.range k) (slice bytes (4096 * t) k) }

/-- A stream's tensor that a peer has sent goes on as the tiles of a STOW do. -/
def State.importStream (s : State) (d : Dispatched) (n : Nat) (bytes : List Byte) : State :=
  match s.carrier d.tag, s.fillWhole n with
  | some i, .filling t =>
    (match t.ferry.lanes.find? (fun e => e.2.item == i.id) with
     | none => s
     | some (l, _) =>
       let tiles := (List.range (t.tiles n)).map (t.arrivedTile n bytes)
       State.settleLane 64 (((t.takeInbox (.bytes d.tag)).modItem i.id (fun i => { i with work := .stow n 0 tiles.length 0 })).modLane l (fun r => { r with issued := tiles })) l)
  | _, .failed t => t.carryEnds d St.capacity 0 0
  | _, _ => s

/-- What an IMPORT does with its bytes. -/
def State.importWith (s : State) (d : Dispatched) (bytes : List Byte) : State :=
  let o := cmdGet d.word CmdExport.object
  match s.replicaRefused d.word with
  | some (st, det) => (s.takeInbox (.bytes d.tag)).carryEnds d st det 0
  | none =>
    if cmdGet d.word CmdExport.objectKind = 0 then s.importStream d o bytes
    else match s.shardOpt o with
    | none => s.carryEnds d St.noObject CmdExport.object.lo 0
    | some a =>
      let s := s.takeInbox (.bytes d.tag)
      if cmdGet d.word CmdExport.objectKind = 1 then s.importRecord d o a bytes else State.applyUpdates (bytes.length / 4160 + 1) s d o a bytes 0

/-- The bytes of an IMPORT that a peer was asked for, once all have come. -/
def State.importTry (s : State) (d : Dispatched) : State :=
  match s.inbox (.bytes d.tag) with
  | none => s
  | some bs => if bs.length < cmdGet d.word CmdExport.bytes then s else s.importWith d (bs.take (cmdGet d.word CmdExport.bytes))

/-- A lane carries out an IMPORT (R323, R324, R375): a peer's bytes are asked for first. -/
def State.importRun (s : State) (d : Dispatched) (m : MemResult) : State :=
  let w := d.word
  let at_ := cmdGet w CmdExport.address
  let n := cmdGet w CmdExport.bytes
  let pkg := cmdGet w CmdExport.package
  if cmdGet w CmdExport.remote = 1 then
    if !s.pkgValid pkg ∨ (s.peer pkg).lost then s.carryEnds d St.ownerLost 0 0
    else (s.sendData pkg Dk.importAsk at_ (leBytes 8 d.tag ++ leBytes 8 n)).putInbox (.bytes d.tag) []
  else if m ≠ .ok then s.carryEnds d m.status 0 m.addr
  else match s.failing at_ n with
    | some sec => (s.sectorFound sec (some (s.cmdContext d))).carryEnds d St.detected 0 (256 * sec)
    | none => s.importWith d (s.rd at_ n)

/-- IMPORT (R133, R142, R323, R324): its transfer joins the work of its channel; the tiles of a stream are read from memory as a STOW reads them. -/
def execImportCmd (c : Nat) (s : State) : Host.Outcome State Fault Refusal :=
  match (s.cmd c Op.importC).filter (fun d => d.stage == .ready) with
  | none => .next s
  | some d =>
    let w := d.word
    let o := cmdGet w CmdExport.object
    let item := fun (s : State) (k : ItemWork) => (s.setStage c .underway 0).addItem (cmdGet w CmdExport.channel) (.cmd c) k (cmdGet w Cmd.urgency)
    if cmdGet w CmdExport.bytes = 0 then .next (s.endCmd d St.success 0)
    else match s.replicaRefused w with
    | some (st, det) => .next (s.endCmd d st det)
    | none =>
      if cmdGet w CmdExport.objectKind ≠ 0 then .next (item s (.carry c))
      else if s.cls o = Cl.drop ∨ s.cls o = Cl.regen then .next (s.endCmd d St.success 0)
      else if cmdGet w CmdExport.remote = 1 then .next (item s (.carry c))
      else match s.fillWhole o with
        | .waits => .next s
        | .failed s => .next (s.failCmd d St.capacity)
        | .filling t => .next (item t (.stow o 0 (t.tiles o) (cmdGet w CmdExport.address)))

/-! ### LANE_TAKES_ITEM, DATA_DONE -/

/-- A lane begins a command's transfer. -/
def State.carryStart (s : State) (i : WorkItem) (c : Nat) (m : MemResult) : State :=
  match s.dispatched.find? (fun d => d.tag == c) with
  | none => s.dropItem i
  | some d => if cmdGet d.word Cmd.opcode = Op.exportC then s.exportRun d m else s.importRun d m

/-- A transfer under way looks again for what it waits for. -/
def State.carryTry (s : State) (c : Nat) : State :=
  match s.dispatched.find? (fun d => d.tag == c && cmdGet d.word Cmd.opcode == Op.importC) with
  | none => s
  | some d => s.importTry d

/-- LANE_TAKES_ITEM (R144, R145): an idle lane takes the next item of its channels; one whose item moves by messages looks again for what it waits for. What the memory accesses of a transfer carried in one piece meet comes with it. -/
def execLaneTakesItem (l : LaneStart) (s : State) : Host.Outcome State Fault Refusal :=
  match s.lane l.lane with
  | some r =>
    (match (s.item r.item).map WorkItem.work with
     | some (.exchange x) => .next (s.exchangeTry x)
     | some (.carry c) => .next (s.carryTry c)
     | _ => .next s)
  | none =>
    match (if l.lane < 256 then s.nextItem l.lane else none) with
    | some i =>
      (match i.work with
       | .exchange x => .next (let s := (s.runItem l.lane i .done).exchangeStart x; if (s.item i.id).isSome then s.exchangeTry x else s)
       | .carry c => .next ((s.runItem l.lane i .done).carryStart i c l.mem)
       | _ => .next (s.laneTakes l.lane))
    | none => .next s

/-- The answer to what this package sent or asked for. (log entry 81, DEDUCED.) -/
def State.answered (s : State) (src kind place status : Nat) : State :=
  if kind = Dk.streamRec ∨ kind = Dk.gradient then (s.putInbox (.ended src kind place) (leBytes 1 status)).retryExchanges
  else if kind = Dk.reefRead then s.portEnds place status
  else if kind = Dk.reefWrite then
    (match s.memberAt src with
     | none => s
     | some p =>
       let a := (p + 1) * 2 ^ 47 + place
       ((List.range s.streamCount).filter (fun n =>
         (s.residence n == Rs.toReef || s.residence n == Rs.reef) && decide (s.sf n StreamRec.dataBase ≤ a ∧ a < s.sf n StreamRec.dataBase + 20 * 32 * s.segGranules n))).foldl State.reefLostStream s)
  else if kind = Dk.setWrite then
    (match (List.range (s.ch Ch.setsCount)).find? (fun k => s.stf k SetRec.state == Sst.taking && s.stf k SetRec.destKind == 2 && s.stf k SetRec.partner == src
        && decide (s.stf k SetRec.destBase ≤ place ∧ place < s.stf k SetRec.destBase + s.stf k SetRec.copyBytes)) with
     | some k => s.breakSet k (place / 65536 * 65536) status
     | none => s)
  else if kind = Dk.importBytes then
    if status = 0 then (if 2 ^ 40 ≤ place then s.adoptArrives (place - 2 ^ 40) else s.carryTry place)
    else if 2 ^ 40 ≤ place then
      let k := place - 2 ^ 40
      let s := s.takeInbox (.bytes place)
      (match s.cascade.adoptAsk.filter (fun p => p.2 == k) with
       | some (r, _) => ({ s with cascade := { s.cascade with adoptAsk := none } } : State).chartEnd 0x8000 4 r refusedAct
       | none => if s.stf k SetRec.state = Sst.adopting then s.adoptFails k 2 else s)
    else (match s.dispatched.find? (fun d => d.tag == place) with
      | none => s
      | some d =>
        let s := s.takeInbox (.bytes place)
        if cmdGet d.word Cmd.opcode ≠ Op.restore then s.carryEnds d status 0 (cmdGet d.word CmdExport.address) else
        s.restoreFails d (cmdGet d.word CmdSet.set) status)
  else if kind = Dk.exportBytes then
    (match s.dispatched.find? (fun d => d.tag == place) with
     | none => s
     | some d => s.carryEnds d status (if status = 0 then 0 else cmdGet d.word CmdExport.address % 2 ^ 48) (cmdGet d.word CmdExport.address))
  else s

/-- DATA_DONE: the end of a transfer, which is answered, or the answer. -/
def execDataDone (f : Frame) (s : State) : Host.Outcome State Fault Refusal :=
  .next (s.message Mk.dataDone f (fun s src arg =>
    let kind := arg / 2 ^ 56
    let place := arg % 2 ^ 56
    let status := sliceNat f.payload 0 1
    if sliceNat f.payload 1 1 = 1 then s.answered src kind place status
    else if kind = Dk.gradient then s.sendDone src kind place 0 true
    else if kind = Dk.streamRec ∨ kind = Dk.version then (s.putInbox (.ended src kind place) (leBytes 1 status)).retryExchanges
    else if kind = Dk.exportBytes then
      (let st := ((s.inbox (.ended src kind 0)).map leNat).getD 0
       (s.takeInbox (.ended src kind 0)).sendDone src kind place st true)
    else s))

end Sys2Proof.Machine
end

