-- ==== Sys2Proof/Machine/Host.lean ====
section
/-! DEFINITION. Registered regions (R381 to R383) and sessions (R387 to R390). -/

namespace Sys2Proof.Machine

abbrev RegCtl.index : Fld := ⟨41, 32⟩

/-- A region record's fields obey R382 and R383: those of the record, its context, and where it lies. -/
def State.regionValid (s : State) (g : Nat) : Bool :=
  let a := s.regBase g
  let f := fun (x : Fld) => s.fld a x
  let base := f DevRegion.base
  let n := f DevRegion.bytes
  let peer := f DevRegion.peer == 1
  let others := s.devRecords.filter (fun b => b != a && s.devEnabled b && !(peer && s.fld b DevRegion.peer == 1))
  let apart := others.all (fun b => !overlap base n (s.fld b DevRegion.base) (s.fld b DevRegion.bytes))
  (rsvdBit (s.rdNat a 32) DevRegion.rsvd).isNone && base % 4096 == 0 && n % 4096 == 0 && n != 0 && f DevRegion.access != 0 && s.contextExists (f DevRegion.context)
  && apart && decide (base + n ≤ 2 ^ 52)
  && (if f DevRegion.peer = 1 then !inHarbour base && !overlap base n windowStart windowBytes
      else (if inHarbour base then (s.firstOutside base n).isNone else decide (base + n ≤ controlAperture)) && !s.protects base n)

/-- ENABLE of a registered region (R383). -/
def execRegionEnable (r : Req) (s : State) : Host.Outcome State Fault Refusal :=
  if !actionIs r actF 1 then .next s else
  let g := RegCtl.index.get r.value
  .next (s.chartDo 0x2010 3 r
    { range := onlyBits r.value [RegCtl.index, actF] && decide (g < s.ch Ch.regCount)
      state := s.fld (s.regBase g) DevRegion.state == 0 && (s.failing (s.regBase g) 32).isNone
      params := s.regionValid g
      effect := fun s => (s.setFld (s.regBase g) DevRegion.state 1).wake })

/-- DISABLE of a registered region: accepted at once, and done when every request accepted for the region before it has completed (R383, R406, R451). -/
def execRegionDisable (r : Req) (s : State) : Host.Outcome State Fault Refusal :=
  if !actionIs r actF 2 then .next s else
  let g := RegCtl.index.get r.value
  .next (s.chartDo 0x2010 3 r
    { range := onlyBits r.value [RegCtl.index, actF] && decide (g < s.ch Ch.regCount)
      state := s.fld (s.regBase g) DevRegion.state == 1
      params := true
      effect := fun s => (s.closeRegion g).wake })

/-! ### Sessions -/

abbrev Sn.detached : Nat := 0
abbrev Sn.attached : Nat := 1
abbrev Sn.orphaned : Nat := 2

abbrev Attach.nonce : Fld := ⟨63, 0⟩
abbrev Attach.action : Fld := ⟨67, 64⟩

def attachAct (s : State) (r : Req) (ok : Bool) (effect : State → State) : State :=
  s.chartDo 0x1100 3 r { range := onlyBits r.value [Attach.nonce, Attach.action] && Attach.nonce.get r.value != 0, state := ok, params := true, effect := effect }

/-- A session begins: ATTACHED under the nonce, counted and reported; a DEGRADED pairing is reported again (R374). -/
def State.attached (s : State) (nonce : Nat) : State :=
  let s := ((s.setCh Ch.sessionState Sn.attached).setCh Ch.sessionId nonce).count Ch.attachCount 32
  let s : State := { s with clock := { s.clock with orphan := 0 } }
  let s := s.raise ⟨0x0B08, noRef, nonce, Sn.attached, none, []⟩
  if s.ch Ch.pairState = Pair.degraded then s.pairEvent (s.ch Ch.copyPartner) 0 else s

/-- ATTACH (R388). -/
def execAttach (r : Req) (s : State) : Host.Outcome State Fault Refusal :=
  if !actionIs r Attach.action 1 then .next s
  else .next (attachAct s r (s.ch Ch.sessionState == Sn.detached) (fun s => s.attached (Attach.nonce.get r.value)))

/-- TAKEOVER (R388). -/
def execTakeover (r : Req) (s : State) : Host.Outcome State Fault Refusal :=
  if !actionIs r Attach.action 2 then .next s
  else .next (attachAct s r (s.ch Ch.sessionState != Sn.detached) (fun s => s.attached (Attach.nonce.get r.value)))

/-- DETACH (R388). -/
def execDetach (r : Req) (s : State) : Host.Outcome State Fault Refusal :=
  if !actionIs r Attach.action 3 then .next s
  else .next (attachAct s r (Attach.nonce.get r.value == s.ch Ch.sessionId) (fun s => (s.setCh Ch.sessionState Sn.detached).setCh Ch.sessionId 0))

/-- HEARTBEAT_TIMEOUT (R390). -/
def execHeartbeatTimeout (s : State) : Host.Outcome State Fault Refusal :=
  if s.ch Ch.sessionState ≠ Sn.attached ∨ s.ch Ch.heartbeatLimit = 0 then .next s else
  let s := s.setCh Ch.sessionState Sn.orphaned
  let s : State := { s with clock := { s.clock with orphan := 0 } }
  .next (s.raise ⟨0x0B08, noRef, s.ch Ch.sessionId, Sn.orphaned, none, []⟩)

end Sys2Proof.Machine
end

