-- ==== Sys2Proof/Machine/Causeway.lean ====
section
/-! DEFINITION. The Causeways (14_causeway.md): training, the exchange of trained-width words, RESUME and RELEASE, spans and replays, straps, and the loss of a compute die. -/

namespace Sys2Proof.Machine

/-! ### States (R414) -/

def State.causeway (s : State) (d : Nat) : Causeway := s.causeways.getD d Causeway.reset
def State.modCauseway (s : State) (d : Nat) (f : Causeway → Causeway) : State := { s with causeways := updateAt s.causeways d f }

abbrev CwWord.repairedDown : Fld := ⟨255, 240⟩
abbrev CwWord.repairDown : Fld := ⟨239, 176⟩
abbrev CwWord.baysDown : Fld := ⟨175, 160⟩
abbrev CwWord.repairedUp : Fld := ⟨159, 144⟩
abbrev CwWord.repairUp : Fld := ⟨143, 80⟩
abbrev CwWord.baysUp : Fld := ⟨79, 64⟩
abbrev CwWord.trainSeq : Fld := ⟨63, 32⟩
abbrev CwWord.widthDown : Fld := ⟨31, 23⟩
abbrev CwWord.widthUp : Fld := ⟨22, 14⟩
abbrev CwWord.rsvd : Fld := ⟨13, 1⟩
abbrev CwWord.valid : Fld := ⟨0, 0⟩

/-- A word is VALID under R416. -/
def cwValid (w : Nat) : Bool :=
  bit w 0 && CwWord.rsvd.get w == 0
  && CwWord.widthDown.get w == 16 * setBits 16 (CwWord.baysDown.get w) && CwWord.widthUp.get w == 16 * setBits 16 (CwWord.baysUp.get w)
  && CwWord.repairedDown.get w &&& CwWord.baysDown.get w == CwWord.repairedDown.get w
  && CwWord.repairedUp.get w &&& CwWord.baysUp.get w == CwWord.repairedUp.get w

/-- The transitions that raise no event (R414). -/
def cwSilent (old new : Nat) : Bool :=
  (old == Cw.idle && new == Cw.training) || (old == Cw.training && new == Cw.exchange) || (old == Cw.up && new == Cw.sleep) || (old == Cw.sleep && new == Cw.exchange)

/-- CW_STATE changes; an entry into UP below the full width is reported as well (R414, R417). -/
def State.setCw (s : State) (d new : Nat) : State :=
  let old := s.cwState d
  let s := s.setCh (Ch.cwState + 256 * d) new
  let s := if cwSilent old new then s else s.raise ⟨0x0801, d, old + new * 16, 0, none, []⟩
  let w := (s.causeway d).wordBase
  if new = Cw.up ∧ (CwWord.widthDown.get w < 256 ∨ CwWord.widthUp.get w < 256) then
    s.raise ⟨0x0802, d, CwWord.widthDown.get w, CwWord.widthUp.get w, none, []⟩
  else s

/-- The words of a Causeway written; the BLOBs that show them change with them. -/
def State.setWords (s : State) (d base die : Nat) : State :=
  let c := s.causeway d
  let s := if c.wordBase = base then s else s.blobChanged (Ch.wordBase + 256 * d)
  let s := if c.wordDie = die then s else s.blobChanged (Ch.wordDie + 256 * d)
  s.modCauseway d (fun c => { c with wordBase := base, wordDie := die })

/-! ### Spans (R408 to R411, R418) -/

/-- A span whose kind is listed and whose check bits fit (R408). -/
def spanSound (sp : Span) : Bool := sp.kind.toNat ≤ 2 && sp.data.length == 1024 && crc32c (sp.kind :: sp.data) == sp.check.toNat

/-- A CONTROL span with a word. -/
def wordSpan (w : Nat) : Span :=
  let data := leBytes 32 w ++ List.replicate 992 0
  ⟨2, data, BitVec.ofNat 32 (crc32c (2 :: data))⟩

/-- The base die sends its word on every down bay it believes usable (R418), and keeps the span for a replay (R410); what was kept before is older than 64 clocks. -/
def State.sendWord (s : State) (d : Nat) : State :=
  let w := (s.causeway d).wordBase
  let sp := wordSpan w
  ((List.range 16).filter (bit (CwWord.baysDown.get w))).foldl (fun (s : State) b =>
    (s.modCauseway d (fun c => { c with sent := c.sent.put b [sp] })).out (.span d b sp)) s

/-- The words are compared: UP, or HOLD with both words reported (R418). -/
def State.compareWords (s : State) (d : Nat) : State :=
  let c := s.causeway d
  let s := s.modCauseway d (fun c => { c with resuming := false })
  if c.wordBase = c.wordDie ∧ cwValid c.wordBase then s.setCw d Cw.up
  else
    let a := CwWord.trainSeq.get c.wordBase + (if cwValid c.wordBase then 2 ^ 32 else 0) + (if cwValid c.wordDie then 2 ^ 33 else 0)
    (s.setCw d Cw.hold).raise ⟨0x0803, d, a, CwWord.trainSeq.get c.wordDie, none, []⟩

/-! ### Loss of a die (R420) -/

/-- Tasks that run on a die or move data to or from it: COMPUTE tasks and what they fill, feeds and deliveries, and every task whose executor is the die or its Quay. -/
def State.dieTasks (s : State) (d : Nat) : List TaskRef :=
  let direct := s.plan.runs.filter (fun r => (s.execKind r.ref.task == 1 || s.execKind r.ref.task == 2) && s.execIndex r.ref.task == d)
  let cs := s.computesOn d
  let fed := s.plan.runs.filter (fun r =>
    (s.tf r.ref.task TaskRec.taskKind == Tk.stow || s.tf r.ref.task TaskRec.taskKind == Tk.reduce) && !(s.tf r.ref.task TaskRec.taskKind == Tk.reduce && s.storedMode (s.tf r.ref.task TaskRec.stream))
    && cs.any (fun c => c.ref == ⟨r.ref.step, s.tf r.ref.task TaskRec.producer⟩))
  let served := s.skerry.consumers.filterMap (fun c => if c.die = d ∧ (c.ring.isSome ∨ c.drain) then (match c.source with | .task x => some x | _ => none) else none)
  (direct.map TaskRun.ref ++ fed.map TaskRun.ref ++ served).dedup

/-- The tags of commands that deliver into a die's Quay. -/
def State.dieCmds (s : State) (d : Nat) : List Nat :=
  (s.skerry.consumers.filterMap (fun (c : Consumer) => if c.die = d ∧ (c.ring.isSome ∨ c.drain) then (match c.source with | .cmd t => some t | _ => none) else none)).dedup

/-- Streams of a die that the loss ends. -/
def State.dieStreams (s : State) (d : Nat) : List Nat :=
  (List.range s.streamCount).filter (fun n => s.sf n StreamRec.die == d && (s.stateOf n == Ss.filling || s.stateOf n == Ss.held || s.stateOf n == Ss.serving))

/-- Steps 2 to 5 of R420, with the number of streams they end: rings and Quay lost, work ended, streams ABORTED, buoys LOST (R60, R174, R293). -/
def State.dieStruck (s : State) (d : Nat) : State × Nat :=
  let s := s.modCauseway d (fun c => { c with fails := [], discard := [], sent := [], resuming := false, gone := 0 })
  let tasks := s.dieTasks d
  let cmds := s.dieCmds d
  let s := (s.rings d).foldl (fun (s : State) r => s.closeRing d r) s
  let s := s.modQuay d (fun q => { q with drainWait := [], shown := [] })
  let s := cmds.foldl (fun (s : State) t => s.cmdStruck t St.dieLost) s
  let s := s.abortGroups tasks St.dieLost
  let lost := s.dieStreams d
  let s := lost.foldl (fun (s : State) n =>
    let xs := s.consumersInFlight n
    ((s.abortStream n).endFetches n St.dieLost).abortGroups xs St.dieLost) s
  let p := s.ownersLost (fun b => b.owner == 2 + d) 3 true false
  (p.1.abortGroups p.2 St.ownerLost, lost.length)

/-- The six steps of R420; `cause` 1 clocks absent, 2 LINK_FAILURE. -/
def State.dieGone (s : State) (d cause : Nat) : State :=
  let r := ((s.setCw d Cw.down).countSticky (Ch.lossCount + 256 * d)).dieStruck d
  (r.1.raise ⟨0x0804, d, cause, r.2, none, []⟩).recheckSlips

/-- DIE_LOST: a Causeway in STRAP_FAULT or TRAIN_FAULT whose die is reset again goes to RESET, and the die's rings, Quay and buoys are lost as at any reset of it; in RESET and in DOWN nothing is lost; what happens while the domain sleeps is found at its wake (R174, R293, R414, R420, R422). (log entry 35, DEDUCED.) -/
def execDieLost (d : Nat) (cause : LossCause) (s : State) : Host.Outcome State Fault Refusal :=
  let st := s.cwState d
  let code := match cause with | .clocksAbsent => 1 | .linkFailure => 2
  if 2 ≤ d ∨ st = 0 ∨ st = Cw.down then .next s
  else if st = Cw.sleep then .next (s.modCauseway d (fun c => { c with gone := code }))
  else if st = Cw.strapFault ∨ st = Cw.trainFault then .next (((s.setCw d 0).dieStruck d).1.recheckSlips)
  else .next (s.dieGone d code)

/-! ### Failing spans (R410, R411) -/

/-- A span that fails its check: the retry wire is pulled and the bay's later spans are discarded until the replay, and the seventh failure in a row is a link failure. -/
def State.spanFails (s : State) (d bay : Nat) : State :=
  let n := (s.causeway d).fails.getD bay 0 + 1
  let s := (s.modCauseway d (fun c => { c with fails := c.fails.put bay n, discard := if c.discard.contains bay then c.discard else c.discard ++ [bay] }))
  if n < 7 then (s.countSticky (Ch.replays + 256 * d)).out (.retryPulse d bay) else s.dieGone d 2

/-- A span that passes ends the discarding on its bay. -/
def State.spanPasses (s : State) (d bay : Nat) : State :=
  s.modCauseway d (fun c => { c with fails := c.fails.erase bay, discard := c.discard.filter (· != bay) })

/-- DATA_SPAN: a span on a trained up bay of a Causeway that is UP. What it carries is the HANDLE_PASS that follows. -/
def execDataSpan (d bay : Nat) (sp : Span) (s : State) : Host.Outcome State Fault Refusal :=
  if 2 ≤ d ∨ s.cwState d ≠ Cw.up ∨ !bit (CwWord.baysUp.get (s.causeway d).wordBase) bay ∨ 16 ≤ bay then .next s
  else if !spanSound sp then .next (s.spanFails d bay)
  else if sp.kind = 1 then .next (s.spanPasses d bay) else .next s

/-- CONTROL_SPAN: the first copy of the die's word that passes its check is compared with the base die's, in EXCHANGE and for a RESUME (R418, R419). -/
def execControlSpan (d bay : Nat) (sp : Span) (s : State) : Host.Outcome State Fault Refusal :=
  if 2 ≤ d ∨ 16 ≤ bay ∨ !(s.cwState d == Cw.exchange || (s.causeway d).resuming) then .next s
  else if !spanSound sp then .next (s.spanFails d bay)
  else if sp.kind ≠ 2 then .next s
  else
    let s := s.spanPasses d bay
    .next ((s.setWords d (s.causeway d).wordBase (leNat (sp.data.take 32))).compareWords d)

/-- RETRY_PULSE: the die asks for the spans of a down bay again (R410). -/
def execRetryPulse (d bay : Nat) (s : State) : Host.Outcome State Fault Refusal :=
  let kept := (s.causeway d).sent.getD bay []
  if 2 ≤ d ∨ 16 ≤ bay ∨ !(s.cwState d == Cw.up || s.cwState d == Cw.exchange || (s.causeway d).resuming) then .next s
  else .next (kept.foldl (fun (s : State) sp => s.out (.span d bay sp)) (s.countSticky (Ch.replays + 256 * d)))

/-! ### Training (R415) -/

/-- The wires of a bay in one direction: 64 of each of 17 strands, then clock, check and kind wires, which here make an 18th group (R421). -/
def bayWires : Nat := 1094
def wireCount : Nat := 2 * 16 * bayWires

/-- The wires that have failed: those whose widest error-free run is shorter than EYE_MIN positions (R415 steps 1 and 2). -/
def failingWires (r : TrainResult) (eyeMin : Nat) : List Nat :=
  ((r.eyes.filter (fun e => decide (e.1 < wireCount ∧ e.2 < eyeMin))).map Prod.fst).dedup

/-- The strands 0 to 16 of a bay that fail, and 17 where its clock, check or kind wires do; direction 0 is down. -/
def failedStrands (ws : List Nat) (dir bay : Nat) : List Nat :=
  ((ws.filter (fun i => i / bayWires == 16 * dir + bay)).map (fun i => i % bayWires / 64)).dedup

/-- What a bay is good for: nothing, or use, with the strand that its spare replaces (R415 step 3). -/
def bayUse (strands : List Nat) : Option (Option Nat) :=
  if strands.contains 17 then none
  else match strands.filter (· < 16) with
    | [] => some none
    | [k] => if strands.contains 16 then none else some (some k)
    | _ => none

/-- BAYS, REPAIRED and REPAIR of one direction (R416). -/
def dirMasks (ws : List Nat) (dir : Nat) : Nat × Nat × Nat :=
  (List.range 16).foldl (fun (m : Nat × Nat × Nat) b =>
    match bayUse (failedStrands ws dir b) with
    | none => m
    | some none => (m.1 + 2 ^ b, m.2)
    | some (some k) => (m.1 + 2 ^ b, m.2.1 + 2 ^ b, m.2.2 + k * 16 ^ b)) (0, 0, 0)

/-- The word of a training (R415 steps 3 to 5, R416). -/
def trainedWord (ws : List Nat) (seq : Nat) : Nat :=
  let down := dirMasks ws 0
  let up := dirMasks ws 1
  [(CwWord.repairedDown, down.2.1), (CwWord.repairDown, down.2.2), (CwWord.baysDown, down.1), (CwWord.repairedUp, up.2.1),
   (CwWord.repairUp, up.2.2), (CwWord.baysUp, up.1), (CwWord.trainSeq, seq), (CwWord.widthDown, 16 * setBits 16 down.1),
   (CwWord.widthUp, 16 * setBits 16 up.1), (CwWord.valid, 1)].foldl (fun v p => p.1.set v p.2) 0

/-- TRAIN: both stored words are discarded, their sequence numbers kept. -/
def execTrain (d : Nat) (r : Req) (s : State) : Host.Outcome State Fault Refusal :=
  if !actionIs r actF 1 ∨ 2 ≤ d then .next s else
  let st := s.cwState d
  let kept := fun (w old : Nat) => if w = 0 then old else CwWord.trainSeq.get w
  let effect := fun (s : State) =>
    let s := s.modCauseway d (fun c => { c with seqKept := kept c.wordBase c.seqKept, dieSeqKept := kept c.wordDie c.dieSeqKept, resuming := false, sent := [], fails := [], discard := [] })
    (((s.setWords d 0 0).count (Ch.trainCount + 256 * d) 32).setCw d Cw.training).wake
  .next (s.chartDo (0xC010 + d) 2 r
    { range := onlyBits r.value [actF]
      state := st == Cw.idle || st == Cw.hold || st == Cw.trainFault
      params := true
      effect := effect })

/-- TRAINING_COMPLETE: EXCHANGE with the width both directions need, otherwise TRAIN_FAULT. -/
def execTrainingComplete (d : Nat) (res : TrainResult) (s : State) : Host.Outcome State Fault Refusal :=
  if 2 ≤ d ∨ s.cwState d ≠ Cw.training then .next s else
  let c := s.causeway d
  let ws := failingWires res (s.ch Ch.eyeMin)
  let failed := ws.foldl (fun v i => v + 2 ^ i) 0
  let s := if c.failed = failed then s else (s.modCauseway d (fun c => { c with failed := failed })).blobChanged (Ch.failedWires + 256 * d)
  let w := trainedWord ws ((max c.seqKept c.dieSeqKept + 1) % 2 ^ 32)
  let least := s.ch Ch.cwMinWidth
  if res.timedOut ∨ CwWord.widthDown.get w < least ∨ CwWord.widthUp.get w < least then .next (s.setCw d Cw.trainFault)
  else .next (((s.setWords d w 0).setCw d Cw.exchange).sendWord d)

/-- RESUME: the exchange on the stored words, without training (R419). -/
def execCwResume (d : Nat) (r : Req) (s : State) : Host.Outcome State Fault Refusal :=
  if !actionIs r actF 2 ∨ 2 ≤ d then .next s else
  let st := s.cwState d
  .next (s.chartDo (0xC010 + d) 2 r
    { range := onlyBits r.value [actF]
      state := st == Cw.idle || st == Cw.hold
      params := true
      effect := fun s => ((s.modCauseway d (fun c => { c with resuming := true, sent := [] })).sendWord d).wake })

/-- A work item or a delivery names the die (R414, R422). -/
def State.dieNamed (s : State) (d : Nat) : Bool := !(s.dieTasks d).isEmpty || !(s.dieCmds d).isEmpty

/-- RELEASE: UP to IDLE, with no ring of the die enabled and no work item naming it. -/
def execCwRelease (d : Nat) (r : Req) (s : State) : Host.Outcome State Fault Refusal :=
  if !actionIs r actF 3 ∨ 2 ≤ d then .next s else
  .next (s.chartDo (0xC010 + d) 2 r
    { range := onlyBits r.value [actF]
      state := s.cwState d == Cw.up && (s.rings d).isEmpty && !s.dieNamed d
      params := true
      effect := fun s => s.setCw d Cw.idle })

/-! ### Straps (R412, R413) -/

/-- An up strap word that passes every check of R413. -/
def strapOk (w : Nat) : Bool :=
  let f := w % 2 ^ 16
  w == f * (1 + 2 ^ 16 + 2 ^ 32 + 2 ^ 48) && f / 2 ^ 12 == 0 && f / 256 % 16 == 3 && f % 16 == 1

/-- STRAP_WORD: eight identical samples of the up strap word. -/
def execStrapWord (d : Nat) (word : BitVec 64) (s : State) : Host.Outcome State Fault Refusal :=
  if 2 ≤ d ∨ !(s.cwState d == 0 || s.cwState d == Cw.down) then .next s
  else if strapOk word.toNat then .next ((s.setCh (Ch.strapUp + 256 * d) word.toNat).setCw d Cw.idle)
  else .next (s.setCw d Cw.strapFault)

/-- STRAP_TIMEOUT: no word accepted 100 µs after the up clock wires start toggling. -/
def execStrapTimeout (d : Nat) (s : State) : Host.Outcome State Fault Refusal :=
  if 2 ≤ d ∨ !(s.cwState d == 0 || s.cwState d == Cw.down) then .next s else .next (s.setCw d Cw.strapFault)

end Sys2Proof.Machine
end

