-- ==== Sys2Proof/Machine/Lighthouse.lean ====
section
/-! DEFINITION. The Lighthouse (15_lighthouse.md): sleep and wake, fast and full reset, the microcode image, supply warnings. -/

namespace Sys2Proof.Machine

/-! ### Idle, sleep and wake (R426 to R431) -/

/-- A plan task that is dispatched and not DONE, or could be dispatched now. -/
def State.taskBusy (s : State) : Bool :=
  !s.plan.runs.isEmpty
  || s.inOrder.any (fun x => s.taskState x == Ts.pending && s.atHead x && (s.arrival x).isSome && s.edgesMet x && s.versionReady x && s.tileReady x)

/-- A command that holds the Pilot awake: one not waiting for a buoy, nor a FENCE behind such waiters only. -/
def State.cmdBusy (s : State) : Bool :=
  let onBuoy := fun (d : Dispatched) => cmdGet d.word Cmd.opcode == Op.wait && d.stage == .waiting
  let fence := fun (d : Dispatched) => cmdGet d.word Cmd.opcode == Op.fence
  s.dispatched.any (fun d => d.stage != .resetEnded && !onBuoy d
    && !(fence d && !(s.fenced d).isEmpty && (s.fenced d).all (fun e => onBuoy e || fence e)))

/-- What holds a fast domain awake (R426). -/
def State.domainBusy (s : State) (dom : Nat) : Bool :=
  let training := (List.range 2).any (fun d => s.cwState d == Cw.training)
  bit (s.ch Ch.holdAwake) dom ||
  (if dom = 0 then
    training || s.cmdBusy || s.taskBusy || !s.ferry.items.isEmpty
    || s.openQueues.any (fun q => s.queueState q == Qs.enabled && s.q q QueueDesc.sqHead != s.q q QueueDesc.sqTail)
    || s.heldAccesses.any (fun x => match x with | .windowLoad _ _ => true | .windowStore _ _ => true | _ => false)
    || s.ports.any (fun e => !e.2.transfers.isEmpty || e.2.admitting != 0)
    || s.cascade.peers.any (fun e => !e.2.unacked.isEmpty)
  else if dom = 1 then
    !s.skerry.ingest.isEmpty || !s.skerry.blocks.isEmpty || !s.skerry.queue.isEmpty || s.engines.any (fun e => e.2.run.isSome)
    || s.quays.any (fun q => !q.drainWait.isEmpty)
  else
    training || (List.range 2).any (fun d => s.cwState d == Cw.exchange || (s.causeway d).resuming || (s.rings d).any (fun r => !(List.range (s.stages d r)).all (fun i => s.idx d r i == s.idx d r 0))))

/-- The order to sleep goes to a module in a CONTROL frame; the spec names no code for it, so its request word is a free value (log entry 68, DESIGN CHOICE). -/
def State.orderSleep (s : State) (p : Nat) : State :=
  let w := (Config.freeWord s.freeCount).toNat
  let bytes := leBytes 4 w ++ List.replicate 252 0
  (s.drew 1).sendLink p 5 0 0 0 0 bytes (crc32c bytes)

/-- SLEEP_ENTRY: an idle domain goes through its steps of R427. -/
def execSleepEntry (dom : Nat) (s : State) : Host.Outcome State Fault Refusal :=
  if 3 ≤ dom ∨ !s.awake dom ∨ s.domainBusy dom ∨ s.wakePending then .next s else
  let s := if dom = 0 then
      let s := s.flushWindow.writeBandRecords
      ((List.range 16).filter (fun p => s.modState p == Ms.admitted)).foldl State.orderSleep s
    else if dom = 1 then { s with engines := s.engines.map (fun e => (e.1, { e.2 with held := [] })) }
    else (List.range 2).foldl (fun (s : State) d => if s.cwState d = Cw.up then s.setCw d Cw.sleep else s) s
  .next (s.setCh Ch.powerState (s.ch Ch.powerState - 2 ^ dom))

/-- What waited for the fast domains goes on (R353). -/
def State.serveHeld (s : State) : State :=
  let held := s.heldAccesses
  let isWindow := fun (x : Access) => match x with | .windowLoad _ _ => true | .windowStore _ _ => true | _ => false
  let s : State := { s with heldAccesses := held.filter (fun x => !isWindow x) }
  (held.filter isWindow).foldl (fun (s : State) x => match x with
    | .windowLoad a n => s.windowLoadNow a n
    | .windowStore a d => s.windowStoreNow a d
    | _ => s) s

/-- The links of the admitted modules resume (R430, R434). -/
def State.wakeModules (s : State) : State :=
  ((List.range 16).filter (fun p => s.modState p == Ms.admitted)).foldl (fun (s : State) p => s.askModule p Sb.wake 0) s

/-- FAST_DOMAIN_WAKE: the three domains wake together; held events go to the ring before any other, and the sleeping Causeways run their exchange (R430, R431). LAST_WAKE_NS is a time and so a free value. (log entry 32, DESIGN CHOICE.) -/
def execFastDomainWake (s : State) : Host.Outcome State Fault Refusal :=
  if !s.wakePending ∨ s.ch Ch.powerState = 7 then .next s else
  let s : State := { s with wakePending := false }
  let ns := (Config.freeWord s.freeCount).toNat
  let s := (((s.drew 1).setCh Ch.powerState 7).count Ch.wakeCount 32).setCh Ch.lastWakeNs ns
  let s := s.flushHeld
  let s := (List.range 2).foldl (fun (s : State) d => if s.cwState d ≠ Cw.sleep then s
    else if (s.causeway d).gone = 0 then (s.setCw d Cw.exchange).sendWord d else s.dieGone d (s.causeway d).gone) s
  .next s.wakeModules.serveHeld

/-- HOLD_AWAKE: a bit set for a domain that sleeps wakes all three (R428). -/
def execHoldAwake (r : Req) (s : State) : Host.Outcome State Fault Refusal :=
  .next (s.chartDo 0xB000 3 r
    { range := decide (r.value < 8)
      state := true
      params := true
      effect := fun s =>
        let s := s.setCh Ch.holdAwake r.value
        if (List.range 3).any (fun d => bit r.value d && !s.awake d) then s.wake else s })

/-! ### Fast reset (R433, R434) -/

/-- A fast reset takes a supply warning with it: the rail whose sample caused it reports the end (R440). The sample below the reset level is not among the command's operands, so the minimum is a free value below that level. (log entry 30, DESIGN CHOICE.) -/
def State.railEnds (s : State) (r : Nat) : State :=
  let rail := s.rails.getD r Rail.reset
  if !rail.active then s else
  let low := (Config.freeWord s.freeCount).toNat % s.ch (Ch.resetMv + 256 * r)
  let s := (s.drew 1).raise ⟨0x0902, r, s.clock.cycles - rail.since, low + 2 ^ 16, none, []⟩
  let s : State := { s with rails := updateAt s.rails r (fun _ => Rail.reset) }
  s.setCh (Ch.warnActive + 256 * r) 0

/-- Step 6 for one buoy: waiting commands are gone, remote requests are answered OWNER_LOST; counts, rounds and entries stay, and nobody is answered for them. Where the plan that owns the buoy has `stopped`, the remote requests are its owner's loss, which an event reports (R293, R294; log entry 69, DEDUCED). -/
def State.resetBuoyWaits (s : State) (stopped : Bool) (k : Nat) : State :=
  match s.buoys.find k with
  | none => s
  | some b =>
    let remote := fun (w : Waiter) => match w.who with | .remote _ _ => true | _ => false
    let ended := fun (w : Waiter) => match w.who with | .task _ => w | _ => { w with who := .gone }
    let gone := b.waiters.filter remote ++ b.entries.filter remote ++ b.parked.filter remote
    let s := s.setBuoy k { b with waiters := (b.waiters.map ended).filter (fun w => w.who != Who.gone), entries := b.entries.map ended, parked := b.parked.map ended }
    let s := if gone.isEmpty then s else s.countSticky Ch.ownerLostReleases gone.length
    let s := if gone.isEmpty ∨ !stopped ∨ b.owner ≠ Bo.plan then s else s.raise ⟨0x0502, k, b.name + 4 * 2 ^ 32, gone.length, some b.context, []⟩
    s.releaseAll gone St.ownerLost 0

/-- Step 3: a RUNNING plan stops; its running tasks are ABORTED, the others NOT_RUN, and one event says so. -/
def State.resetPlan (s : State) : State :=
  let s := match s.plan.next with | some (t, _) => s.giveTablesOf t | none => s
  let s : State := { s with plan := { s.plan with next := none, validating := none } }
  let s := s.setCh Ch.replacePending 0
  let s := if s.ch Ch.planState = Pl.loading then s.setCh Ch.planState Pl.empty else s
  if s.ch Ch.planState ≠ Pl.running then s else
  let ran := s.inOrder.filter (fun x => s.taskState x == Ts.running)
  let s := ran.foldl State.abortTask s
  let s := (s.inOrder.filter (fun x => s.taskState x == Ts.pending)).foldl (fun (s : State) x => (s.leaveEdges x).setTask x Ts.notRun) s
  let s : State := { s with plan := { s.plan with stopping := true, runs := [], arrived := [], lateSeen := [], waitSeen := [] } }
  let s := s.setCh Ch.planState Pl.stopped
  let first := (ran.map TaskRef.task).head?
  s.raise ⟨0x0A03, first.getD noRef, (match first with | some t => s.tf t TaskRec.taskGroup | none => 0), St.groupAborted + s.planHdr PlanHdr.abortScope * 256, none, []⟩

/-- The first passes of a stream end with the Skerry's registers; their commands have ended in step 1. -/
def State.resetPasses (s : State) (n : Nat) : State :=
  (s.dropPass n).dropPass n

/-- Step 4: streams that were FILLING become ABORTED; a SERVING stream has no fetch left; one that lay in a Quay has lost its tiles (log entry 70, DEDUCED). -/
def State.resetStream (s : State) (n : Nat) : State :=
  let s := s.resetPasses n
  if s.stateOf n = Ss.filling then s.abortStream n
  else if (s.stateOf n = Ss.held ∨ s.stateOf n = Ss.serving) ∧ s.residence n = Rs.quay then s.faultStream n St.groupAborted
  else if s.stateOf n = Ss.serving then ((s.modAux n (fun a => { a with fetches := 0 })).setSf n StreamRec.state Ss.held).settleStream n
  else s

/-- Step 5: a channel that is not DISABLED is IDLE, its sticky flags as they were. -/
def State.resetChannel (s : State) (c : Nat) : State :=
  if s.chf c ChanRec.state = Cn.disabled then s
  else s.setFlds (s.chan c) [(ChanRec.state, Cn.idle), (ChanRec.credits, 0), (ChanRec.shadowValid, 0)]

/-- Step 7: the rings close and a Causeway holds its words for a RESUME. -/
def State.resetCauseway (s : State) (d : Nat) : State :=
  let s := (s.rings d).foldl (fun (s : State) r => s.closeRing d r) s
  let s := s.modCauseway d (fun c => { c with fails := [], discard := [], sent := [], resuming := false })
  let st := s.cwState d
  let gone := (s.causeway d).gone
  if gone ≠ 0 then (s.setCw d Cw.hold).dieGone d gone
  else if st = Cw.up ∨ st = Cw.sleep ∨ st = Cw.exchange then s.setCw d Cw.hold
  else if st = Cw.training then s.setCw d Cw.trainFault else s

/-- The fast domains' own registers, queues, caches and buffers (R433). -/
def State.clearFast (s : State) : State :=
  let lanes := (SMap.keys s.ferry.lanes)
  let s := (s.skerry.consumers).foldl State.dropConsumer s
  let s := lanes.foldl State.idleLane s
  let s := (List.range 40).foldl (fun (s : State) e => if s.ch (Ch.engineState + 256 * e) = 1 then s.setCh (Ch.engineState + 256 * e) 0 else s) s
  let s : State := { s with ferry := { s.ferry with items := [], lanes := [], requests := [], slotWait := [] } }
  let s : State := { s with skerry := { s.skerry with ingest := [], blocks := [], queue := [], consumers := [], slotWait := [] } }
  let s := s.setGens (s.skerry.gens.map (fun (g : GenSlot) => if g.state = 1 then GenSlot.reset else g))
  let s : State := { s with engines := [], window := [], cqWaiting := [], cascade := { s.cascade with ops := [] } }
  let s : State := { s with shards := s.shards.map (fun e => (e.1, { e.2 with pins := [], waited := [] })) }
  { s with ports := s.ports.map (fun e => (e.1, { e.2 with transfers := [], unacked := [], waiting := [], replays := 0 })) }

/-- A set whose work the reset ends: TAKING breaks, RESTORING is COMPLETE again (R363, R443). -/
def State.resetSet (s : State) (k : Nat) : State :=
  let st := s.stf k SetRec.state
  if st = Sst.taking then (s.modSet k (fun a => { a with cmd := none })).breakSet k 0 St.groupAborted
  else if st = Sst.restoring then s.setStf k SetRec.state Sst.complete else s

/-- The retained image passes its digest check again (R434, R438). -/
def State.imageSound (s : State) : Bool := !s.microcode.image.isEmpty && sha256 s.microcode.image == s.microcode.digest

abbrev McHdr.entry : Fld := ⟨127, 96⟩
abbrev McHdr.imageBytes : Fld := ⟨95, 64⟩
abbrev McHdr.steppingMax : Fld := ⟨63, 56⟩
abbrev McHdr.steppingMin : Fld := ⟨55, 48⟩
abbrev McHdr.formatGen : Fld := ⟨39, 32⟩
abbrev McHdr.magic : Fld := ⟨31, 0⟩

/-- The Pilot starts at the ENTRY of the retained image. -/
def State.startPilot (s : State) : State := s.out (.pilotStart (McHdr.entry.get (leNat (s.microcode.image.take 64))))

/-- MC_STATE after a fast reset (R438, R443): the image is checked again, and an abandoned LOAD leaves the retained image in force. -/
def State.resetImage (s : State) : State :=
  let was := s.ch Ch.mcState
  let s : State := { s with microcode := { s.microcode with loading := none } }
  if was = 0 ∨ (was = 1 ∧ s.microcode.image.isEmpty) then s.setCh Ch.mcState 0
  else if was = 3 then s
  else if s.imageSound then (s.setCh Ch.mcState 2).startPilot
  else (s.setCh Ch.mcState 3).raise ⟨0x0B02, noRef, 1, s.ch Ch.mcBytes, none, []⟩

/-- Step 2: the records of the copied commands, GROUP_ABORTED; while the Pilot is halted they wait (R438). -/
def State.endAllCommands (s : State) : State := s.dispatched.foldl (fun (s : State) d => (s.drew 2).complete d St.groupAborted s.freeDetail) s

/-- A fast reset with its LAST_RESET code (R434). (log entry 34, DEDUCED.) -/
def State.fastReset (s : State) (code : Nat) : State :=
  let s := ({ s with wakePending := false } : State).setCh Ch.powerState 7
  let s := s.flushHeld
  let s := s.resetImage
  let s := (SMap.keys s.sets).foldl State.resetSet s
  let s := if s.pilotRuns then s.endAllCommands else { s with dispatched := s.dispatched.map (fun d => { d with stage := .resetEnded }) }
  let ran := s.ch Ch.planState == Pl.running
  let s := s.resetPlan
  let s := s.clearFast
  let s := (List.range s.streamCount).foldl State.resetStream s
  let s := (List.range (s.ch Ch.chtableCount)).foldl State.resetChannel s
  let s := (SMap.keys s.buoys).foldl (fun (s : State) k => s.resetBuoyWaits ran k) s
  let s := (List.range 2).foldl State.resetCauseway s
  let s : State := { s with quays := [Quay.reset, Quay.reset] }
  let s := s.wakeModules.serveHeld.closeRegions
  let s := (s.setCh Ch.lastReset code).countSticky Ch.fastResets
  s.raise ⟨0x0903, noRef, code, s.ch Ch.fastResets, none, []⟩

abbrev resetAct : Req → ChAct := fun r => { range := onlyBits r.value [actF], state := true, params := true, effect := fun s => s }

/-- The write of RESET_CONTROL is accepted (R483). -/
def State.resetAccepted (s : State) (r : Req) : Bool := !s.slotBusy r.path && s.writeStatus 0xB010 1 r (resetAct r) == Cs.ok

/-- A rail is monitored: its domain is awake, or it is a standby rail (R439). -/
def State.monitored (s : State) (r : Nat) : Bool := decide (r < 2) || (decide (r < 5) && s.awake (r - 2))

/-- FAST_RESET: by RESET_CONTROL, answered first; by a fast rail below its reset level; by a PLL that loses lock. -/
def execFastReset (cause : FastCause) (s : State) : Host.Outcome State Fault Refusal :=
  match cause with
  | .control r =>
    if !actionIs r actF 1 then .next s else
    let t := s.chartDo 0xB010 1 r (resetAct r)
    .next (if s.resetAccepted r then t.fastReset 1 else t)
  | .rail r => if r < 2 ∨ !s.monitored r then .next s else .next ((s.railEnds r).fastReset 3)
  | .pllUnlock => if s.asleep then .next s else .next (s.fastReset 5)

/-- A full reset with its LAST_RESET code: every field as after reset, but for memory, what lies in the modules, what the block has driven, the commands that wait, and the count of free values (R25, R433; log entry 5, DEDUCED). TIME goes on unless the standby supply rose (R472). -/
def State.fullReset (s : State) (code : Nat) : State :=
  let cycles := if code = 0 then 0 else s.clock.cycles
  let module := fun (q : Port) => ({ Port.fresh with ownerTag := q.ownerTag, setRecord := q.setRecord, metaBands := q.metaBands, media := q.media, counts := q.counts, badSectors := q.badSectors, poisoned := q.poisoned, factory := q.factory } : Port)
  let t := State.reset
  let kept : State := { t with pending := s.pending, mem := s.mem, checkWords := s.checkWords, outbox := s.outbox, freeCount := s.freeCount, ports := s.ports.map (fun e => (e.1, module e.2)), clock := ⟨cycles, 0, 0⟩, events := ⟨2, [[resetRecord code 0 cycles]]⟩, chart := SMap.put t.chart Ch.lastReset code }
  kept.store mailboxBase (List.replicate 4096 0)

/-- FULL_RESET: by the standby supply rising, a standby rail below its level, the lost reference, or RESET_CONTROL, answered first. -/
def execFullReset (cause : FullCause) (s : State) : Host.Outcome State Fault Refusal :=
  match cause with
  | .standbyRising => .next (s.fullReset 0)
  | .control r =>
    if !actionIs r actF 2 then .next s else
    let t := s.chartDo 0xB010 1 r (resetAct r)
    .next (if s.resetAccepted r then t.fullReset 2 else t)
  | .rail r => if 2 ≤ r then .next s else .next (s.fullReset 4)
  | .refclkLost => .next (s.fullReset 6)

/-! ### The microcode image (R435 to R438) -/

/-- Charov is busy in the sense of R437. -/
def State.busy437 (s : State) : Bool := s.planLoaded || !s.dispatched.isEmpty || !s.ferry.items.isEmpty

/-- MC_CONTROL LOAD (R436, R437). (log entry 33, DEDUCED.) -/
def execMcLoad (r : Req) (s : State) : Host.Outcome State Fault Refusal :=
  if !actionIs r actF 1 then .next s else
  let src := s.ch Ch.mcSrc
  let n := s.ch Ch.mcBytes
  let want := s.ch Ch.mcDigest
  let same := want == s.ch Ch.mcRunningDigest
  let at_once := same && s.ch Ch.mcState == 2
  let effect := fun (s : State) =>
    if at_once then s.wake else
    (({ s with microcode := { s.microcode with loading := some (src, n, want) } } : State).setCh Ch.mcState 1).wake
  .next (s.chartDo 0xB020 4 r
    { range := onlyBits r.value [actF]
      state := s.ch Ch.mcState != 1 && (same || !s.busy437)
      params := at_once || (src % 64 == 0 && decide (64 ≤ n ∧ n ≤ 1048576) && n % 64 == 0)
      effect := effect })

/-- The header of an image of `n` bytes passes its checks (R435). -/
def State.imageHeaderOk (s : State) (h n : Nat) : Bool :=
  McHdr.magic.get h == 0x544F4C50 && McHdr.formatGen.get h == s.ch Ch.genActive && McHdr.imageBytes.get h == n
  && decide (McHdr.entry.get h < n ∧ McHdr.steppingMin.get h ≤ 0xB0 ∧ 0xB0 ≤ McHdr.steppingMax.get h)
  && Fld.get ⟨47, 40⟩ h == 0 && Fld.get ⟨511, 128⟩ h == 0

/-- An image is refused: its event says why (R26, R436, R484). -/
def State.imageRejected (s : State) (why : Nat) : State :=
  (({ s with microcode := { s.microcode with loading := none } } : State).setCh Ch.mcState 3).raise ⟨0x0B02, noRef, why, s.ch Ch.mcBytes, none, []⟩

/-- MC_LOAD_COMPLETE: the image has been read; it is checked, and replaces the retained one or is REJECTED. -/
def execMcLoadComplete (m : MemResult) (s : State) : Host.Outcome State Fault Refusal :=
  match s.microcode.loading with
  | none => .next s
  | some (src, n, want) =>
    if s.asleep then .next s else
    if m ≠ .ok then .next ((s.raise ⟨0x0402, noRef, evAddr m.addr m.status, 0, none, []⟩).imageRejected 4) else
    if (s.failing src n).isSome then .next ((s.readFault src n none).imageRejected 4) else
    let image := s.rd src n
    let digest := sha256 image
    let badDigest := leNat digest != want
    let badHeader := !s.imageHeaderOk (leNat (image.take 64)) n
    if badDigest || badHeader then .next (s.imageRejected ((if badDigest then 1 else 0) + (if badHeader then 2 else 0)))
    else
      let s := (({ s with microcode := ⟨image, digest, none⟩ } : State).setBlob Ch.mcRunningDigest want).setCh Ch.mcState 2
      .next ((s.dispatched.filter (fun d => d.stage == .resetEnded)).foldl (fun (s : State) d => (s.drew 2).complete d St.groupAborted s.freeDetail) s).startPilot

/-! ### Supply monitors (R439 to R441) -/

/-- A sample of a rail is noted. -/
def State.sampled (s : State) (r mv : Nat) : State :=
  let s := s.setCh (Ch.vNow + 256 * r) mv
  match s.chart.find (Ch.vMin + 256 * r) with
  | some v => if mv < v then s.setCh (Ch.vMin + 256 * r) mv else s
  | none => s.setCh (Ch.vMin + 256 * r) mv

def State.bandInterrupt (s : State) : State := if s.ch Ch.ibiEnable = 1 then s.out .inBandInterrupt else s

/-- SUPPLY_WARNING: the first sample below WARN_MV; with SAVE the window and the band records are written. -/
def execSupplyWarning (rail : Nat) (mv : Nat) (s : State) : Host.Outcome State Fault Refusal :=
  if 5 ≤ rail ∨ !s.monitored rail ∨ (s.rails.getD rail Rail.reset).active ∨ s.ch (Ch.warnMv + 256 * rail) ≤ mv then .next s else
  let action := s.ch (Ch.warnAction + 256 * rail)
  let s : State := { s with rails := updateAt s.rails rail (fun _ => ⟨true, mv, s.clock.cycles⟩) }
  let s := ((s.sampled rail mv).setCh (Ch.warnActive + 256 * rail) 1).countSticky (Ch.warnCount + 256 * rail)
  let s := (s.raise ⟨0x0901, rail, mv, action, none, []⟩).bandInterrupt
  .next (if action = 3 then (if s.awake 0 then s.flushWindow else s).writeBandRecords else s)

/-- The samples after the first end the warning at their last, and at no earlier one. -/
def clearsAt (level : Nat) : Nat → List Nat → Bool
  | _, [] => false
  | run, v :: vs => let run := if level ≤ v then run + 1 else 0
    if run = 13 then vs.isEmpty else clearsAt level run vs

/-- The last place, counted from 1, of a sample below a level; 0 where none is. -/
def lastBelow (level : Nat) (vs : List Nat) : Nat :=
  ((List.range vs.length).filter (fun i => decide (nth vs i 0 < level))).foldl (fun _ i => i + 1) 0

/-- WARNING_CLEARED: 13 samples in a row at or above WARN_MV + 10; the event gives the minimum and the duration. `samples` are those after the first below WARN_MV. -/
def execWarningCleared (rail : Nat) (samples : List Nat) (s : State) : Host.Outcome State Fault Refusal :=
  let w := s.ch (Ch.warnMv + 256 * rail)
  let q := s.rails.getD rail Rail.reset
  if 5 ≤ rail ∨ !q.active ∨ !clearsAt (w + 10) 0 samples then .next s else
  let low := samples.foldl min q.low
  let s := samples.foldl (fun (s : State) v => s.sampled rail v) s
  let s : State := { s with rails := updateAt s.rails rail (fun _ => Rail.reset) }
  .next ((s.setCh (Ch.warnActive + 256 * rail) 0).raise ⟨0x0902, rail, lastBelow w samples, low, none, []⟩).bandInterrupt

end Sys2Proof.Machine
end

