-- ==== Sys2Proof/Machine/Contexts.lean ====
section
/-! DEFINITION. Contexts: CREATE, TEARDOWN, PREEMPT, RESUME, the end of a teardown, and the two keys (R465 to R467). -/

namespace Sys2Proof.Machine

abbrev CtxCtl.context : Fld := ⟨43, 32⟩

def State.modContext (s : State) (c : Nat) (f : Context → Context) : State := { s with contexts := s.contexts.put c (f (s.contexts.getD c ⟨0, 0, 0, 0⟩)) }

/-! ### A dispatched command that ends from outside -/

/-- What a dispatched command has under way is given up: its deliveries, engine and work item, its first pass, its wait for a generation slot or a buoy, its set, the plan it was loading. (log entry 37, DEDUCED.) -/
def State.giveUpCmd (s : State) (d : Dispatched) (status : Nat) : State :=
  let isIt := fun (w : Waiter) => w.who == Who.cmd d.tag
  let s := s.endWork (.cmd d.tag) status
  let s : State := { s with streams := s.streams.map (fun e => if (e.2.armed.bind FirstPass.cmd) == some d.tag then (e.1, { e.2 with armed := none }) else e) }
  let s := (s.streams.filter (fun e => (e.2.pass.bind FirstPass.cmd) == some d.tag)).foldl (fun (s : State) (e : Nat × StreamAux) => s.dropPass e.1) s
  let s : State := { s with skerry := { s.skerry with slotWait := s.skerry.slotWait.filter (fun w => !(w == SlotWaiter.cmd d.tag)) } }
  let s := (s.sets.filter (fun e => e.2.cmd == some d.tag)).foldl (fun (s : State) (e : Nat × SetAux) =>
    let s := s.modSet e.1 (fun a => { a with cmd := none })
    if s.stf e.1 SetRec.state = Sst.restoring then s.setStf e.1 SetRec.state Sst.complete else s.breakSet e.1 0 St.contextTorn) s
  let s := match s.plan.validating with
    | some v => if v.tag = d.tag then
        let s : State := { s with plan := { s.plan with validating := none } }
        if v.replace then s.setCh Ch.replacePending 0 else s.setCh Ch.planState Pl.empty
      else s
    | none => s
  let s : State := { s with cascade := { s.cascade with ops := s.cascade.ops.filter (fun o => !(o.who == Who.cmd d.tag)) } }
  (s.buoys.filter (fun e => e.2.waiters.any isIt || e.2.entries.any isIt || e.2.parked.any isIt)).foldl (fun (s : State) (e : Nat × Buoy) =>
    (s.setBuoy e.1 { e.2 with waiters := e.2.waiters.filter (fun w => !isIt w), entries := e.2.entries.filter (fun w => !isIt w), parked := e.2.parked.filter (fun w => !isIt w) }).serve e.1) s

/-- A dispatched command is ended from outside; `ev` is the event that reports it, 0 for none. -/
def State.cancelCmd (s : State) (d : Dispatched) (status ev : Nat) : State := (s.giveUpCmd d status).endWith d status ev

/-! ### CTX_CONTROL (R466) -/

def ctxDo (action : Nat) (state : State → Nat → Bool) (effect : Nat → State → State) (r : Req) (s : State) : State :=
  let c := CtxCtl.context.get r.value
  s.chartDo 0x1200 2 r { range := onlyBits r.value [CtxCtl.context, ⟨3, 0⟩] && actionIs r actF action, state := state s c, params := true, effect := effect c }

/-- CREATE: FREE becomes ACTIVE with no key. -/
def execCreate (r : Req) (s : State) : Host.Outcome State Fault Refusal :=
  if !actionIs r actF 1 then .next s
  else .next (ctxDo 1 (fun s c => s.contextState c == 0) (fun c s => s.modContext c (fun _ => ⟨1, 0, 0, 0⟩)) r s)

/-- The queues of a context are disabled with ERROR_CAUSE 6 and their dispatched commands end CONTEXT_TORN (R116). -/
def State.tearQueues (s : State) (c : Nat) : State :=
  (s.openQueues.filter (fun q => s.q q QueueDesc.context == c)).foldl (fun (s : State) q =>
    let s := s.setQ q QueueDesc.errorCause 6
    let s := if s.queueState q = Qs.draining then s else s.setQ q QueueDesc.state Qs.draining
    let s := (s.outstanding q).foldl (fun (s : State) d => s.cancelCmd d St.contextTorn 0) s
    s.drainQueue q) s

/-- The channels of a context end their work CONTEXT_TORN; each is DISABLED once its issued requests have drained. -/
def State.tearChannels (s : State) (c : Nat) : State :=
  ((List.range (s.ch Ch.chtableCount)).filter (fun k => s.chf k ChanRec.state != Cn.disabled && s.chf k ChanRec.context == c)).foldl (fun (s : State) k =>
    let s := s.clearChannel k St.contextTorn St.contextTorn
    if (s.itemsOf k).isEmpty then s.setChf k ChanRec.state Cn.disabled else s) s

/-- The streams of a context that hold data become ABORTED (R60); fetches of them end CONTEXT_TORN. -/
def State.tearStreams (s : State) (c : Nat) : State :=
  ((List.range s.streamCount).filter (fun n => s.sf n StreamRec.context == c)).foldl (fun (s : State) n =>
    let xs := if s.stateOf n = Ss.filling ∨ s.stateOf n = Ss.held ∨ s.stateOf n = Ss.serving then s.consumersInFlight n else []
    ((s.abortStream n).endFetches n St.contextTorn).abortGroups xs St.contextTorn) s

/-- The registered regions of a context are disabled under R383. -/
def State.tearRegions (s : State) (c : Nat) : State :=
  ((List.range (s.ch Ch.regCount)).filter (fun g => s.fld (s.regBase g) DevRegion.context == c && s.fld (s.regBase g) DevRegion.state == 1)).foldl State.closeRegion s

/-- TEARDOWN (R466). -/
def State.teardown (s : State) (c : Nat) : State :=
  let s := s.modContext c (fun x => { x with state := 3 })
  let s := (s.tearQueues c).tearChannels c
  let s := s.abortGroups (s.inOrder.filter (fun x => s.tf x.task TaskRec.context == c && (s.taskState x == Ts.running || s.taskState x == Ts.pending))) St.contextTorn
  let s := s.tearStreams c
  let p := s.ownersLost (fun b => b.context == c) 1 false false
  let s := p.1.abortGroups p.2 St.ownerLost
  let s : State := { s with buoys := s.buoys.filter (fun e => e.2.context != c) }
  (s.tearRegions c).modContext c (fun x => { x with xts := 0, philox := 0 })

/-- TEARDOWN. -/
def execTeardown (r : Req) (s : State) : Host.Outcome State Fault Refusal :=
  if !actionIs r actF 2 then .next s
  else .next (ctxDo 2 (fun s c => s.contextExists c && !(s.ch Ch.planOwner == c && s.planLoaded)) (fun c s => (s.teardown c).recheckSlips) r s)

/-- A loaded plan names the context in a task or a stream; an edge belongs to the context of its task. -/
def State.planNamesContext (s : State) (c : Nat) : Bool :=
  s.planLoaded && ((List.range s.taskCount).any (fun t => s.tf t TaskRec.context == c) || (List.range s.streamCount).any (fun n => s.sf n StreamRec.context == c))

/-- PREEMPT: the queues dispatch nothing further, and the buoys lose their owner (R293 to R295). -/
def execPreempt (r : Req) (s : State) : Host.Outcome State Fault Refusal :=
  if !actionIs r actF 3 then .next s else
  .next (ctxDo 3 (fun s c => s.contextState c == 1 && s.ch Ch.planOwner != c && !s.planNamesContext c)
    (fun c s =>
      let s := s.modContext c (fun x => { x with state := 2 })
      let p := s.ownersLost (fun b => b.context == c) 2 true false
      (p.1.abortGroups p.2 St.ownerLost).recheckSlips) r s)

/-- RESUME. -/
def execContextResume (r : Req) (s : State) : Host.Outcome State Fault Refusal :=
  if !actionIs r actF 4 then .next s
  else .next (ctxDo 4 (fun s c => s.contextState c == 2) (fun c s => s.modContext c (fun x => { x with state := 1 })) r s)

/-- Everything of a context has ended (R466). -/
def State.contextEmpty (s : State) (c : Nat) : Bool :=
  s.openQueues.all (fun q => s.q q QueueDesc.context != c)
  && (List.range (s.ch Ch.chtableCount)).all (fun k => s.chf k ChanRec.state == Cn.disabled || s.chf k ChanRec.context != c)
  && s.dispatched.all (fun d => s.cmdContext d != c) && s.ferry.items.all (fun i => s.chf i.channel ChanRec.context != c)
  && s.plan.runs.all (fun r => s.tf r.ref.task TaskRec.context != c)
  && (List.range (s.ch Ch.regCount)).all (fun g => s.fld (s.regBase g) DevRegion.context != c || s.fld (s.regBase g) DevRegion.state == 0)

/-- CONTEXT_FREED: a teardown is complete; VALID programs of the context are EMPTY again. -/
def execContextFreed (ctx : Nat) (s : State) : Host.Outcome State Fault Refusal :=
  if s.contextState ctx ≠ 3 then .next s else
  let t := s.tearRegions ctx
  if !t.contextEmpty ctx then .next s else
  let mine := (List.range (min (t.ch Ch.progCount) 0xFF00)).filter (fun p => t.progValid p && t.fld (t.progAddr p) ProgRec.context == ctx)
  let t := mine.foldl (fun (t : State) p =>
    let t : State := { t with engines := t.engines.map (fun (e : Nat × Engine) => (e.1, { e.2 with held := e.2.held.filter (· != p) })) }
    t.setFld (t.progAddr p) ProgRec.state 0) t
  .next { t with contexts := t.contexts.erase ctx }

/-! ### Keys (R211, R465, R467) -/

/-- No stream of the context holds data that a new key would leave unreadable. -/
def State.keyFree (s : State) (c : Nat) : Bool :=
  (List.range s.streamCount).all (fun n => s.sf n StreamRec.context != c || [Ss.unborn, Ss.released].contains (s.stateOf n))

/-- XTS_KEY of the selected context. -/
def execXtsKey (r : Req) (s : State) : Host.Outcome State Fault Refusal :=
  let c := s.selected r.path Ch.ctxSelect
  .next (s.chartDo 0x1201 2 r
    { range := r.value % 2 ^ 256 != r.value / 2 ^ 256
      state := s.contextState c == 1 && s.keyFree c
      params := true
      effect := fun s =>
        let s := if (s.contexts.getD c ⟨0, 0, 0, 0⟩).xts = r.value then s else s.blobChanged Ch.xtsKey
        s.modContext c (fun x => { x with xts := r.value, keysSet := x.keysSet ||| 1 }) })

/-- PHILOX_KEY of the selected context. -/
def execPhiloxKey (r : Req) (s : State) : Host.Outcome State Fault Refusal :=
  let c := s.selected r.path Ch.ctxSelect
  .next (s.chartDo 0x1201 3 r
    { range := true
      state := s.contextState c == 1 && s.keyFree c
      params := true
      effect := fun s => s.modContext c (fun x => { x with philox := r.value, keysSet := x.keysSet ||| 2 }) })

end Sys2Proof.Machine
end

