-- ==== Sys2Proof/Machine/Access.lean ====
section
/-! DEFINITION. Harbour regions assigned and released (R217, R468, R469), and the accesses of server cores and devices to memory (R48, R217, R218, R384, R385). -/

namespace Sys2Proof.Machine

/-! ### Plain accesses of a server core -/

/-- A server core's write to memory: refused where Charov protects the bytes, held while the region is FILLING, not made where the merge read of a part of a sector fails (R48, R155, R217, R218). -/
def State.coreWriteNow (s : State) (addr : Nat) (data : List Byte) : State :=
  let n := data.length
  if s.protects addr n then s.writeRefused addr 0 none
  else if s.filling addr n then { s with heldAccesses := s.heldAccesses ++ [.coreWrite addr data] }
  else match s.mergeFails addr n with
    | some sec => (s.sectorFound sec none).out (.coreError addr)
    | none => s.put addr data

/-- A server core's read of memory: an error response where a sector fails its check (R218). -/
def State.coreReadNow (s : State) (addr n : Nat) : State :=
  if s.filling addr n then { s with heldAccesses := s.heldAccesses ++ [.coreRead addr n] }
  else match s.failing addr n with
    | some sec => (s.sectorFound sec none).out (.coreError addr)
    | none => s.out (.coreData (s.rd addr n))

/-! ### Devices (R384, R385) -/

/-- The ENABLED region that lets a requester access the bytes: bit 0 of ACCESS reads, bit 1 writes. A region whose DISABLE waits serves only what it has `accepted` before (R383, R406). -/
def State.deviceRegion (s : State) (accepted : Bool) (requester addr n : Nat) (write : Bool) : Option Nat :=
  s.devRecords.find? (fun a => (if accepted then s.devEnabled a else s.devOpen a) && s.fld a DevRegion.peer == 0 && s.fld a DevRegion.requester == requester
    && bit (s.fld a DevRegion.access) (if write then 1 else 0)
    && decide (n ≠ 0 ∧ s.fld a DevRegion.base ≤ addr ∧ addr + n ≤ s.fld a DevRegion.base + s.fld a DevRegion.bytes))

/-- A request is refused, counted and reported. -/
def State.inboundRefused (s : State) (requester addr dir : Nat) : State :=
  (s.countSticky Ch.inboundRefused).raise ⟨0x0B07, requester, evAddr addr 0, dir, none, []⟩

/-- The write covers the notify word of a region: NOTIFY_BUOY is signalled by the value of its low 16 bits, once the bytes are in memory (R385). -/
def State.notifyWrite (s : State) (a addr : Nat) (data : List Byte) : State :=
  if s.fld a DevRegion.notify = 1 ∧ data.length = 8 ∧ addr + 8 = s.fld a DevRegion.base + s.fld a DevRegion.bytes then
    let k := leNat (data.take 2)
    let s := (s.signal (s.fld a DevRegion.context) (s.fld a DevRegion.notifyBuoy) k).1.recheckSlips
    if k = 0 then s else s.wake
  else s

/-- A device write; the region may have to be filled first, and then what it has `accepted` is made. -/
def State.devWriteNow (s : State) (accepted : Bool) (requester addr : Nat) (data : List Byte) : State :=
  match s.deviceRegion accepted requester addr data.length true with
  | none => s.inboundRefused requester addr 1
  | some a =>
    if s.filling addr data.length then { s with heldAccesses := s.heldAccesses ++ [.devWrite requester addr data] } else
    match s.mergeFails addr data.length with
    | some sec => s.sectorFound sec none
    | none => (s.put addr data).notifyWrite a addr data

/-- A device read, as a write. -/
def State.devReadNow (s : State) (accepted : Bool) (requester addr n : Nat) : State :=
  match s.deviceRegion accepted requester addr n false with
  | none => (s.inboundRefused requester addr 0).out (.unsupportedRequest requester addr)
  | some _ =>
    if s.filling addr n then { s with heldAccesses := s.heldAccesses ++ [.devRead requester addr n] } else
    match s.failing addr n with
    | some sec => (s.sectorFound sec none).out (.unsupportedRequest requester addr)
    | none => s.out (.deviceData requester (s.rd addr n))

/-- DEVICE_MEMORY_WRITE. -/
def execDeviceMemoryWrite (requester : Nat) (addr : Nat) (data : List Byte) (s : State) : Host.Outcome State Fault Refusal :=
  .next (s.devWriteNow false requester addr data)

/-- DEVICE_MEMORY_READ. -/
def execDeviceMemoryRead (requester : Nat) (addr : Nat) (n : Nat) (s : State) : Host.Outcome State Fault Refusal :=
  .next (s.devReadNow false requester addr n)

/-- DEVICE_ATOMIC_OP: always refused. Whether its event counts it as a write or as a read is a free value (log entry 71, DESIGN CHOICE). -/
def execDeviceAtomicOp (requester : Nat) (addr : Nat) (s : State) : Host.Outcome State Fault Refusal :=
  let dir := (Config.freeWord s.freeCount).toNat % 2
  .next (((s.drew 1).inboundRefused requester addr dir).out (.unsupportedRequest requester addr))

/-! ### Regions (R468, R469) -/

abbrev RgnCtl.region : Fld := ⟨39, 32⟩

/-- A byte of the Harbour belongs to region r. -/
def State.regionByte (s : State) (r a : Nat) : Bool :=
  let o := a % 2 ^ 38
  decide (a / 2 ^ 38 < 20 ∧ s.regionBase r ≤ o ∧ o < s.regionBase r + s.stackBytes r)

/-- Zero bytes and valid check words in every sector of a region (R217). -/
def State.fillRegion (s : State) (r : Nat) : State :=
  { s with mem := s.mem.filter (fun c => !s.regionByte r c.1), checkWords := s.checkWords.filter (fun e => !s.regionByte r (256 * e.1)) }

/-- The parameters of an ASSIGN (R468). -/
def State.assignOk (s : State) (r : Nat) : Bool :=
  let base := s.regionBase r
  let n := s.stackBytes r
  n != 0 && base / 2 ^ 38 % 32 == 0 && decide (base + n ≤ s.ch Ch.stackLimit)
  && s.regions.all (fun q => q == r || !overlap base n (s.regionBase q) (s.stackBytes q))

/-- ASSIGN: the region is FILLING and its zero fill is ordered (log entry 9, DEDUCED). -/
def execAssign (r : Req) (s : State) : Host.Outcome State Fault Refusal :=
  if !actionIs r actF 1 then .next s else
  let g := RgnCtl.region.get r.value
  .next (s.chartDo 0x2000 1 r
    { range := onlyBits r.value [RgnCtl.region, actF]
      state := s.regionState g == 0
      params := s.assignOk g
      effect := fun s => ((s.fillRegion g).setCh (Ch.regionState + 256 * g) 1).wake })

/-- The accesses that waited for a region are made. -/
def State.serveFilled (s : State) : State :=
  let held := s.heldAccesses
  let waits := fun (x : Access) => match x with
    | .coreRead a n => !s.filling a n
    | .coreWrite a d => !s.filling a d.length
    | .devRead _ a n => !s.filling a n
    | .devWrite _ a d => !s.filling a d.length
    | _ => false
  let s : State := { s with heldAccesses := held.filter (fun x => !waits x) }
  State.closeRegions <| (held.filter waits).foldl (fun (s : State) x => match x with
    | .coreRead a n => s.coreReadNow a n
    | .coreWrite a d => s.coreWriteNow a d
    | .devRead q a n => s.devReadNow true q a n
    | .devWrite q a d => s.devWriteNow true q a d
    | _ => s) s

/-- REGION_FILL_COMPLETE: the region is ASSIGNED and what waited for it goes on. -/
def execRegionFillComplete (rgn : Nat) (s : State) : Host.Outcome State Fault Refusal :=
  if 256 ≤ rgn ∨ s.regionState rgn ≠ 1 then .next s else .next (s.setCh (Ch.regionState + 256 * rgn) 2).serveFilled

/-- A loaded plan names the region: its tables, a stream, or the state record of one of its shards. -/
def State.planNamesRegion (s : State) (g : Nat) : Bool :=
  s.planLoaded && (s.planHdr PlanHdr.tableRegion == g || (List.range s.streamCount).any (fun n => s.sf n StreamRec.region == g)
    || (List.range s.shardCount).any (fun k => match s.shardOpt k with | some a => s.fld a OptRec.region == g | none => false))

/-- The Chart entries that hold an address. -/
def addressEntries : List Nat :=
  [Ch.qtableBase, Ch.chtableBase, Ch.stageBase, Ch.qringBase, Ch.qringBase + 256, Ch.progBase, Ch.ostateBase, Ch.setsBase, Ch.regBase, Ch.pkgMapBase, Ch.dtreeBase,
   Ch.mismatchLogBase, Ch.ratioBase, Ch.evringBase, Ch.layerSndBase, Ch.streamSndBase, Ch.mcSrc]

/-- RELEASE: the region is UNASSIGNED at once; contents and check words stay. (log entry 36, DEDUCED.) -/
def execRegionRelease (r : Req) (s : State) : Host.Outcome State Fault Refusal :=
  if !actionIs r actF 2 then .next s else
  let g := RgnCtl.region.get r.value
  .next (s.chartDo 0x2000 1 r
    { range := onlyBits r.value [RgnCtl.region, actF]
      state := s.regionState g != 0 && !s.planNamesRegion g && addressEntries.all (fun k => s.ch k == 0 || !s.regionByte g (s.ch k))
      params := true
      effect := fun s => (s.setCh (Ch.regionState + 256 * g) 0).serveFilled })

end Sys2Proof.Machine
end

