-- ==== Sys2Proof/Machine/Chart.lean ====
section
/-! DEFINITION. The Chart as it is read and written: the values that it computes from other state, the ranges and conditions of every writable entry, INFO, and the MCTP control commands (R444 to R464, R483). -/

namespace Sys2Proof.Machine

/-! ### Values -/

/-- The bytes of a STR value before its first NUL (R445). -/
def strBytes (v : Nat) : List Byte := (leBytes 64 v).takeWhile (fun b => b != 0)

/-- The serialised form of a generation slot's table (R200); none while it holds no table. -/
def slotTable (g : GenSlot) : List Byte := if g.lengths.isEmpty then [] else serialTable g.kind g.scope g.lengths

/-- The band records of a module as 8-byte records (R344, R354). -/
def Port.bandBytes (p : Port) : List Byte := (List.range 144496).flatMap (fun b => leBytes 8 (p.band b))

/-- The buoy that QUERY_KEY selects on a path (R279, R452). -/
def State.queried (s : State) (p : Path) : Option (Nat × Buoy) :=
  let k := s.selected p Ch.queryKey
  s.findBuoy (Fld.get ⟨43, 32⟩ k) (k % 2 ^ 32)

/-- The entries 0x6003.02 to 0x6003.0A. -/
def queryValue (b : Option (Nat × Buoy)) (sub : Nat) : Nat :=
  match b with
  | none => if sub = 3 then noRef else 0
  | some (k, b) =>
    match sub with
    | 2 => if b.lost then 2 else 1
    | 3 => k
    | 4 => b.kind
    | 5 => b.owner
    | 6 => if b.kind = Bk.barrier then b.entries.length else b.count
    | 7 => if b.kind = Bk.barrier then b.round else 0
    | 8 => b.parked.length
    | 9 => ((b.waiters ++ b.entries ++ b.parked).filter (fun w => w.who != Who.gone)).length
    | _ => if b.kind = Bk.barrier then b.participants else b.limit

/-- Bytes of a region's 20 ranges that lie in protected ranges; a byte in two of them counts once. -/
def State.protectedBytes (s : State) (r : Nat) : Nat :=
  if s.regionState r = 0 then 0 else
  let mine := (List.range 20).map (fun k => (k * 2 ^ 38 + s.regionBase r, k * 2 ^ 38 + s.regionBase r + s.stackBytes r))
  let cut := s.protectedRanges.flatMap (fun p => mine.filterMap (fun m => let lo := max p.1 m.1; let hi := min (p.1 + p.2) m.2; if lo < hi then some (lo, hi) else none))
  ((cut.mergeSort (fun a b => a.1 ≤ b.1)).foldl (fun (acc : Nat × Nat) c => let lo := max acc.2 c.1; if lo < c.2 then (acc.1 + (c.2 - lo), c.2) else acc) (0, 0)).1

/-- The entries of the context that CTX_SELECT names on a path. -/
def State.contextValue (s : State) (p : Path) (sub : Nat) : Nat :=
  let c := s.selected p Ch.ctxSelect
  match sub with
  | 1 => s.contextState c
  | 4 => (s.contexts.getD c ⟨0, 0, 0, 0⟩).keysSet
  | 5 => (s.openQueues.filter (fun q => s.q q QueueDesc.context == c)).length
  | 6 => ((List.range s.streamCount).filter (fun n => s.sf n StreamRec.context == c && s.stateOf n != Ss.released)).length
  | _ => 0

/-- The entries of a generation slot. -/
def State.slotValue (s : State) (k sub : Nat) : Nat :=
  let g := s.skerry.gens.getD k GenSlot.reset
  match sub with
  | 1 => g.gen
  | 2 => g.state
  | 3 => g.kind
  | 4 => g.scope
  | 5 => g.stream
  | 6 => g.context
  | _ => if g.state = 0 then 0 else s.genRefs g

/-- The value of an entry that is no BLOB; those that the Chart keeps are read as kept (R460). -/
def State.entryValue (s : State) (p : Path) (index sub : Nat) : Nat :=
  let kept := s.ch (index * 256 + sub)
  match index, sub with
  | 0x1000, 5 => strapPos + (if Config.strapTest then 256 else 0)
  | 0x1100, 10 => microseconds s.clock.orphan
  | 0x1130, 4 => (s.window.filter WindowFrame.dirty).length
  | 0x1200, 1 => s.selected p Ch.ctxSelect
  | 0x1200, 3 => (s.contexts.filter (fun e => e.2.state != 0)).length
  | 0x1201, _ => if sub = 0 then kept else s.contextValue p sub
  | 0x2000, 2 => s.regions.length
  | 0x4000, 3 => s.reefCapacity
  | 0x4000, 4 => s.planLimit
  | 0x5002, 1 => s.selected p Ch.armChannel
  | 0x6000, 1 => 262144 - s.buoys.length
  | 0x6003, 1 => s.selected p Ch.queryKey
  | 0x6003, _ => if sub = 0 then kept else queryValue (s.queried p) sub
  | 0x9000, 2 => strapPos
  | 0x9000, 4 => s.masterPosition
  | 0xB000, 9 => microseconds s.clock.asleep
  | 0xB000, 10 => s.events.heldRecords
  | _, _ =>
    if 0x2100 ≤ index ∧ index < 0x2200 ∧ sub = 7 then s.protectedBytes (index - 0x2100)
    else if 0x3100 ≤ index ∧ index < 0x3114 ∧ sub = 9 then s.entriesUsed
    else if 0x3400 ≤ index ∧ index < 0x3404 ∧ 1 ≤ sub ∧ sub ≤ 7 then s.slotValue (index - 0x3400) sub
    else if index = 0x3410 ∧ 1 ≤ sub ∧ sub ≤ 4 then (match s.skerry.gens.find? (fun g => g.state == 2 && g.scope == 1 && g.kind == sub) with | some g => g.gen | none => 0)
    else if 0x5100 ≤ index ∧ index < 0x5200 ∧ sub = 1 then (if s.pacedWait (index - 0x5100) then 2 else kept)
    else if 0x4100 ≤ index ∧ index < 0x4110 then
      let q := s.port (index - 0x4100)
      match sub with
      | 7 => q.wearMax
      | 8 => q.wearMean
      | 9 => q.freeBands
      | 10 => q.factory.length
      | 16 => ((q.bands.filter (fun e => BandRec.state.get e.2 == Bs.mapped)).map (fun e => BandRec.age.get e.2)).foldl max 0
      | _ => kept
    else if (index = 0xC010 ∨ index = 0xC011) ∧ sub = 3 then (3 * 4 + (index - 0xC010)) * 0x0001000100010001
    else kept

/-- The bytes of a BLOB now. -/
def State.blobBytes (s : State) (index sub max_ : Nat) : List Byte :=
  if index = 0xA401 then s.events.held.flatten.flatMap (fun r => leBytes 32 r)
  else if 0x3400 ≤ index ∧ index < 0x3404 then slotTable (s.skerry.gens.getD (index - 0x3400) GenSlot.reset)
  else if 0x4100 ≤ index ∧ index < 0x4110 then (s.port (index - 0x4100)).bandBytes
  else if index = 0xC010 ∨ index = 0xC011 then
    let c := s.causeway (index - 0xC010)
    leBytes max_ (if sub = 5 then c.wordBase else if sub = 6 then c.wordDie else c.failed)
  else leBytes max_ (s.ch (index * 256 + sub))

/-- The bytes of an entry. -/
def State.entryBytes (s : State) (p : Path) (index sub : Nat) (t : ChType) : List Byte :=
  match t with
  | .blob n => s.blobBytes index sub n
  | .str => strBytes (s.entryValue p index sub)
  | t => leBytes t.size (s.entryValue p index sub)

/-! ### READ and INFO (R453, R460, R483) -/

/-- The reply to a READ of `len` bytes from OFFSET. -/
def State.readReply (s : State) (index sub len : Nat) (r : Req) : ChReply :=
  if r.path.isMctp && s.ch Ch.mctpEid == 0 then ⟨Cs.eidUnset, 0, 0, []⟩
  else if 256 < len then ⟨Cs.type, 0, 0, []⟩
  else match (if chartClosed index then none else chartEntry index sub) with
  | none => ⟨Cs.noEntry, 0, 0, []⟩
  | some e =>
    if e.acc = .wo then ⟨Cs.access, e.type.size, 0, []⟩ else
    let bytes := s.entryBytes r.path index sub e.type
    let total := bytes.length
    if e.type.isBlob then
      let gen := s.entryGen.getD (index * 256 + sub) 0
      if total < r.offset then ⟨Cs.segment, total, gen, []⟩ else ⟨Cs.ok, total, gen, (bytes.drop r.offset).take len⟩
    else if r.offset ≠ 0 then ⟨Cs.segment, total, 0, []⟩ else ⟨Cs.ok, total, 0, bytes⟩

/-- A READ, answered on its path. -/
def State.chartRead (s : State) (index sub len : Nat) (r : Req) : State :=
  let rep := s.readReply index sub len r
  s.reply 1 index sub r rep

/-- The 16-byte descriptor of an entry (R453). -/
def infoBytes (e : ChEntry) : List Byte :=
  let dflt := if e.type.isBlob ∨ e.type = .str then 0 else e.dflt
  leBytes 1 e.type.code ++ leBytes 1 e.acc.code ++ [0, 0] ++ leBytes 4 e.type.size ++ leBytes 8 dflt

/-- The reply to an INFO, which every class permits. -/
def State.infoReply (s : State) (index sub : Nat) (r : Req) : ChReply :=
  if r.path.isMctp && s.ch Ch.mctpEid == 0 then ⟨Cs.eidUnset, 0, 0, []⟩
  else if 256 < r.data.length then ⟨Cs.type, 0, 0, []⟩
  else match (if chartClosed index then none else chartEntry index sub) with
  | none => ⟨Cs.noEntry, 0, 0, []⟩
  | some e =>
    let total := if e.type.isBlob ∨ e.type = .str then (s.entryBytes r.path index sub e.type).length else e.type.size
    let gen := if e.type.isBlob then s.entryGen.getD (index * 256 + sub) 0 else 0
    if r.offset ≠ 0 ∧ !(e.type.isBlob && decide (r.offset ≤ total)) then ⟨Cs.segment, total, gen, []⟩ else ⟨Cs.ok, total, gen, infoBytes e⟩

/-- The locked test range, open while strap TEST was high: the manual does not describe what lies there (R464). -/
def lockedOpen (index : Nat) : Bool := 0xFF00 ≤ index && Config.strapTest

/-- An access to the open locked test range. The checks of R483 before the entry are made; the status and all else that the reply carries are free values, since the range's contents are not described, and what a WRITE does there is left out (log entry 85, DESIGN CHOICE). -/
def State.chartLocked (s : State) (op index sub len : Nat) (r : Req) : State :=
  if s.slotBusy r.path then s.countSticky Ch.pathRefusals
  else if r.path.isMctp && s.ch Ch.mctpEid == 0 then s.reply op index sub r ⟨Cs.eidUnset, 0, 0, []⟩
  else if 256 < len then s.reply op index sub r ⟨Cs.type, 0, 0, []⟩
  else
    let w := fun k => (Config.freeWord (s.freeCount + k)).toNat
    let status := w 0 % 8
    let n := if op = 1 then w 3 % 257 else if op = 3 then 16 else 0
    let s := s.drew 4
    let s := if op = 2 ∧ status = Cs.path then s.countSticky Ch.pathRefusals else s
    (s.drew n).reply op index sub r ⟨status, w 1, w 2, if status = Cs.ok then s.freeBytes n else []⟩

/-- INFO served, from the request to the reply. -/
def State.chartInfo (s : State) (index sub : Nat) (r : Req) : State :=
  if s.slotBusy r.path then s.countSticky Ch.pathRefusals else s.reply 3 index sub r (s.infoReply index sub r)

/-- CHART_INFO. -/
def execChartInfo (index sub : Nat) (r : Req) (s : State) : Host.Outcome State Fault Refusal :=
  .next (if lockedOpen index then s.chartLocked 3 index sub r.data.length r else s.chartInfo index sub r)

/-! ### Writable entries: ranges, conditions and effects (R446, R447, and each chapter's table) -/

/-- Counters and peaks that only a write of 0 clears (R450). -/
def zeroOnly (index sub : Nat) : Bool :=
  (0x5100 ≤ index && index < 0x5200 && sub == 4) || (0x3100 ≤ index && index < 0x3114 && (sub == 5 || sub == 7 || sub == 8))
  || (0x2100 ≤ index && index < 0x2200 && (sub == 6 || sub == 9)) || (0x7100 ≤ index && index < 0x7128 && sub == 5)
  || (index == 0x6000 && (sub == 3 || sub == 4)) || (index == 0x7410 && (sub == 3 || sub == 4))
  || (0x4100 ≤ index && index < 0x4110 && (sub == 11 || sub == 13 || sub == 14)) || (index == 0x8000 && sub == 6)
  || (index == 0x8020 && (sub == 4 || sub == 5)) || (index == 0x2010 && sub == 4) || (index == 0x9010 && (sub == 5 || sub == 6))
  || ((index == 0xC010 || index == 0xC011) && (sub == 8 || sub == 10)) || (index == 0xB010 && sub == 3)
  || (0xB100 ≤ index && index < 0xB105 && (sub == 6 || sub == 7)) || (index == 0x1110 && sub == 6) || (index == 0xA400 && sub == 7) || index == 0xA000

/-- Check 8 of R483 for a plain entry: the value lies in the range its table states; a Harbour address lies in the Harbour (log entry 103, DEDUCED). -/
def State.entryRange (s : State) (index sub v : Nat) : Bool :=
  let page := v % 4096 == 0 && decide (v < 2 ^ 52)
  let harbourPage := v % 4096 == 0 && inHarbour v
  let among := fun (lo hi : Nat) => decide (lo ≤ v ∧ v ≤ hi)
  if zeroOnly index sub then v == 0 else
  match index, sub with
  | 0x1120, 1 => harbourPage
  | 0x1120, 2 => among 1 1048576
  | 0x5000, 1 => harbourPage
  | 0x5000, 2 => among 1 65536
  | 0x5000, 3 => among 0 7
  | 0x5002, 1 => among 0 65535
  | 0x5020, 2 => page
  | 0x5040, 1 => harbourPage
  | 0x5041, 1 => harbourPage
  | 0x5040, 2 => among 1 1024
  | 0x5041, 2 => among 1 1024
  | 0x3430, 1 => among 0 3
  | 0x3430, 2 => among 1 16384
  | 0x3430, 3 => among 1 1024
  | 0x7400, 1 => harbourPage
  | 0x7400, 2 => among 1 65280
  | 0x6003, 1 => among 0 (2 ^ 44 - 1)
  | 0x7410, 1 => harbourPage
  | 0x7410, 2 => among 0 65536
  | 0xA200, 1 => harbourPage
  | 0x4000, 2 => v % 4096 == 0
  | 0x4000, 6 => among 0 10
  | 0x4000, 9 => among 0 1
  | 0x4400, 1 => among 1 167
  | 0x8000, 1 => page
  | 0x8000, 2 => among 1 4096
  | 0x8010, 1 => page
  | 0x8010, 2 => v % 4096 == 0
  | 0x8020, 1 => among 0 1
  | 0x8020, 2 => decide (v < 2 ^ 52)
  | 0x8020, 3 => among 1 4096
  | 0x2010, 1 => harbourPage
  | 0x2010, 2 => among 1 1024
  | 0x1100, 6 => among 0 4095
  | 0x9000, 3 => among 0 7 || v == 0xFF
  | 0x9000, 8 => among 10 10000
  | 0x9000, 9 => decide (10 * s.ch Ch.hbPeriod ≤ v)
  | 0x9000, 10 => v != 0
  | 0x9010, 1 => page
  | 0x9010, 2 => among 1 4096
  | 0x9010, 3 => among 0 4095
  | 0xC000, 1 => v % 16 == 0 && among 16 256
  | 0xC000, 2 => among 1 32
  | 0xB020, 1 => decide (v < 2 ^ 52)
  | 0x1200, 1 => among 0 4095
  | 0xA400, 1 => harbourPage
  | 0xA400, 2 => among 7 16
  | 0xA400, 5 => decide ((v + 2 ^ 32 - s.ch Ch.evringHead) % 2 ^ 32 ≤ (s.ch Ch.evringTail + 2 ^ 32 - s.ch Ch.evringHead) % 2 ^ 32)
  | 0xA001, 1 => page
  | 0xA001, 2 => page
  | _, _ =>
    if 0x7100 ≤ index ∧ index < 0x7128 ∧ sub = 2 then among 0 1
    else if 0x2100 ≤ index ∧ index < 0x2200 then
      (if sub = 1 then v % 65536 == 0 && decide (v < 2 ^ 52) else if sub = 2 then v % 65536 == 0 else if sub = 8 then among 0 1 else true)
    else if 0x9020 ≤ index ∧ index < 0x9028 ∧ sub = 1 then decide (v < 2 ^ 52)
    else if 0xB100 ≤ index ∧ index < 0xB105 then
      (if sub = 2 then decide (s.ch ((index * 256) + 3) + 20 ≤ v ∧ v + 10 ≤ s.ch ((index * 256) + 1)) else if sub = 4 then among 0 3 else true)
    else true

/-- Check 9 of R483 for a plain entry: the condition its table states (log entry 12, DEDUCED). -/
def State.entryState (s : State) (index sub v : Nat) : Bool :=
  let noPlan := !s.planLoaded
  match index, sub with
  | 0x1120, _ => s.openQueues.isEmpty
  | 0x5000, 1 => (List.range (s.ch Ch.chtableCount)).all (fun c => s.chf c ChanRec.state == Cn.disabled)
  | 0x5000, 2 => (List.range (s.ch Ch.chtableCount)).all (fun c => s.chf c ChanRec.state == Cn.disabled)
  | 0x5020, _ => noPlan
  | 0x5040, _ => (s.rings 0).isEmpty
  | 0x5041, _ => (s.rings 1).isEmpty
  | 0x7400, _ => (List.range (min (s.ch Ch.progCount) 0xFF00)).all (fun p => !s.progValid p)
  | 0x7410, 1 => noPlan
  | 0x7410, 2 => noPlan
  | 0x4000, 1 => noPlan && s.ports.all (fun e => e.2.transfers.isEmpty) && s.window.all (fun f => !f.dirty) && (List.range 16).all (fun m => !bit v m || s.modState m == Ms.admitted)
  | 0x4000, 2 => noPlan && s.ports.all (fun e => e.2.transfers.isEmpty) && s.window.all (fun f => !f.dirty)
  | 0x8000, 1 => (List.range (s.ch Ch.setsCount)).all (fun k => (s.stf k SetRec.state != Sst.taking && s.stf k SetRec.state != Sst.restoring && s.stf k SetRec.state != Sst.adopting))
  | 0x8000, 2 => (List.range (s.ch Ch.setsCount)).all (fun k => (s.stf k SetRec.state != Sst.taking && s.stf k SetRec.state != Sst.restoring && s.stf k SetRec.state != Sst.adopting))
  | 0x8000, 3 => (List.range (s.ch Ch.setsCount)).all (fun k => (s.stf k SetRec.state != Sst.taking && s.stf k SetRec.state != Sst.restoring && s.stf k SetRec.state != Sst.adopting))
  | 0x8010, _ => noPlan
  | 0x2010, 1 => s.devRecords.all (fun a => !s.devEnabled a)
  | 0x2010, 2 => s.devRecords.all (fun a => !s.devEnabled a)
  | 0x1100, 6 => noPlan
  | 0x9000, 1 => noPlan
  | 0x9000, 3 => noPlan
  | 0x9000, 5 => noPlan
  | 0x9010, 1 => noPlan
  | 0x9010, 2 => noPlan
  | 0x9010, 3 => noPlan
  | 0xA400, 1 => s.ch Ch.evringEnable == 0
  | 0xA400, 2 => s.ch Ch.evringEnable == 0
  | 0xA400, 3 => v != 1 || (s.ch Ch.evringBase != 0 && decide (7 ≤ s.ch Ch.evringLog2) && (s.firstOutside (s.ch Ch.evringBase) (32 * 2 ^ s.ch Ch.evringLog2)).isNone)
  | 0xA001, _ => noPlan
  | _, _ =>
    if 0x7100 ≤ index ∧ index < 0x7128 ∧ sub = 2 then s.ch (Ch.engineState + 256 * (index - 0x7100)) == 0
    else if 0x2100 ≤ index ∧ index < 0x2200 then (if sub = 1 ∨ sub = 2 then s.regionState (index - 0x2100) == 0 else if sub = 4 ∨ sub = 8 then noPlan else true)
    else if 0x9020 ≤ index ∧ index < 0x9030 then noPlan
    else true

/-- Membership has been written anew: no member has been heard under it, and a HEADLESS group forms again (R397, R398). -/
def State.regroup (s : State) : State :=
  let s : State := { s with cascade := { s.cascade with peers := s.cascade.peers.map (fun e => (e.1, { e.2 with heard := false, agrees := false, lost := false })) } }
  (s.setCh Ch.groupState 1).settleGroup

/-- What an accepted write of a plain entry does. (log entry 39, DEDUCED.) -/
def State.entryEffect (s : State) (index sub : Nat) (r : Req) : State :=
  let v := r.value
  let key := index * 256 + sub
  match index, sub with
  | 0x1200, 1 => s.setSelected r.path Ch.ctxSelect v
  | 0x5002, 1 => s.setSelected r.path Ch.armChannel v
  | 0x6003, 1 => s.setSelected r.path Ch.queryKey v
  | 0x9000, 1 => (s.setCh key v).regroup
  | 0x9000, 3 => (s.setCh key v).regroup
  | 0x9000, 5 => (s.setCh key v).regroup
  | 0xB020, 3 => s.setBlob key v
  | 0x4000, 1 => (List.range 16).foldl (fun (s : State) p => if bit v p then s.modPort p (fun q => { q with setRecord := v }) else s) (s.setCh key v)
  | _, _ =>
    if 0xB100 ≤ index ∧ index < 0xB105 ∧ sub = 6 then s.setCh key (s.ch (index * 256 + 5))
    else if 0x9028 ≤ index ∧ index < 0x9030 ∧ sub = 1 then
      let s := s.setCh key v
      let p := index - 0x9028
      if v = 0 then s.setCh (Ch.borrowGranted + 256 * p) 0
      else match s.pkgAt p with
        | some pkg => s.askChart pkg (7 + p) (0x9020 + strapPos) 2
        | none => s.setCh (Ch.borrowGranted + 256 * p) 0
    else s.setCh key v

/-- A write of an entry that has no row of its own, or of an action that is reserved and so out of range (R446). -/
def State.plainWrite (s : State) (index sub : Nat) (r : Req) : State :=
  let isAction := match chartEntry index sub with
    | some e => e.acc == .wo
    | none => false
  s.chartDo index sub r
    { range := !isAction && s.entryRange index sub r.value, state := s.entryState index sub r.value, params := true,
      effect := fun s => s.entryEffect index sub r }

/-- GEN_SELECT: a supported generation, which then is the active one (R462). -/
def execGenSelect (r : Req) (s : State) : Host.Outcome State Fault Refusal :=
  .next (s.chartDo 0x1001 2 r
    { range := decide (r.value < 64) && bit (s.ch Ch.genSupported) r.value, state := true, params := true,
      effect := fun s => (s.setCh Ch.genSelect r.value).setCh Ch.genActive r.value })

/-! ### MCTP over I3C (R457, R458; the formats of DSP0236 lie outside the manual, log entry 73, PRESUMED) -/

/-- DYNAMIC_ADDRESS_ASSIGNMENT: the bus controller assigns the I3C address. -/
def execDynamicAddressAssignment (addr : Nat) (s : State) : Host.Outcome State Fault Refusal :=
  if 128 ≤ addr then .next s else .next (s.setCh Ch.i3cAddress addr)

/-- Set Endpoint ID: a physical endpoint ID from 8 to 254 is taken; 0 and 255 and the reserved ones are refused with the completion code ERROR_INVALID_DATA. -/
def execSetEndpointId (eid : Nat) (s : State) : Host.Outcome State Fault Refusal :=
  if 8 ≤ eid ∧ eid ≤ 254 then .next ((s.setCh Ch.mctpEid eid).out (.mctpReply [0x01, 0x00, 0x00, BitVec.ofNat 8 eid, 0x00]))
  else .next (s.out (.mctpReply [0x01, 0x02]))

/-- Get Endpoint ID. -/
def execGetEndpointId (s : State) : Host.Outcome State Fault Refusal :=
  .next (s.out (.mctpReply [0x02, 0x00, BitVec.ofNat 8 (s.ch Ch.mctpEid), 0x00, 0x00]))

/-- Get MCTP Version Support, of the base specification. The version bytes are free values. -/
def execGetMctpVersionSupport (s : State) : Host.Outcome State Fault Refusal :=
  .next ((s.drew 4).out (.mctpReply ([0x04, 0x00, 0x01] ++ s.freeBytes 4)))

/-- Get Message Type Support: vendor-defined messages of type 0x7F and no other (R457). -/
def execGetMessageTypeSupport (s : State) : Host.Outcome State Fault Refusal :=
  .next (s.out (.mctpReply [0x05, 0x00, 0x01, 0x7F]))

/-- Get Vendor Defined Message Support: the one vendor ID, in IANA format, with the enterprise number of 0x1000.07 (R457). -/
def execGetVendorDefinedMessageSupport (s : State) : Host.Outcome State Fault Refusal :=
  let n := s.ch Ch.ianaEnterprise
  .next ((s.drew 2).out (.mctpReply ([0x06, 0x00, 0xFF, 0x01] ++ leBytes 4 n ++ s.freeBytes 2)))

end Sys2Proof.Machine
end

