-- ==== Sys2Proof/Machine/Route.lean ====
section
/-! DEFINITION. The ways into the Chart: every WRITE led to the row of its entry, the mailbox and the doorbell address among the stores of server cores, and CHART_REQUEST from the cascade (R8, R117, R401, R451 to R457, R483). -/

namespace Sys2Proof.Machine

/-- A WRITE of an entry of one index; a reserved action falls to `plainWrite`, which answers RANGE. (log entry 41, DESIGN CHOICE.) -/
def State.routePage (s : State) (index sub : Nat) (r : Req) : Host.Outcome State Fault Refusal :=
  let a := actF.get r.value
  match index, sub, a with
  | 0x1001, 2, _ => execGenSelect r s
  | 0x1100, 3, _ =>
    match Attach.action.get r.value with
    | 1 => execAttach r s
    | 2 => execTakeover r s
    | 3 => execDetach r s
    | _ => .next (s.plainWrite index sub r)
  | 0x1121, 1, 1 => execQueueEnable r s
  | 0x1121, 1, 2 => execQueueDisable r s
  | 0x1130, 2, _ => execWindowOffset r s
  | 0x1130, 3, 1 => execWindowFlush r s
  | 0x1200, 2, 1 => execCreate r s
  | 0x1200, 2, 2 => execTeardown r s
  | 0x1200, 2, 3 => execPreempt r s
  | 0x1200, 2, 4 => execContextResume r s
  | 0x1201, 2, _ => execXtsKey r s
  | 0x1201, 3, _ => execPhiloxKey r s
  | 0x2000, 1, 1 => execAssign r s
  | 0x2000, 1, 2 => execRegionRelease r s
  | 0x2010, 3, 1 => execRegionEnable r s
  | 0x2010, 3, 2 => execRegionDisable r s
  | 0x5001, 0, 1 => execChannelEnable r s
  | 0x5001, 0, 2 => execChannelDisable r s
  | 0x5001, 0, 3 => execChannelStop r s
  | 0x5001, 0, 4 => execChannelResume r s
  | 0x5001, 0, 5 => execChannelReset r s
  | 0x5001, 0, 6 => execClearFlags r s
  | 0x5002, 2, _ => execArm r s
  | 0x5042, 0, 1 => execRingEnable r s
  | 0x5042, 0, 2 => execRingDisable r s
  | 0x6001, 0, _ => execBuoyBind r s
  | 0x6002, 0, _ =>
    match BuoyCtl.action.get r.value with
    | 1 => execUnbind r s
    | 2 => execBuoyReset r s
    | _ => .next (s.plainWrite index sub r)
  | 0x7400, 3, 1 => execRegister r .ok s
  | 0x7400, 3, 2 => execRetire r s
  | 0x8000, 4, _ => execSetAdopt r .ok s
  | 0x8000, 5, 1 => execDrop r s
  | 0x9180, 1, _ => execFeedWrite 1 r s
  | 0x9180, 2, _ => execFeedWrite 2 r s
  | 0x9181, 1, _ => execCopyPartner r s
  | 0x9181, 4, _ => execCorrelatedOverride r s
  | 0xB000, 3, _ => execHoldAwake r s
  | 0xB010, 1, 1 => execFastReset (.control r) s
  | 0xB010, 1, 2 => execFullReset (.control r) s
  | 0xB020, 4, 1 => execMcLoad r s
  | 0xC010, 2, 1 => execTrain 0 r s
  | 0xC010, 2, 2 => execCwResume 0 r s
  | 0xC010, 2, 3 => execCwRelease 0 r s
  | 0xC011, 2, 1 => execTrain 1 r s
  | 0xC011, 2, 2 => execCwResume 1 r s
  | 0xC011, 2, 3 => execCwRelease 1 r s
  | _, _, _ => .next (s.plainWrite index sub r)

/-- A WRITE of any entry. -/
def State.chartRoute (s : State) (index sub : Nat) (r : Req) : Host.Outcome State Fault Refusal :=
  if lockedOpen index then .next (s.chartLocked 2 index sub r.data.length r)
  else if 0x4100 ≤ index ∧ index < 0x4110 ∧ sub = 3 then
    let p := index - 0x4100
    match actF.get r.value with
    | 1 => execAdmitKeep p r s
    | 2 => execAdmitErase p r s
    | 3 => execRemove p r s
    | 4 => execReidentify p r s
    | _ => .next (s.plainWrite index sub r)
  else s.routePage index sub r

/-- CHART_WRITE. -/
def execChartWrite (index sub : Nat) (r : Req) (s : State) : Host.Outcome State Fault Refusal := s.chartRoute index sub r

/-- One access as a header of the mailbox layout and its data spell it: READ, WRITE, INFO, or an OP that is not listed (R453, R455). A READ carries only the number of bytes wanted. -/
def State.chartServe (s : State) (path : Path) (tag : Nat) (hdr : Nat) (data : List Byte) : Host.Outcome State Fault Refusal :=
  let index := MailboxHdr.index.get hdr
  let sub := MailboxHdr.subindex.get hdr
  let len := MailboxHdr.length.get hdr
  let r : Req := ⟨path, MailboxHdr.seq.get hdr + tag * 2 ^ 16, MailboxHdr.offset.get hdr, data⟩
  match MailboxHdr.op.get hdr with
  | 1 => .next (if lockedOpen index then s.chartLocked 1 index sub len { r with data := [] } else s.chartRead index sub len { r with data := [] })
  | 2 => s.chartRoute index sub r
  | 3 => .next (if lockedOpen index then s.chartLocked 3 index sub r.data.length r else s.chartInfo index sub r)
  | op => .next (s.reply op index sub { r with data := [] } ⟨Cs.type, 0, 0, []⟩)

/-! ### Server cores -/

/-- The slot whose bytes 0 to 7 a store touches (R456). -/
def headTouched (addr n : Nat) : Option Nat := (List.range 4).find? (fun k => overlap addr n (mailboxSlot k) 8)

/-- A store to bytes 0 to 7 of a slot. A store that is not one aligned store of 8 bytes, or that begins a request while the slot is not FREE, is ignored and counted (R456). -/
def State.mailboxStore (s : State) (k addr : Nat) (data : List Byte) : Host.Outcome State Fault Refusal :=
  let w := leNat data
  if data.length ≠ 8 ∨ addr ≠ mailboxSlot k then .next (s.countSticky Ch.pathRefusals)
  else if MailboxHdr.slotState.get w ≠ 1 then .next (s.store addr data)
  else if s.slotBusy (.mailbox k) then .next (s.countSticky Ch.pathRefusals)
  else
    let s := s.store addr (leBytes 8 (MailboxHdr.slotState.set w 0))
    let hdr := s.rdNat (mailboxSlot k) 64
    s.chartServe (.mailbox k) 0 hdr (s.rd (mailboxSlot k + 64) (min (MailboxHdr.length.get hdr) 257))

/-- SERVER_CORE_WRITE: the Reef window, the mailbox, the doorbell address, or memory. -/
def execServerCoreWrite (addr : Nat) (data : List Byte) (s : State) : Host.Outcome State Fault Refusal :=
  let n := data.length
  if 2 ^ 52 < addr + n then .fault (.noSuchAddress addr)
  else if overlap addr n windowStart windowBytes then execWindowStore addr data s
  else if overlap addr n (s.ch Ch.doorbellAddr) 8 then
    let w := BitVec.ofNat 64 (leNat data)
    let aligned := addr == s.ch Ch.doorbellAddr
    if DoorbellWord.kind.get w.toNat = 0 then execSubmissionDoorbell .serverCores w n aligned s
    else execCompletionDoorbell .serverCores w n aligned s
  else match headTouched addr n with
    | some k => s.mailboxStore k addr data
    | none => .next (s.coreWriteNow addr data)

/-- SERVER_CORE_READ. The manual gives no meaning to a read of the doorbell address: its bytes are free values. -/
def execServerCoreRead (addr : Nat) (n : Nat) (s : State) : Host.Outcome State Fault Refusal :=
  if 2 ^ 52 < addr + n then .fault (.noSuchAddress addr)
  else if overlap addr n windowStart windowBytes then execWindowLoad addr n s
  else if overlap addr n (s.ch Ch.doorbellAddr) 8 then .next ((s.drew n).out (.coreData (s.freeBytes n)))
  else .next (s.coreReadNow addr n)

/-! ### The cascade -/

/-- A WRITE by a package that is not the master has no right to any entry (R401, R454). -/
def State.strangerWrite (s : State) (index sub : Nat) (r : Req) : State :=
  let may := s.ch Ch.remoteChart
  let p := (s.setCh Ch.remoteChart 0).writeReply index sub r refusedAct
  (p.1.setCh Ch.remoteChart may).reply 2 index sub r p.2

/-- CHART_REQUEST: the payload is bytes 0 to 23 of the mailbox header, and the data (R401, R457). A copy partner that asks for a feed because its own has changed is asked for both in turn (R374, log entry 13, DESIGN CHOICE). -/
def execChartRequest (f : Frame) (s : State) : Host.Outcome State Fault Refusal :=
  let h := f.header.toNat
  let src := MsgHdr.srcPackage.get h
  let arg := MsgHdr.arg.get h
  let hdr := leNat (f.payload.take 24)
  let index := MailboxHdr.index.get hdr
  let tag := arg + (src + 1) * 2 ^ 64
  let taken := s.message Mk.chartRequest f (fun s _ _ => s)
  let fresh := !s.discards f && MsgHdr.kind.get h == Mk.chartRequest && MsgHdr.seq.get h == ((s.peer src).rxSeq + 1) % 65536
  if !fresh then .next taken
  else if MailboxHdr.op.get hdr = 2 ∧ s.pkgAt s.masterPosition ≠ some src then
    let r : Req := ⟨.cascade, MailboxHdr.seq.get hdr + tag * 2 ^ 16, MailboxHdr.offset.get hdr, f.payload.drop 24⟩
    let sub := MailboxHdr.subindex.get hdr
    .next (if lockedOpen index then taken.chartLocked 2 index sub r.data.length r else taken.strangerWrite index sub r)
  else match taken.chartServe .cascade tag hdr (f.payload.drop 24) with
    | .next s =>
      if index = 0x9180 ∧ MailboxHdr.op.get hdr = 1 ∧ arg = 4 ∧ s.ch Ch.pairState ≠ Pair.none ∧ src = s.ch Ch.copyPartner then .next (s.askFeeds src 5)
      else .next s
    | o => o

end Sys2Proof.Machine
end

