-- ==== Sys2Proof/Machine/Commands.lean ====
section
/-! DEFINITION. The commands that need no executor beside the Pilot: SIGNAL, WAIT and the entry of a barrier, FENCE, INLINE_WRITE, NOP, DISCARD (R52, R53, R128, R133, R135, R284 to R299); and the tasks DISCARD and the completion of any task (R50, R74, R77). -/

namespace Sys2Proof.Machine

/-- The dispatched command of a tag and opcode that its executor has not yet taken. -/
def State.readyCmd (s : State) (c op : Nat) : Option Dispatched := (s.cmd c op).filter (fun d => d.stage == .ready)

/-- A command ends on a buoy. -/
def State.endOnBuoy (s : State) (d : Dispatched) (status detail : Nat) : State :=
  if status = St.success then s.endCmd d status 0
  else if status = St.noObject then s.endCmd d status CmdBuoy.buoy.lo
  else s.endWith d status detail

/-- The command's buoy lies on another package (R298). -/
def State.buoyAway (s : State) (w : Nat) : Bool := cmdGet w CmdBuoy.remote == 1 && cmdGet w CmdBuoy.package != s.self

/-- SIGNAL (R284, R286, R298, R299). -/
def execSignal (c : Nat) (s : State) : Host.Outcome State Fault Refusal :=
  match s.cmd c Op.signal with
  | none => .next s
  | some d =>
    let name := cmdGet d.word CmdBuoy.buoy
    let n := cmdGet d.word CmdBuoy.count
    let ctx := s.cmdContext d
    match d.stage with
    | .ready =>
      if n = 0 then .next (s.endCmd d St.success 0)
      else if s.buoyAway d.word then .next ((s.setStage c .waiting 0).sendBuoyOp (cmdGet d.word CmdBuoy.package) 1 ctx name n (.cmd c) 0)
      else match (s.meetsPlan d.queue ctx name).signal ctx name n with
        | (s, .ended st det) => .next (s.endOnBuoy d st det)
        | (s, .waits) => .next s
    | .ownerLost => .next (s.endOnBuoy d St.ownerLost d.detail)
    | _ => .next s

/-- A WAIT or an entry: it takes its place, and ends once it is released (R284, R289, R294). -/
def State.waitRow (s : State) (d : Dispatched) (op n : Nat) (act : State → State × BuoyEnd) : State :=
  match d.stage with
  | .ready =>
    if cmdGet d.word CmdBuoy.count = 0 then s.endCmd d St.success 0
    else
      let t := s.setStage d.tag .waiting 0
      if s.buoyAway d.word then t.sendBuoyOp (cmdGet d.word CmdBuoy.package) op (s.cmdContext d) (cmdGet d.word CmdBuoy.buoy) n (.cmd d.tag) 0
      else match act (t.meetsPlan d.queue (s.cmdContext d) (cmdGet d.word CmdBuoy.buoy)) with
        | (s, .ended st det) => s.endOnBuoy d st det
        | (s, .waits) => s
  | .granted => s.endCmd d St.success 0
  | .ownerLost => s.endOnBuoy d St.ownerLost d.detail
  | _ => s

/-- WAIT without BARRIER (R284 to R287). -/
def execWait (c : Nat) (s : State) : Host.Outcome State Fault Refusal :=
  match (s.cmd c Op.wait).filter (fun d => cmdGet d.word CmdBuoy.barrier == 0) with
  | none => .next s
  | some d =>
    let n := cmdGet d.word CmdBuoy.count
    .next (s.waitRow d 2 n (fun t => t.waitOn (s.cmdContext d) (cmdGet d.word CmdBuoy.buoy) n (.cmd c)))

/-- WAIT with BARRIER: the entry into a round (R289 to R292). -/
def execBarrierEntry (c : Nat) (s : State) : Host.Outcome State Fault Refusal :=
  match (s.cmd c Op.wait).filter (fun d => cmdGet d.word CmdBuoy.barrier == 1) with
  | none => .next s
  | some d =>
    let e := cmdGet d.word CmdBuoy.round
    .next (s.waitRow d 3 e (fun t => t.enterBarrier (s.cmdContext d) (cmdGet d.word CmdBuoy.buoy) e (.cmd c)))

/-- FENCE (R128, R129). -/
def execFence (c : Nat) (s : State) : Host.Outcome State Fault Refusal :=
  match s.readyCmd c Op.fence with
  | none => .next s
  | some d => if (s.fenced d).isEmpty then .next (s.endCmd d St.success 0) else .next s

/-- INLINE_WRITE (R135, R139, R217). -/
def execInlineWrite (c : Nat) (m : MemResult) (s : State) : Host.Outcome State Fault Refusal :=
  match s.readyCmd c Op.inlineWrite with
  | none => .next s
  | some d =>
    let n := cmdGet d.word CmdInline.length
    let a := cmdGet d.word CmdInline.address
    if n = 0 then .next (s.endCmd d St.success 0)
    else if s.filling a n then .next s
    else if m ≠ .ok then .next ((s.memFault d m).failCmd d m.status)
    else match s.mergeFails a n with
      | some sec => .next ((s.sectorFound sec (some (s.cmdContext d))).failCmd d St.detected)
      | none => .next ((s.put a ((leBytes 40 (cmdGet d.word CmdInline.data)).take n)).endCmd d St.success 0)

/-- NOP: its completion actions alone (R134). -/
def execNop (c : Nat) (s : State) : Host.Outcome State Fault Refusal :=
  match s.readyCmd c Op.nop with
  | none => .next s
  | some d => .next (s.endCmd d St.success 0)

/-! ### DISCARD (R50, R52, R53) -/

/-- A stream that is not FILLING is discarded: released at once, or with its last fetch; UNBORN and RELEASED have nothing to return. -/
def State.discardStream (s : State) (n : Nat) : State :=
  let st := s.stateOf n
  let s := if (s.passCmds n).isEmpty ∨ st = Ss.unborn ∨ st = Ss.released then s else (s.drew 2).endPass n s.freeDetail
  if st = Ss.faulted ∨ st = Ss.aborted then s.release n
  else if st = Ss.held ∨ st = Ss.serving then (s.modAux n (fun a => { a with discard := true })).settleStream n
  else s

/-- DISCARD: with a FILLING stream among those named, none is changed. (log entry 52, DEDUCED.) -/
def execDiscard (c : Nat) (s : State) : Host.Outcome State Fault Refusal :=
  match s.readyCmd c Op.discard with
  | none => .next s
  | some d =>
    let ns := (List.range (cmdGet d.word CmdDiscard.count)).map (· + cmdGet d.word CmdDiscard.stream)
    match ns.find? (fun n => s.stateOf n == Ss.filling) with
    | some n => .next (s.endCmd d St.streamState (s.streamDetail n))
    | none => .next ((ns.foldl State.discardStream s).endCmd d St.success 0)

/-- DISCARD_TASK: it waits while its stream is FILLING. -/
def execDiscardTask (x : TaskRef) (s : State) : Host.Outcome State Fault Refusal :=
  let n := s.tf x.task TaskRec.stream
  .next (s.dispatch x Tk.discard (fun s => s.stateOf n != Ss.filling) (fun s => (s.discardStream n).finishRun x))

/-! ### TASK_COMPLETE -/

/-- TASK_COMPLETE: a task whose work is finished takes its completion actions, its signal edges last, and is DONE (R74, R77, R95, R312). -/
def execTaskComplete (x : TaskRef) (s : State) : Host.Outcome State Fault Refusal :=
  if !((s.run x).any TaskRun.finished) then .next s else
  let t := x.task
  let k := s.tf t TaskRec.taskKind
  let n := s.tf t TaskRec.stream
  if k = Tk.compute then .next (s.routeAll.settleCompute x) else
  let produces : Bool := n != noRef && (k == Tk.stow || (k == Tk.exchange && s.exReceives t))
  let s := if produces ∧ s.cls n = Cl.regen ∧ s.stateOf n = Ss.unborn then s.regenHeld n else s
  let s := if k = Tk.update then s.updateTaskCompletes x
    else if s.writesVersion t then
      let m := s.tf t TaskRec.shard
      (s.setFld (s.tables.shards + 32 * m) ShardRec.currentVersion (s.newVersion x)).serveVersions m
    else s
  .next (s.taskEnds x).routeAll

end Sys2Proof.Machine
end

