-- ==== Sys2Proof/Machine/Pilot.lean ====
section
/-! DEFINITION. COMMAND_DISPATCH: the choice of a queue (R123 to R126, R441), the checks that need more than the command (R131 steps 10 to 12 and the chapters' own), and the events of R109 and R288; and STACK_FAILED (R31). -/

namespace Sys2Proof.Machine

/-! ### What a command touches -/

/-- The bytes of memory that `count` tiles of a range of a stream take. -/
def State.tileSpan (s : State) (n first count : Nat) : Nat := min (4096 * count) (s.rangeBytes n - 4096 * first)

/-- The tile range of a command as first tile and number. -/
def State.cmdRange (s : State) (w : Nat) : Nat × Nat :=
  let first := cmdGet w CmdFetch.tileFirst
  (first, s.cmdTiles (cmdGet w CmdFetch.stream) first (cmdGet w CmdFetch.tileCount))

/-- The parameters of a shard's state record. -/
def State.params (s : State) (a : Nat) : Nat := s.fld a OptRec.rows * s.fld a OptRec.cols

/-- The longest serialised copy that TABLE_BUILD writes: prefix tables, or a record. -/
def State.copyBytes (s : State) (w : Nat) : Nat :=
  let n := cmdGet w CmdTable.stream
  if cmdGet w CmdTable.kind = 0 then (serialTable (s.streamKind n) 0 (List.replicate (kindSymbols (s.streamKind n)) 0)).length
  else recordBytes (s.sf n StreamRec.lossyCb) (s.sf n StreamRec.lossyEnv) (s.ch Ch.frPeriod)

/-- The ranges of memory that a command names, with whether it writes them. -/
def State.cmdMemory (s : State) (w : Nat) : List (Nat × Nat × Bool) :=
  let op := cmdGet w Cmd.opcode
  let r := s.cmdRange w
  let span := s.tileSpan (cmdGet w CmdFetch.stream) r.1 r.2
  if op = Op.stow then [(cmdGet w CmdStow.source, span, false)]
  else if op = Op.fetch ∨ op = Op.recompute then (if cmdGet w CmdFetch.destKind = 0 then [(cmdGet w CmdFetch.dest, span, true)] else [])
  else if op = Op.inlineWrite then [(cmdGet w CmdInline.address, cmdGet w CmdInline.length, true)]
  else if op = Op.tableLoad then [(cmdGet w CmdTable.source, cmdGet w CmdTable.bytes, false)]
  else if op = Op.tableBuild then
    (if cmdGet w CmdTable.source = 0 then [] else [(cmdGet w CmdTable.source, s.copyBytes w, true)])
    ++ (if cmdGet w CmdTable.samples = 0 then [] else [(cmdGet w CmdTable.samples, 4096 * cmdGet w CmdTable.bytes, false)])
  else if op = Op.planLoad then (if cmdGet w CmdPlan.action ≤ 2 then [(cmdGet w CmdPlan.image, 160, false)] else [])
  else if op = Op.digest then [(cmdGet w CmdDigest.base, cmdGet w CmdDigest.bytes, false), (cmdGet w CmdDigest.result, if cmdGet w CmdDigest.bytes = 0 then 0 else 32, true)]
  else if op = Op.update then
    let a := (s.shardOpt (cmdGet w CmdUpdate.shard)).getD 0
    [(cmdGet w CmdUpdate.grad, 4 * s.params a, false)] ++ (if cmdGet w CmdUpdate.args = 0 then [] else [(cmdGet w CmdUpdate.args, 64, false)])
  else if op = Op.exportC then (if cmdGet w CmdExport.bytes = 0 ∨ cmdGet w CmdExport.remote = 1 then [] else [(cmdGet w CmdExport.address, s.exportBytes w, true)])
  else if op = Op.importC ∧ cmdGet w CmdExport.remote = 0 then [(cmdGet w CmdExport.address, cmdGet w CmdExport.bytes, false)]
  else if op = Op.move then
    (if cmdGet w CmdMove.srcReef = 1 then [] else [(cmdGet w CmdMove.src, cmdGet w CmdMove.bytes, false)])
    ++ (if cmdGet w CmdMove.dstReef = 1 then [] else [(cmdGet w CmdMove.dst, cmdGet w CmdMove.bytes, true)])
  else if op = Op.compare then
    let n := cmdGet w CmdCompare.bytes
    let len := if cmdGet w CmdCompare.mode = 1 then 32 * treeNodes 64 (n / 65536) else n
    [(cmdGet w CmdCompare.a, len, false), (cmdGet w CmdCompare.b, len, false)]
  else []

/-- The stream that a command names, if it names one, as the first of its field. -/
def cmdStream (w : Nat) : Option (Nat × Fld) :=
  let op := cmdGet w Cmd.opcode
  if op = Op.stow ∨ op = Op.fetch ∨ op = Op.recompute then some (cmdGet w CmdFetch.stream, CmdFetch.stream)
  else if op = Op.discard then some (cmdGet w CmdDiscard.stream, CmdDiscard.stream)
  else if op = Op.tableBuild ∨ (op = Op.tableLoad ∧ !(cmdGet w CmdTable.kind = 0 ∧ cmdGet w CmdTable.stream = noRef)) then some (cmdGet w CmdTable.stream, CmdTable.stream)
  else if (op = Op.exportC ∨ op = Op.importC) ∧ cmdGet w CmdExport.objectKind = 0 then some (cmdGet w CmdExport.object, CmdExport.object)
  else none

/-- The shard that a command names. -/
def cmdShard (w : Nat) : Option (Nat × Fld) :=
  let op := cmdGet w Cmd.opcode
  if op = Op.update then some (cmdGet w CmdUpdate.shard, CmdUpdate.shard)
  else if (op = Op.exportC ∨ op = Op.importC) ∧ cmdGet w CmdExport.objectKind ≠ 0 then some (cmdGet w CmdExport.object, CmdExport.object)
  else none

/-- The channel that a command names. -/
def cmdChannel (w : Nat) : Option (Nat × Fld) :=
  let op := cmdGet w Cmd.opcode
  if op = Op.stow ∨ op = Op.fetch then some (cmdGet w CmdFetch.channel, CmdFetch.channel)
  else if op = Op.exportC ∨ op = Op.importC then some (cmdGet w CmdExport.channel, CmdExport.channel)
  else if op = Op.move then some (cmdGet w CmdMove.channel, CmdMove.channel)
  else none

/-- The command ring that a FETCH or RECOMPUTE names: its die and number. -/
def cmdRing (w : Nat) : Option (Nat × Nat) :=
  let op := cmdGet w Cmd.opcode
  if (op = Op.fetch ∨ op = Op.recompute) ∧ cmdGet w CmdFetch.destKind ≠ 0 then some (cmdGet w CmdFetch.destKind - 1, cmdGet w CmdFetch.dest % 65536) else none

/-- A command addresses stack `h`: by a range of memory, through a stream with bytes there, or through the slots and state of a shard (R31). -/
def State.cmdOn (s : State) (w h : Nat) : Bool :=
  let op := cmdGet w Cmd.opcode
  (s.cmdMemory w).any (fun r => r.2.1 != 0 && decide (r.1 / 2 ^ 38 ≤ h ∧ h ≤ (r.1 + r.2.1 - 1) / 2 ^ 38))
  || (match cmdStream w with
      | some (n, _) => op != Op.discard && decide (n < s.streamCount) && (s.streamOn n h || (s.cls n == Cl.regen && (s.sourcesOf n).any (fun a => s.streamOn a h)))
      | none => false)
  || (match cmdShard w with
      | some (k, _) => decide (k < s.shardCount) && (s.shf k ShardRec.base / 2 ^ 38 == h || (match s.shardOpt k with
          | some a => s.fld a OptRec.accBase / 2 ^ 38 == h || s.fld a OptRec.stageBase / 2 ^ 38 == h || (s.fld a OptRec.statePlace == 2 && s.fld a OptRec.stateBase / 2 ^ 38 == h)
          | none => false))
      | none => false)

/-! ### Steps 10 to 12 of R131 -/

/-- The names that a command needs bound in its context, each with its field (R131 step 10). -/
def cmdBuoys (w : Nat) : List (Nat × Fld) :=
  let op := cmdGet w Cmd.opcode
  (if (op = Op.signal ∨ op = Op.wait) ∧ cmdGet w CmdBuoy.remote = 0 then [(cmdGet w CmdBuoy.buoy, CmdBuoy.buoy)] else [])
  ++ (if cmdGet w Cmd.signal = 1 then [(cmdGet w Cmd.compBuoy, Cmd.compBuoy)] else [])

/-- The package that a command names. -/
def cmdPackage (w : Nat) : Option (Nat × Fld) :=
  let op := cmdGet w Cmd.opcode
  if (op = Op.signal ∨ op = Op.wait) ∧ cmdGet w CmdBuoy.remote = 1 then some (cmdGet w CmdBuoy.package, CmdBuoy.package)
  else if (op = Op.exportC ∨ op = Op.importC) ∧ cmdGet w CmdExport.remote = 1 then some (cmdGet w CmdExport.package, CmdExport.package)
  else none

/-- A program that exists: VALID in the registry, or a listed built-in (R249, R250). -/
def State.programThere (s : State) (p : Nat) : Bool := if 0xFF00 ≤ p then builtIn p else s.progValid p

/-- Each object that a command names, with its field and whether it exists and is in service (R131 step 10). A stored stream of a context with no key is none that a STOW may name (R211). -/
def State.cmdNamed (s : State) (ctx w : Nat) : List (Fld × Bool) :=
  let op := cmdGet w Cmd.opcode
  let streams := match cmdStream w with
    | some (n, f) => [(f, decide (n + (if op = Op.discard then max 1 (cmdGet w CmdDiscard.count) else 1) ≤ s.streamCount)
        && !(op == Op.stow && s.cls n != Cl.drop && s.cls n != Cl.regen && s.sf n StreamRec.place != Pc.quay && !bit (s.contexts.getD ctx ⟨0, 0, 0, 0⟩).keysSet 0))]
    | none => []
  let shards := match cmdShard w with | some (k, f) => [(f, decide (k < s.shardCount) && (s.shardOpt k).isSome)] | none => []
  let channels := match cmdChannel w with | some (c, f) => [(f, decide (c < s.ch Ch.chtableCount) && s.chf c ChanRec.state != Cn.disabled)] | none => []
  let engines := match cmdEngine w with | some (e, f) => [(f, decide (e < 40) && s.ch (Ch.engineState + 256 * e) != 2)] | none => []
  let rings := match cmdRing w with | some (d, r) => [(CmdFetch.dest, decide (5 ≤ r) && s.ringOn d r)] | none => []
  let packages := match cmdPackage w with | some (p, f) => [(f, s.pkgValid p)] | none => []
  let programs := if op = Op.update then [(CmdUpdate.program, s.programThere (cmdGet w CmdUpdate.program))] else []
  let reef := if op = Op.move then
      (if cmdGet w CmdMove.srcReef = 1 then [(CmdMove.src, s.reefOk (cmdGet w CmdMove.src) (cmdGet w CmdMove.bytes))] else [])
      ++ (if cmdGet w CmdMove.dstReef = 1 then [(CmdMove.dst, s.reefOk (cmdGet w CmdMove.dst) (cmdGet w CmdMove.bytes))] else [])
    else []
  let buoys := (cmdBuoys w).map (fun b => (b.2, (s.findBuoy ctx b.1).isSome))
  streams ++ shards ++ channels ++ engines ++ rings ++ packages ++ programs ++ reef ++ buoys

/-- The objects that a command names belong to its context (R131 step 11). -/
def State.cmdOwns (s : State) (ctx w : Nat) : Bool :=
  let op := cmdGet w Cmd.opcode
  let count := if op = Op.discard then cmdGet w CmdDiscard.count else 1
  (match cmdStream w with | some (n, _) => (List.range count).all (fun i => s.sf (n + i) StreamRec.context == ctx) | none => true)
  && (match cmdChannel w with | some (c, _) => s.chf c ChanRec.context == ctx | none => true)
  && (match cmdRing w with | some (d, r) => s.rgf d r RingRec.context == ctx | none => true)
  && (op != Op.update || 0xFF00 ≤ cmdGet w CmdUpdate.program || ProgRec.context.get (s.prog (cmdGet w CmdUpdate.program)) == ctx)

/-- The state that a command finds its object in (R131 step 12, R53, R55, R97, R98, R103, R207, R235, R249, R321). -/
def State.cmdState (s : State) (ctx w : Nat) : Option (Nat × Nat) :=
  let op := cmdGet w Cmd.opcode
  let n := cmdGet w CmdFetch.stream
  let st := s.stateOf n
  let wrong := fun (m : Nat) => some (St.streamState, s.streamDetail m)
  if op = Op.stow then (if st = Ss.unborn ∨ st = Ss.released ∨ st = Ss.filling then none else wrong n)
  else if op = Op.fetch then (if s.fetchable n then none else wrong n)
  else if op = Op.recompute then (if s.cls n = Cl.regen ∧ s.fetchable n then none else wrong n)
  else if op = Op.discard then
    match ((List.range (cmdGet w CmdDiscard.count)).map (· + n)).find? (fun m => s.stateOf m == Ss.filling) with
    | some m => wrong m
    | none => none
  else if op = Op.tableLoad ∨ op = Op.tableBuild then
    let m := cmdGet w CmdTable.stream
    if cmdGet w CmdTable.kind = 1 then (if s.cls m = Cl.lossy ∨ s.sf m StreamRec.fallback ≠ 0 then none else wrong m)
    else if op = Op.tableLoad ∧ m = noRef then (if ctx = s.ch Ch.planOwner then none else some (St.notPlanOwner, s.ch Ch.planOwner))
    else if hasIndex (s.cls m) then none else wrong m
  else if op = Op.planLoad then
    if ctx ≠ s.ch Ch.planOwner then some (St.notPlanOwner, s.ch Ch.planOwner)
    else if !s.actionAllowed (cmdGet w CmdPlan.action) then some (St.planState, s.planDetail)
    else if cmdGet w CmdPlan.action = 4 ∧ s.anyMarked then some (St.restartDenied, 0) else none
  else if op = Op.update then
    if s.ch Ch.planState ≠ Pl.loaded ∧ s.ch Ch.planState ≠ Pl.stopped then some (St.planState, s.planDetail)
    else if !s.owns (cmdGet w CmdUpdate.shard) ∨ 0xFF00 ≤ cmdGet w CmdUpdate.program ∨ ProgRec.kind.get (s.prog (cmdGet w CmdUpdate.program)) ≠ 4 then
      some (St.streamState, s.freeDetail % 128)
    else none
  else if op = Op.exportC ∨ op = Op.importC then s.replicaState w
  else none

/-- A FETCH with TRANSPOSE meets the conditions of R178. -/
def State.transposeOk (s : State) (w : Nat) : Bool :=
  match cmdRing w with
  | none => false
  | some (d, r) =>
    let n := cmdGet w CmdFetch.stream
    let z := elemBytes (s.sf n StreamRec.elemType)
    let band := 32 * s.rgf d r RingRec.cols
    let t := s.cmdRange w
    band != 0 && (4096 * t.1 / z) % band == 0 && (s.tileSpan n t.1 t.2 / z) % band == 0 && decide (band * z ≤ 1048576) && cmdGet w CmdFetch.toDrain == 0

/-- The length that breaks a bound of the object (R71, R76, R178, R187, R235). -/
def State.cmdBounds (s : State) (w : Nat) : Option Fld :=
  let op := cmdGet w Cmd.opcode
  if op = Op.stow ∨ op = Op.fetch ∨ op = Op.recompute then
    let n := cmdGet w CmdFetch.stream
    let t := s.cmdRange w
    let ahead := s.dispatched.dropLast.filter (fun e => e.stage != .resetEnded && cmdGet e.word Cmd.opcode == Op.stow && cmdGet e.word CmdStow.stream == n)
    let next := (ahead.map (fun e => (s.cmdRange e.word).1 + (s.cmdRange e.word).2)).foldl max (if s.stateOf n = Ss.filling then (s.aux n).nextTile else 0)
    if s.rangeTiles n < t.1 then some CmdFetch.tileFirst
    else if s.rangeTiles n < t.1 + t.2 then some CmdFetch.tileCount
    else if op = Op.stow ∧ t.2 ≠ 0 ∧ t.1 ≠ next then some CmdFetch.tileFirst
    else if op ≠ Op.stow ∧ cmdGet w CmdFetch.transpose = 1 ∧ t.2 ≠ 0 ∧ !s.transposeOk w then some CmdFetch.transpose
    else none
  else if (op = Op.exportC ∨ op = Op.importC) ∧ !s.replicaFits w then some CmdExport.bytes
  else if op = Op.tableLoad ∧ cmdGet w CmdTable.kind = 1 ∧ 0 < cmdGet w CmdTable.bytes ∧ cmdGet w CmdTable.bytes < 64 then some CmdTable.bytes
  else if op = Op.tableBuild ∧ cmdGet w CmdTable.kind = 1 ∧ cmdGet w CmdTable.samples = 0 ∧ 1024 < cmdGet w CmdTable.bytes then some CmdTable.bytes
  else none

/-- The lowest byte that makes a command PROTECTED (R48, R139, R329, R386). -/
def State.cmdProtected (s : State) (w : Nat) : Option Nat :=
  let reef := if cmdGet w Cmd.opcode = Op.move ∧ cmdGet w CmdMove.dstReef = 1 ∧ s.reefProtects (cmdGet w CmdMove.dst) (cmdGet w CmdMove.bytes) then [max (cmdGet w CmdMove.dst) (s.ch Ch.swBytes)] else []
  ((s.cmdMemory w).filterMap (fun r => s.offending r.1 r.2.1 r.2.2) ++ reef).foldl (fun m x => match m with | none => some x | some y => some (min x y)) none

/-- Why a command whose own bits are sound is rejected: its status and DETAIL (R131 steps 10 to 12, and what the chapters add). -/
def State.cmdRejected (s : State) (ctx w : Nat) : Option (Nat × Nat) :=
  match ((s.cmdNamed ctx w).filter (fun p => !p.2)).map (fun p => p.1.lo) with
  | lo :: los => some (St.noObject, los.foldl min lo)
  | [] =>
    if !s.cmdOwns ctx w then some (St.objectOwned, 0)
    else match s.cmdState ctx w with
    | some r => some r
    | none => match s.cmdBounds w with
      | some f => some (St.badLength, f.lo)
      | none => (s.cmdProtected w).map (fun a => (St.protected_, a % 2 ^ 48))

/-! ### The events of accepted commands -/

/-- Bytes `a` to `a + k` hold blocks or index entries of stream `n`. -/
def State.inStream (s : State) (a k n : Nat) : Bool :=
  ((s.residence n == Rs.harbour || s.residence n == Rs.toReef) && (List.range 20).any (fun h => overlap a k (s.segment n h) (32 * s.segGranules n)))
  || (hasIndex (s.cls n) && s.sf n StreamRec.indexBase != 0 && overlap a k (s.sf n StreamRec.indexBase) (8 * s.tiles n))

/-- Memory that a command writes meets an object, as `hits` says of a range. -/
def State.cmdHits (s : State) (w : Nat) (hits : Nat → Nat → Bool) : Bool := (s.cmdMemory w).any (fun r => r.2.2 && r.2.1 != 0 && hits r.1 r.2.1)

/-- A command writes stream `n`, by naming it or through memory (R109). A TABLE_LOAD counts once its table is accepted (R208). -/
def State.writesStream (s : State) (w n : Nat) : Bool :=
  let op := cmdGet w Cmd.opcode
  (op == Op.stow && cmdGet w CmdStow.stream == n && (s.cmdRange w).2 != 0)
  || (op == Op.discard && decide (cmdGet w CmdDiscard.stream ≤ n ∧ n < cmdGet w CmdDiscard.stream + cmdGet w CmdDiscard.count))
  || (op == Op.tableBuild && cmdGet w CmdTable.stream == n)
  || (op == Op.importC && cmdGet w CmdExport.objectKind == 0 && cmdGet w CmdExport.object == n && cmdGet w CmdExport.bytes != 0)
  || s.cmdHits w (fun a k => s.inStream a k n)

/-- A command writes shard `k`, by naming it or through memory (R109). -/
def State.writesShard (s : State) (w k : Nat) : Bool :=
  let op := cmdGet w Cmd.opcode
  (op == Op.update && cmdGet w CmdUpdate.shard == k)
  || (op == Op.importC && cmdGet w CmdExport.objectKind != 0 && cmdGet w CmdExport.object == k && cmdGet w CmdExport.bytes != 0)
  || s.cmdHits w (fun a n => overlap a n (s.shf k ShardRec.base) (s.shf k ShardRec.slots * s.shf k ShardRec.slotBytes))

/-- The event of an accepted command that writes objects of the plan that is RUNNING (R109). -/
def State.cmdEvents (s : State) (q ctx w : Nat) : State :=
  if (List.range s.streamCount).any (s.writesStream w) || (List.range s.shardCount).any (s.writesShard w) then
    s.overlapEvent q ctx (cmdGet w Cmd.opcode) (s.writesStream w) (s.writesShard w)
  else s

/-! ### The choice of a queue -/

/-- The submission slot that SQ_HEAD names. -/
def State.headSlot (s : State) (q : Nat) : Nat := s.q q QueueDesc.sqBase + 64 * (s.q q QueueDesc.sqHead % s.ringSize q)

/-- The class in which the head command of a queue ranks (R126); that of the queue's URGENCY_CAP where its slot cannot be read. -/
def State.headClass (s : State) (q : Nat) : Nat :=
  let ucap := s.q q QueueDesc.urgencyCap
  if (s.failing (s.headSlot q) 64).isSome then ucap else
  let w := s.headCommand q
  if cmdGet w Cmd.version = s.ch Ch.genActive ∧ urgencyOk w ucap then cmdGet w Cmd.urgency else ucap

/-- Queues that offer a command: ENABLED, not empty, no FENCE outstanding, their context ACTIVE, the class not paused, the slot not in a region that is FILLING (R124, R128, R217, R441, R466). -/
def State.offering (s : State) : List Nat :=
  s.openQueues.filter (fun q => s.queueState q == Qs.enabled && s.q q QueueDesc.sqHead != s.q q QueueDesc.sqTail
    && (s.outstanding q).all (fun d => cmdGet d.word Cmd.opcode != Op.fence) && s.contextState (s.q q QueueDesc.context) == 1
    && !s.filling (s.headSlot q) 64 && !s.paused (s.headClass q))

/-- The queue served: the most urgent class, and within it the next after the one served last (R126). -/
def State.nextQueue (s : State) (qs : List Nat) : Option (Nat × Nat) :=
  (List.range 3).findSome? (fun c =>
    let mine := qs.filter (fun q => s.headClass q == c)
    let last := s.roundRobin.getD c 0
    match mine.find? (fun q => last < q) with
    | some q => some (c, q)
    | none => mine.head?.map (fun q => (c, q)))

/-- The head command of a queue is copied, checked, and rejected or handed to its executor; `slot` is what the write of its completion record will meet. -/
def State.dispatchFrom (s : State) (q : Nat) (slot : MemResult) : State :=
  let w := s.headCommand q
  let d : Dispatched := ⟨s.nextTag, q, w, .ready, 0, slot⟩
  let s := s.setQ q QueueDesc.sqHead ((s.q q QueueDesc.sqHead + 1) % 65536)
  let s : State := { s with dispatched := s.dispatched ++ [d], nextTag := s.nextTag + 1 }
  let ctx := s.q q QueueDesc.context
  match cmdFormat (s.ch Ch.genActive) ctx (s.q q QueueDesc.urgencyCap) w with
  | some (st, detail) => s.endCmd d st detail
  | none => match s.cmdRejected ctx w with
    | some (st, detail) => s.endCmd d st detail
    | none => if s.lostStacks.any (s.cmdOn w) then s.endWith d St.stackLost 0 else s.cmdEvents q ctx w

/-- COMMAND_DISPATCH: the Pilot, awake, takes one command. A slot that cannot be read puts its queue in ERROR (R115, R484). -/
def execCommandDispatch (m : DispatchAnswers) (s : State) : Host.Outcome State Fault Refusal :=
  if !s.pilotRuns ∨ s.ch Ch.powerState ≠ 7 then .next s else
  let qs := s.offering
  let held := qs.filter (fun q => !s.slotFree q)
  let new := held.filter (fun q => !s.cqWaiting.contains q)
  let s := s.countSticky Ch.cqWaits new.length
  let s : State := { s with cqWaiting := held }
  match s.nextQueue (qs.filter (fun q => !held.contains q)) with
  | none => .next s
  | some (c, q) =>
    let s : State := { s with roundRobin := s.roundRobin.set c q }
    if m.head ≠ .ok then .next (s.queueError q 3)
    else match s.failing (s.headSlot q) 64 with
      | some sec => .next ((s.sectorFound sec (some (s.q q QueueDesc.context))).queueError q 3)
      | none => .next (s.dispatchFrom q m.slot)

/-! ### STACK_FAILED (R31, R220, R243) -/

/-- A command in progress runs on an engine of the stack, or addresses the stack. -/
def State.cmdLost (s : State) (n : Nat) (d : Dispatched) : Bool :=
  d.stage != .resetEnded && ((match cmdEngine d.word with | some (e, _) => e / 2 == n | none => false) || s.cmdOn d.word n)

/-- A FILLING stream that no plan task was filling and that has stored a tile on the stack is FAULTED (R220; log entry 54, DEDUCED). -/
def State.faultFilling (s : State) (k n : Nat) : State :=
  if (s.aux k).coded.getD n 0 = 0 then s else (s.abortStream k).setSf k StreamRec.state Ss.faulted

/-- STACK_FAILED: Skerry and engines leave service; tasks and commands that address the stack end STACK_LOST; the streams with bytes on it are FAULTED. -/
def execStackFailed (n : Nat) (s : State) : Host.Outcome State Fault Refusal :=
  if 20 ≤ n ∨ s.ch (Ch.sliceState + 256 * n) = 1 then .next s else
  let xs := s.inOrder.filter (fun x => (s.taskState x == Ts.running || s.taskState x == Ts.pending) && s.taskOn x.task n)
  let ds := s.dispatched.filter (s.cmdLost n)
  let held := (List.range s.streamCount).filter (fun k => s.stateOf k != Ss.unborn && s.stateOf k != Ss.released && s.streamOn k n)
  let ev := s.nextEvent
  let s := (((s.setCh (Ch.sliceState + 256 * n) 1).setCh (Ch.engineState + 256 * (2 * n)) 2).setCh (Ch.engineState + 256 * (2 * n + 1)) 2).raise ⟨0x0303, n, xs.length, 0, none, []⟩
  let s := ds.foldl (fun (s : State) d => s.cancelCmd d St.stackLost ev) s
  let s := s.abortGroups xs St.stackLost
  let s := held.foldl (fun (s : State) k => if s.stateOf k = Ss.filling then s.faultFilling k n else s.faultStream k St.stackLost) s
  .next s.recheckSlips

end Sys2Proof.Machine
end

