-- ==== Sys2Proof/Machine/PlanCheck.lean ====
section
/-! DEFINITION. The validation of a plan image (R99, R100): header, digest, section limits, the five sections record by record, and the checks over the whole plan, in the order of R99. The image is read in place, as `State.asLoaded` sees it; the state itself gives what is bound, assigned and in service. -/

namespace Sys2Proof.Machine

/-! ### Failures (R100) -/

abbrev Ls.header : Nat := 0x0001
abbrev Ls.digest : Nat := 0x0002
abbrev Ls.section_ : Nat := 0x0003
abbrev Ls.count : Nat := 0x0004
abbrev Ls.rsvd : Nat := 0x0005
abbrev Ls.encoding : Nat := 0x0006
abbrev Ls.width : Nat := 0x0007
abbrev Ls.stream : Nat := 0x0008
abbrev Ls.counts : Nat := 0x0009
abbrev Ls.buoys : Nat := 0x000A
abbrev Ls.slip : Nat := 0x000B
abbrev Ls.version : Nat := 0x000C
abbrev Ls.charges : Nat := 0x000D
abbrev Ls.unavailable : Nat := 0x000E
abbrev Ls.tableSpace : Nat := 0x000F
abbrev Ls.epoch : Nat := 0x0010
abbrev Ls.read : Nat := 0x0011

/-- A failure: LOAD_STATUS, FAULT_SECTION, FAULT_RECORD, FAULT_BIT. -/
abbrev PlanFail : Type := Nat × Nat × Nat × Nat

/-- A failure of a field of a record: FAULT_BIT and LOAD_STATUS. -/
abbrev FieldFail : Type := Nat × Nat

/-- The field fails with a code where the condition holds. -/
def failIf (bad : Bool) (f : Fld) (code : Nat) : List FieldFail := if bad then [(f.lo, code)] else []

/-- The lowest field that failed; of two failures of one field, the one listed first (R99, R100). -/
def lowestFail (l : List FieldFail) : Option FieldFail :=
  l.foldl (fun (m : Option FieldFail) e => match m with
    | none => some e
    | some b => if e.1 < b.1 then some e else some b) none

/-- A section's records are checked from the lowest on (R99). -/
def sectionFail (sec n : Nat) (f : Nat → List FieldFail) : Option PlanFail :=
  (List.range n).findSome? (fun i => (lowestFail (f i)).map (fun b => (b.2, sec, i, b.1)))

/-- A whole-plan check: what each task shows, from the lowest on (R99). -/
def wholeFail (n code : Nat) (f : Nat → List Nat) : Option PlanFail :=
  (List.range n).findSome? (fun t => ((f t).head?).map (fun b => (code, 6, t, b)))

/-- A field is named where the condition holds. -/
def nameIf (bad : Bool) (f : Fld) : List Nat := if bad then [f.lo] else []

/-- Non-zero RSVD and C fields (R4, R43). -/
def reservedFails (w : Nat) (rsvd cs : List Fld) : List FieldFail := (rsvd ++ cs).flatMap (fun f => failIf (f.get w != 0) f Ls.rsvd)

/-! ### Header, digest and section limits (R68 to R70, R105) -/

/-- The fields that identify and size the image (R68, R99). -/
def identityFails (w : Nat) : List FieldFail :=
  failIf (PlanHdr.planMagic.get w != 0x4E414C50) PlanHdr.planMagic Ls.header
  ++ failIf (PlanHdr.formatGen.get w != 3) PlanHdr.formatGen Ls.header
  ++ failIf (PlanHdr.headerBytes.get w != 160) PlanHdr.headerBytes Ls.header
  ++ failIf (decide (PlanHdr.imageBytes.get w < 160)) PlanHdr.imageBytes Ls.header

/-- IMAGE_DIGEST is read as 32 bytes in address order; it and the C fields count as zero (R70). -/
def imageDigest (hdr rest : List Byte) : List Byte :=
  let w := (PlanHdr.imageDigest :: PlanHdr.cFields).foldl (fun w (f : Fld) => f.set w 0) (leNat hdr)
  sha256 (leBytes 160 w ++ rest)

/-- The sections of a header: offset field, count field, bytes of a record, least and largest count (R69). -/
def planSections : List (Fld × Fld × Nat × Nat × Nat) :=
  [(PlanHdr.streamOffset, PlanHdr.streamCount, 64, 0, 262144), (PlanHdr.taskOffset, PlanHdr.taskCount, 64, 1, 4194304),
   (PlanHdr.edgeOffset, PlanHdr.edgeCount, 16, 0, 16777216), (PlanHdr.slipOffset, PlanHdr.slipCount, 32, 0, 1048576),
   (PlanHdr.shardOffset, PlanHdr.shardCount, 32, 0, 65536)]

/-- A section lies well: offset zero when empty, else on 64 bytes, inside the image, clear of the header and of every other section (R69). -/
def sectionPlaced (w : Nat) (x : Fld × Fld × Nat × Nat × Nat) : Bool :=
  let bytes := fun (y : Fld × Fld × Nat × Nat × Nat) => y.2.1.get w * y.2.2.1
  let off := x.1.get w
  if bytes x = 0 then off == 0
  else off % 64 == 0 && decide (160 ≤ off ∧ off + bytes x ≤ PlanHdr.imageBytes.get w)
    && planSections.all (fun y => y.1.lo == x.1.lo || bytes y == 0 || !overlap off (bytes x) (y.1.get w) (bytes y))

/-- The other header fields (R4, R43, R68, R102, R105): `loaded` is the epoch of the plan that a REPLACE follows. -/
def headerFails (w : Nat) (loaded : Option Nat) : List FieldFail :=
  let epoch := PlanHdr.planEpoch.get w
  let group := PlanHdr.groupPackages.get w
  failIf (epoch == 0 || loaded.any (fun e => decide (epoch ≤ e))) PlanHdr.planEpoch Ls.epoch
  ++ failIf (decide (group ≤ PlanHdr.packageIndex.get w)) PlanHdr.packageIndex Ls.width
  ++ failIf (group == 0 || decide (4096 < group)) PlanHdr.groupPackages Ls.count
  ++ failIf (decide (2 ≤ PlanHdr.abortScope.get w)) PlanHdr.abortScope Ls.encoding
  ++ reservedFails w PlanHdr.rsvd PlanHdr.cFields

/-- Counts out of range, and then sections out of place (R69). -/
def limitFails (w : Nat) : List FieldFail :=
  planSections.flatMap (fun x => failIf (decide (x.2.1.get w < x.2.2.2.1 ∨ x.2.2.2.2 < x.2.1.get w)) x.2.1 Ls.count
    ++ failIf (!sectionPlaced w x) x.1 Ls.section_)

/-! ### Streams (R33 to R38, R42 to R44, R47, R64, R221, R250) -/


/-- The needs a class satisfies (R36). -/
def needsOf (cls : Nat) : Nat := if cls = Cl.deriv then 4 else if cls = Cl.proj then 8 else if cls = Cl.lossy then 2 else if cls = Cl.drop then 0 else 7

/-- The places a class may have (R35). -/
def placesOf (cls : Nat) : List Nat :=
  if cls = Cl.drop ∨ cls = Cl.regen then [Pc.none] else if cls = Cl.raw then [Pc.quay, Pc.harbour, Pc.reef] else [Pc.harbour, Pc.reef]

/-- FORM_PARAM suits the class and form (R38, R44). -/
def formParamOk (w : Nat) : Bool :=
  let cls := StreamRec.classF.get w
  let form := StreamRec.form.get w
  let p := StreamRec.formParam.get w
  if cls = Cl.proj then p != 0 && recElems w % p == 0
  else if cls ≠ Cl.deriv then p == 0
  else if form = 2 ∨ form = 0x11 then true
  else if form = 3 then decide (0 < p ∧ p < 0x7F80)
  else if form = 0x10 then decide (1 ≤ p ∧ p ≤ 16)
  else p == 0

/-- A program that is VALID or a listed built-in (R249). -/
def State.programKind (s : State) (p : Nat) : Nat :=
  if p = 0xFF20 then Kd.matrix else if p = 0xFF30 then 0 else if 0xFF00 ≤ p then Kd.element else ProgRec.kind.get (s.prog p)

def State.programSuits (s : State) (p ctx : Nat) (update : Bool) : Bool :=
  let k := s.programKind p
  (decide (0xFF00 ≤ p) || ProgRec.context.get (s.prog p) == ctx)
  && (if update then k == Kd.update else k == Kd.element || k == Kd.row || k == Kd.matrix)

/-- A program named for a context fails R249: 0x0007 where it does not exist, 0x0008 where it does not suit. -/
def State.programFails249 (s : State) (p ctx : Nat) (update : Bool) (f : Fld) : List FieldFail :=
  failIf (!s.programThere p) f Ls.width ++ failIf (!s.programSuits p ctx update) f Ls.stream

/-- A source of a stream: it exists, and for a REGEN stream its class and context are right (R8, R47). -/
def State.refFails (v : State) (n : Nat) (f : Fld) : List FieldFail :=
  let m := v.sf n f
  let c := v.sf m StreamRec.classF
  failIf (m != noRef && decide (v.streamCount ≤ m)) f Ls.width
  ++ failIf (v.sf n StreamRec.classF == Cl.regen && m != noRef
      && (!(c == Cl.exact || c == Cl.raw || c == Cl.regen) || v.sf m StreamRec.context != v.sf n StreamRec.context)) f Ls.stream

/-- A stream record. Where CLASS or FORM is itself reserved, what depends on it is not checked. -/
def State.streamFails (s v : State) (n : Nat) : List FieldFail :=
  let w := v.streamRec n
  let g := fun (f : Fld) => f.get w
  let cls := g StreamRec.classF
  let form := g StreamRec.form
  let et := g StreamRec.elemType
  let known := decide (1 ≤ cls ∧ cls ≤ 7)
  let typed := decide (1 ≤ et ∧ et ≤ 4)
  let formed := form == 0 || listedForm form
  let back := g StreamRec.fallback
  let need := g StreamRec.need
  let drop := cls == Cl.drop
  let param := known && formed && typed && !formParamOk w
  let size := typed && g StreamRec.byteLength % elemBytes et != 0
  let fixed := (cls == Cl.lossy || back != 0) && !(et == 1 || et == 2)
  let prog := (cls == Cl.deriv && formed && g StreamRec.program != 0xFF00 + form) || (cls == Cl.proj && g StreamRec.program != 0xFF20)
  let fallen := back != 0 && !((cls == Cl.exact || cls == Cl.raw) && 2 ≤ g StreamRec.place && !bit need 0 && !bit need 2)
  reservedFails w StreamRec.rsvd StreamRec.cFields
  ++ failIf (!known) StreamRec.classF Ls.encoding
  ++ failIf (!typed) StreamRec.elemType Ls.encoding
  ++ failIf (!formed) StreamRec.form Ls.encoding
  ++ v.refFails n StreamRec.sourceA ++ v.refFails n StreamRec.sourceB
  ++ failIf (cls == Cl.regen && g StreamRec.sourceA == noRef) StreamRec.sourceA Ls.stream
  ++ (if cls = Cl.regen then s.programFails249 (g StreamRec.program) (g StreamRec.context) false StreamRec.program else [])
  ++ failIf param StreamRec.formParam Ls.stream
  ++ failIf (known && (g StreamRec.lossyRate != 0) != (cls == Cl.lossy)) StreamRec.lossyRate Ls.stream
  ++ failIf (known && (g StreamRec.rank != 0) != (cls == Cl.proj)) StreamRec.rank Ls.stream
  ++ failIf (known && (need &&& needsOf cls != need || (need == 0) != drop)) StreamRec.need Ls.stream
  ++ failIf (known && (form != 0) != (cls == Cl.deriv)) StreamRec.form Ls.stream
  ++ failIf fixed StreamRec.elemType Ls.stream
  ++ failIf (known && fallen) StreamRec.fallback Ls.stream
  ++ failIf (known && !(placesOf cls).contains (g StreamRec.place)) StreamRec.place Ls.stream
  ++ failIf prog StreamRec.program Ls.stream
  ++ failIf (known && (g StreamRec.consumers == 0) != drop) StreamRec.consumers Ls.stream
  ++ failIf size StreamRec.byteLength Ls.stream
  ++ failIf (known && g StreamRec.philoxCtr != 0 && !(cls == Cl.regen || form == 0x11)) StreamRec.philoxCtr Ls.stream

/-! ### Tasks (R71 to R73, R76, R143, R173, R178, R180, R249, R269, R272, R404) -/

/-- The executor kind of a task kind (R72); 0 for a reserved kind. -/
def runsOn (k : Nat) : Nat := ([0, 1, 2, 3, 4, 4, 2, 3, 3, 5, 5, 3, 4, 5] : List Nat).getD k 0

/-- The executors of each kind (R73). -/
def kindSize (e : Nat) : Nat := ([0, 2, 2, 40, 256, 1] : List Nat).getD e 0

/-- The task moves a whole stream to or from another package (R404). -/
def State.movesStream (v : State) (t : Nat) : Bool := v.tf t TaskRec.taskKind == Tk.exchange && v.tf t TaskRec.stream != noRef

/-- The task names a stream record in STREAM. -/
def State.taskStream (v : State) (t : Nat) : Option Nat := let n := v.tf t TaskRec.stream; if n < v.streamCount then some n else none

/-- A REDUCE in ingest mode (R269). -/
def State.ingests (v : State) (t : Nat) : Bool :=
  v.tf t TaskRec.taskKind == Tk.reduce && (v.taskStream t).any (fun n => !v.storedMode n)

/-- A ring-0 task (R173): a STOW that moves data, or an ingest-mode REDUCE. -/
def State.ring0Task (v : State) (t : Nat) : Bool :=
  (v.tf t TaskRec.taskKind == Tk.stow && (v.taskStream t).any (fun n => v.sf n StreamRec.classF != Cl.regen)) || v.ingests t

/-- PRODUCER is a COMPUTE task of the stream's die (R173). -/
def State.producerOk (v : State) (t : Nat) : Bool :=
  let p := v.tf t TaskRec.producer
  decide (p < v.taskCount) && v.tf p TaskRec.taskKind == Tk.compute
  && (v.taskStream t).any (fun n => v.tf p TaskRec.execIndex == v.sf n StreamRec.die)

/-- Two streams agree in CONTEXT, BYTE_LENGTH and ELEM_TYPE (R269). -/
def State.sameTensor (v : State) (n m : Nat) : Bool :=
  [StreamRec.context, StreamRec.byteLength, StreamRec.elemType].all (fun f => v.sf n f == v.sf m f)

/-- The source of a stored-mode REDUCE (R269). -/
def State.storedSourceOk (v : State) (n : Nat) : Bool :=
  let m := v.sf n StreamRec.sourceA
  let c := v.sf m StreamRec.classF
  decide (m < v.streamCount) && v.sameTensor n m
  && (c == Cl.exact || c == Cl.raw || c == Cl.regen || (c == Cl.lossy && v.sf n StreamRec.classF == Cl.proj))

/-- The tapped tensor of an ingest-mode REDUCE (R269): of the same die, context, length and type, with a STOW of the same PRODUCER. -/
def State.tapOk (v : State) (t n : Nat) : Bool :=
  let m := v.tf t TaskRec.streamB
  v.sf m StreamRec.die == v.sf n StreamRec.die && v.sameTensor n m
  && (List.range v.taskCount).any (fun u => v.tf u TaskRec.taskKind == Tk.stow && v.tf u TaskRec.stream == m && v.tf u TaskRec.producer == v.tf t TaskRec.producer)

/-- A transposed FEED's range suits the COLS of each ring it may use: rings 1 and 2 of its die, or ring 4 for a weight feed (R172, R178). -/
def State.feedTransposeOk (s v : State) (t : Nat) : Bool :=
  let d := v.tf t TaskRec.execIndex
  let first := v.tf t TaskRec.tileFirst
  let count := v.tf t TaskRec.tileCount
  let part := fun (cols z total : Nat) =>
    let lo := 4096 * first
    let hi := if count = noRef then total else min total (4096 * (first + count))
    cols != 0 && (lo / z) % (32 * cols) == 0 && ((hi - lo) / z) % (32 * cols) == 0 && decide (32 * cols * z ≤ 1048576)
  v.tf t TaskRec.toDrain == 0 &&
  match v.taskStream t with
  | some n =>
    let fits := fun (r : Nat) => part (s.rgf d r RingRec.cols) (if v.sf n StreamRec.classF = Cl.proj then 2 else elemBytes (v.sf n StreamRec.elemType)) (recStoredBytes (v.sf n StreamRec.classF) (v.streamRec n))
    fits 1 && (!s.ringOn d 2 || fits 2)
  | none =>
    let k := v.tf t TaskRec.shard
    part (s.rgf d 4 RingRec.cols) (elemBytes (v.weightType k)) (v.shf k ShardRec.slotBytes)

/-- The channel serves the task: its lane, its context, enabled (R143). -/
def State.channelSuits (s v : State) (t : Nat) : Bool :=
  let c := v.tf t TaskRec.channel
  decide (c < s.ch Ch.chtableCount) && s.chf c ChanRec.lane == v.tf t TaskRec.execIndex
  && s.chf c ChanRec.context == v.tf t TaskRec.context && s.chf c ChanRec.state != Cn.disabled

/-- A reference of a task to a record: it is none, or the record exists (R8). -/
def danglingRef (v n : Nat) : Bool := v != noRef && decide (n ≤ v)

/-- The kinds whose STREAM must name a stream, and those for which it must name none (R72). -/
def needsStream (k : Nat) : Bool := [Tk.stow, Tk.reduce, Tk.reefWrite, Tk.prefetch, Tk.recompute, Tk.discard].contains k
def takesNoStream (k : Nat) : Bool := [Tk.update, Tk.snapshot, Tk.digest, Tk.barrier].contains k

/-- What depends on the kind and the stream of a task. -/
def State.taskKindFails (s v : State) (t : Nat) : List FieldFail :=
  let g := fun (f : Fld) => v.tf t f
  let k := g TaskRec.taskKind
  let n := g TaskRec.stream
  let sh := g TaskRec.shard
  let cls := (v.taskStream t).map (fun n => v.sf n StreamRec.classF)
  let ring0 := v.ring0Task t
  let prog := k == Tk.reduce || k == Tk.recompute || k == Tk.update
  let proj := k == Tk.reduce && cls == some Cl.proj
  let small := (v.taskStream t).any (fun n => decide (v.shf sh ShardRec.slotBytes < v.sf n StreamRec.formParam * v.sf n StreamRec.rank * 2))
  let past := !v.movesStream t && (v.taskStream t).any (fun n => g TaskRec.tileCount != noRef && decide (v.rangeTiles n < g TaskRec.tileFirst + g TaskRec.tileCount))
  let reduced := k == Tk.reduce && (cls == some Cl.deriv || cls == some Cl.proj)
  let stored := reduced && v.storedMode n && !v.storedSourceOk n
  let ingestB := v.ingests t && v.sf n StreamRec.sourceB != noRef
  let tap := v.ingests t && g TaskRec.streamB != noRef && !v.tapOk t n
  let neither := k == Tk.feed && (n == noRef) == (sh == noRef)
  let noShard := (k == Tk.update || k == Tk.digest || (k == Tk.exchange && n == noRef)) && sh == noRef
  failIf ((g TaskRec.lookahead == 0) == (k == Tk.feed || k == Tk.prefetch)) TaskRec.lookahead Ls.encoding
  ++ failIf (g TaskRec.toDrain == 1 && k != Tk.feed) TaskRec.toDrain Ls.encoding
  ++ failIf (g TaskRec.transpose == 1 && k != Tk.feed) TaskRec.transpose Ls.encoding
  ++ failIf (k == Tk.feed && g TaskRec.transpose == 1 && !s.feedTransposeOk v t) TaskRec.transpose Ls.counts
  ++ failIf (takesNoStream k && n != noRef) TaskRec.stream Ls.encoding
  ++ failIf ((needsStream k && n == noRef) || neither || stored || ingestB) TaskRec.stream Ls.counts
  ++ failIf tap TaskRec.streamB Ls.counts
  ++ failIf (v.movesStream t && Fld.get ⟨30, 12⟩ (g TaskRec.streamB) != 0) TaskRec.streamB Ls.rsvd
  ++ (if prog then s.programFails249 (g TaskRec.program) (g TaskRec.context) (k == Tk.update) TaskRec.program else [])
  ++ failIf (k == Tk.digest && !s.programThere (g TaskRec.program)) TaskRec.program Ls.width
  ++ failIf (k == Tk.digest && decide (g TaskRec.program < 0xFF00) && ProgRec.context.get (s.prog (g TaskRec.program)) != g TaskRec.context) TaskRec.program Ls.stream
  ++ failIf (runsOn k != 3 && g TaskRec.program != 0) TaskRec.program Ls.encoding
  ++ failIf (runsOn k == 4 && !s.channelSuits v t) TaskRec.channel Ls.unavailable
  ++ failIf (runsOn k != 4 && g TaskRec.channel != 0) TaskRec.channel Ls.encoding
  ++ failIf (ring0 && g TaskRec.waitCount != 0) TaskRec.waitCount Ls.counts
  ++ failIf (noShard) TaskRec.shard Ls.width
  ++ failIf (proj && (sh == noRef || small)) TaskRec.shard Ls.stream
  ++ failIf (v.movesStream t && g TaskRec.tileFirst != 0) TaskRec.tileFirst Ls.counts
  ++ failIf (past || (v.movesStream t && g TaskRec.tileCount != noRef)) TaskRec.tileCount Ls.counts
  ++ failIf (if ring0 then !v.producerOk t else g TaskRec.producer != noRef) TaskRec.producer Ls.counts

/-- A task record. What depends on TASK_KIND is not checked where it is reserved. -/
def State.taskFails (s v : State) (t : Nat) : List FieldFail :=
  let w := v.rdNat (v.tables.tasks + 64 * t) 64
  let g := fun (f : Fld) => f.get w
  let k := g TaskRec.taskKind
  let ek := g TaskRec.execKind
  let known := runsOn k != 0
  let exec := kindSize ek != 0
  let edges := v.planHdr PlanHdr.edgeCount
  reservedFails w TaskRec.rsvd TaskRec.cFields
  ++ failIf (!known) TaskRec.taskKind Ls.encoding
  ++ failIf (!exec || (known && runsOn k != ek)) TaskRec.execKind Ls.encoding
  ++ failIf (exec && decide (kindSize ek ≤ g TaskRec.execIndex)) TaskRec.execIndex Ls.width
  ++ failIf (g TaskRec.urgency == 3) TaskRec.urgency Ls.encoding
  ++ failIf (danglingRef (g TaskRec.stream) v.streamCount) TaskRec.stream Ls.width
  ++ failIf (!v.movesStream t && danglingRef (g TaskRec.streamB) v.streamCount) TaskRec.streamB Ls.width
  ++ failIf (danglingRef (g TaskRec.shard) v.shardCount) TaskRec.shard Ls.width
  ++ failIf (danglingRef (g TaskRec.slipSet) (v.planHdr PlanHdr.slipCount)) TaskRec.slipSet Ls.width
  ++ failIf (g TaskRec.waitCount != 0 && decide (edges < g TaskRec.waitFirst + g TaskRec.waitCount)) TaskRec.waitFirst Ls.width
  ++ failIf (g TaskRec.signalCount != 0 && decide (edges < g TaskRec.signalFirst + g TaskRec.signalCount)) TaskRec.signalFirst Ls.width
  ++ (if known then s.taskKindFails v t else [])

/-! ### Edges, slip sets and shards (R78, R79, R86, R87, R93, R101) -/

/-- An edge record: its own fields, and its kind in the lists that name it. -/
def State.edgeFails (v : State) (e : Nat) : List FieldFail :=
  let w := v.rdNat (v.tables.edges + 16 * e) 16
  let g := fun (f : Fld) => f.get w
  let k := g EdgeRec.edgeKind
  let waited := (List.range v.taskCount).any (fun t => (v.waitEdges t).contains e)
  let signalled := (List.range v.taskCount).any (fun t => (v.signalEdges t).contains e)
  reservedFails w EdgeRec.rsvd []
  ++ failIf (k == 3 && g EdgeRec.count != 1) EdgeRec.count Ls.encoding
  ++ failIf (!(1 ≤ k && k ≤ 3) || (waited && k == 2) || (signalled && k != 2)) EdgeRec.edgeKind Ls.encoding
  ++ failIf (g EdgeRec.remote == 0 && g EdgeRec.package != 0) EdgeRec.package Ls.encoding
  ++ failIf (g EdgeRec.remote == 1 && decide (v.planHdr PlanHdr.groupPackages ≤ g EdgeRec.package)) EdgeRec.package Ls.width

def altFlds : List Fld := [SlipRec.alt0, SlipRec.alt1, SlipRec.alt2, SlipRec.alt3, SlipRec.alt4, SlipRec.alt5]

/-- The streams a task produces: its own, or those whose producing tasks name it as PRODUCER (R75, R173). -/
def State.produces (v : State) (t : Nat) : List Nat :=
  let k := v.tf t TaskRec.taskKind
  if k = Tk.compute then ((List.range v.taskCount).filter (fun u => v.tf u TaskRec.producer == t)).map (fun u => v.tf u TaskRec.stream)
  else if k = Tk.stow ∨ k = Tk.reduce ∨ (v.movesStream t ∧ v.exReceives t) then [v.tf t TaskRec.stream] else []

/-- The conditions of R87 that two task records show. -/
def State.altSuits (v : State) (t a : Nat) : Bool :=
  v.sameExec t a && decide (t < a)
  && !(v.produces t).any (fun n => (v.produces a).contains n)
  && !(v.writesVersion t && v.writesVersion a && v.tf t TaskRec.shard == v.tf a TaskRec.shard)
  && v.tf t TaskRec.taskGroup != v.tf a TaskRec.taskGroup
  && v.tf a TaskRec.slipSet == noRef

/-- A slip-set record (R86, R87), for every task that names it. -/
def State.slipFails (v : State) (r : Nat) : List FieldFail :=
  let w := v.rdNat (v.tables.slips + 32 * r) 32
  let n := SlipRec.altCount.get w
  let owners := (List.range v.taskCount).filter (fun t => v.tf t TaskRec.slipSet == r)
  reservedFails w SlipRec.rsvd []
  ++ failIf (decide (6 < n)) SlipRec.altCount Ls.encoding
  ++ (List.range 6).flatMap (fun j =>
      let f := altFlds.getD j SlipRec.alt0
      let a := f.get w
      if n ≤ j then []
      else failIf (decide (v.taskCount ≤ a)) f Ls.width ++ failIf (!owners.all (fun t => v.altSuits t a)) f Ls.slip)

/-- The shard of the loaded plan that a REPLACE keeps for shard `k` of the image (R101). -/
def State.keptShard (s v : State) (replace : Bool) (k : Nat) : Option Nat := if replace then s.oldShard v k else none

/-- A shard record (R93), and its agreement with the shard that a REPLACE keeps (R101). -/
def State.shardFails (s v : State) (replace : Bool) (k : Nat) : List FieldFail :=
  let w := v.rdNat (v.tables.shards + 32 * k) 32
  let g := fun (f : Fld) => f.get w
  let differs := fun (f : Fld) => (s.keptShard v replace k).any (fun j => s.shf j f != g f)
  reservedFails w ShardRec.rsvd ShardRec.cFields
  ++ failIf (!(2 ≤ g ShardRec.slots && g ShardRec.slots ≤ 4)) ShardRec.slots Ls.encoding
  ++ failIf (g ShardRec.slotBytes == 0 || g ShardRec.slotBytes % 4096 != 0) ShardRec.slotBytes Ls.encoding
  ++ failIf (decide (2 ^ 52 ≤ g ShardRec.base)) ShardRec.base Ls.width
  ++ failIf (decide (v.planHdr PlanHdr.groupPackages ≤ g ShardRec.ownerPackage)) ShardRec.ownerPackage Ls.width
  ++ [ShardRec.region, ShardRec.slots, ShardRec.slotBytes, ShardRec.base].flatMap (fun f => failIf (differs f) f Ls.version)

/-! ### Counts and chains (R47, R75, R173, R253) -/

/-- The tasks that produce a stream as R75 and R404 want it. -/
def State.producersOf (v : State) (n : Nat) : List Nat :=
  (List.range v.taskCount).filter (fun t => v.tf t TaskRec.stream == n &&
    (v.tf t TaskRec.taskKind == Tk.stow || v.tf t TaskRec.taskKind == Tk.reduce || (v.movesStream t && v.exReceives t)))

def State.consumersOf (v : State) (n : Nat) : List Nat := v.tasksWhere (fun t => v.consumes t n)

/-- The counts of a stream are as R75 says. -/
def State.countsOk (v : State) (n : Nat) : Bool :=
  (v.producersOf n).length == 1 && (v.consumersOf n).length == v.sf n StreamRec.consumers

/-- The task at which a stream's counts are reported: the lowest that produces or consumes it, else task 0. -/
def State.reportedAt (v : State) (n : Nat) : Nat :=
  ((List.range v.taskCount).find? (fun t => (v.producersOf n).contains t || v.consumes t n)).getD 0

/-- Tasks that break R75: of the wrong kind for the stream's class, or the first of a stream whose counts are wrong. -/
def State.countNames (v : State) (t : Nat) : List Nat :=
  let k := v.tf t TaskRec.taskKind
  let cls := (v.taskStream t).map (fun n => v.sf n StreamRec.classF)
  let reduced := cls == some Cl.deriv || cls == some Cl.proj
  nameIf (cls.isSome && ((k == Tk.stow && reduced) || (k == Tk.reduce && !reduced))) TaskRec.taskKind
  ++ nameIf ((cls.isSome && k == Tk.recompute && cls != some Cl.regen)
      || (List.range v.streamCount).any (fun n => !v.countsOk n && v.reportedAt n == t)) TaskRec.stream

/-- The REGEN sources of a stream. -/
def State.regenSources (v : State) (n : Nat) : List Nat :=
  (v.sourcesOf n).filter (fun m => decide (m < v.streamCount) && v.sf m StreamRec.classF == Cl.regen)

/-- A chain of REGEN sources longer than `k` begins at the stream (R47). -/
def State.chainDeeper (v : State) : Nat → Nat → Bool
  | 0, n => !(v.regenSources n).isEmpty
  | k + 1, n => (v.regenSources n).any (State.chainDeeper v k)

/-- The last consumer of a source does not come before that of the REGEN stream (R47). -/
def State.sourceLasts (v : State) (n m : Nat) : Bool :=
  match v.lastConsumer n, v.lastConsumer m with
  | some a, some b => decide (a ≤ b)
  | some _, none => false
  | none, _ => true

/-- A REGEN stream breaks R47, or a nested program of it has too many constants (R253). -/
def State.regenBad (s v : State) (n : Nat) : Bool :=
  v.sf n StreamRec.classF == Cl.regen
  && (v.chainDeeper 4 n || !(v.sourcesOf n).all (v.sourceLasts n)
    || (v.regenSources n).any (fun m => v.sf m StreamRec.program < 0xFF00 && decide (16384 < ProgRec.constBytes.get (s.prog (v.sf m StreamRec.program)))))

def State.regenNames (s v : State) (t : Nat) : List Nat :=
  nameIf ((List.range v.streamCount).any (fun n => s.regenBad v n && v.reportedAt n == t)) TaskRec.stream

/-- A ring-0 task precedes its PRODUCER (R173). -/
def State.ring0Names (v : State) (t : Nat) : List Nat := nameIf (v.ring0Task t && decide (v.tf t TaskRec.producer ≤ t)) TaskRec.producer

/-! ### Buoys (R80 to R82, R282) -/

/-- The local edges of a task by name: context and name, kind, COUNT. -/
def State.localWaits (v : State) (t : Nat) : List ((Nat × Nat) × Nat × Nat) :=
  ((v.waitEdges t).filter (fun e => !v.isRemoteEdge e)).map (fun e => ((v.tf t TaskRec.context, v.edf e EdgeRec.buoy), v.edf e EdgeRec.edgeKind, v.edf e EdgeRec.count))

def State.localSignals (v : State) (t : Nat) : List ((Nat × Nat) × Nat) :=
  ((v.signalEdges t).filter (fun e => !v.isRemoteEdge e)).map (fun e => ((v.tf t TaskRec.context, v.edf e EdgeRec.buoy), v.edf e EdgeRec.count))

/-- Units signalled on a name, and units waited for, by a task in one step. -/
def State.signalledOn (v : State) (t : Nat) (k : Nat × Nat) : Nat := (((v.localSignals t).filter (fun e => e.1 == k)).map Prod.snd).foldl (· + ·) 0
def State.waitedOn (v : State) (t : Nat) (k : Nat × Nat) : Nat := (((v.localWaits t).filter (fun e => e.1 == k && e.2.1 == 1)).map (fun e => e.2.2)).foldl (· + ·) 0

/-- The units on a name before a task, from the earlier tasks of the step (R80). -/
def State.unitsBefore (v : State) (t : Nat) (k : Nat × Nat) : Int :=
  (List.range t).foldl (fun (n : Int) u => n + v.signalledOn u k - v.waitedOn u k) 0

/-- Every WAIT edge of task `a` is covered where task `t` stands (R80). -/
def State.covered_ (v : State) (t a : Nat) : Bool := (v.localWaits a).all (fun e => e.2.1 != 1 || decide ((e.2.2 : Int) ≤ v.unitsBefore t e.1))

/-- The alternatives of a task by record (R86). -/
def State.altsOf (v : State) (t : Nat) : List Nat :=
  let r := v.tf t TaskRec.slipSet
  if r < v.planHdr PlanHdr.slipCount then
    let w := v.rdNat (v.tables.slips + 32 * r) 32
    (altFlds.take (SlipRec.altCount.get w)).map (fun f => f.get w)
  else []

/-- The name is used as a barrier, and as a semaphore. -/
def State.usedAs (v : State) (k : Nat × Nat) (barrier : Bool) : Bool :=
  (!barrier && k.1 == v.planHdr PlanHdr.planContext && (k.2 == v.planHdr PlanHdr.startBuoy || k.2 == v.planHdr PlanHdr.endBuoy))
  || (List.range v.taskCount).any (fun t => (v.localWaits t).any (fun e => e.1 == k && (e.2.1 == 3) == barrier) || (!barrier && (v.localSignals t).any (fun e => e.1 == k)))

/-- The BARRIER edges of a name in one step. -/
def State.barrierEdges (v : State) (k : Nat × Nat) : Nat :=
  ((List.range v.taskCount).map (fun t => ((v.localWaits t).filter (fun e => e.1 == k && e.2.1 == 3)).length)).foldl (· + ·) 0

/-- A name breaks R282: two kinds of use, a binding of the other kind, or a barrier of other participants. -/
def State.nameBad (s v : State) (k : Nat × Nat) : Bool :=
  let bar := v.usedAs k true
  (bar && v.usedAs k false)
  || (match s.findBuoy k.1 k.2 with
      | none => false
      | some (_, b) => (b.kind == Bk.barrier) != bar || (bar && b.participants != v.barrierEdges k))

/-- Units signalled and waited for on a name in a step are equal (R81). -/
def State.balanced (v : State) (k : Nat × Nat) : Bool := v.unitsBefore v.taskCount k == 0

def State.taskNames (v : State) (t : Nat) : List (Nat × Nat) := ((v.localWaits t).map Prod.fst ++ (v.localSignals t).map Prod.fst)

/-- Where R80 to R82 and R282 fail: a bad name at any task that uses it, the plan's own names at task 0. -/
def State.buoyNames (s v : State) (t : Nat) : List Nat :=
  let pc := v.planHdr PlanHdr.planContext
  let bad := fun (k : Nat × Nat) => s.nameBad v k || !v.balanced k
  nameIf (t == 0 && s.nameBad v (pc, v.planHdr PlanHdr.startBuoy)) PlanHdr.startBuoy
  ++ nameIf (t == 0 && s.nameBad v (pc, v.planHdr PlanHdr.endBuoy)) PlanHdr.endBuoy
  ++ nameIf (!v.covered_ t t || (v.localWaits t).any (fun e => bad e.1)) TaskRec.waitFirst
  ++ nameIf ((v.localSignals t).any (fun e => bad e.1)) TaskRec.signalFirst
  ++ nameIf (!(v.altsOf t).all (v.covered_ t)) TaskRec.slipSet

/-! ### Chains of edges, slip rules and versions (R87, R96, R404) -/

/-- A local edge leads from one task to another: a signal to a wait, or both arrive at one barrier. -/
def State.edgeLeads (v : State) (t u : Nat) : Bool :=
  t != u && (v.localWaits u).any (fun e => e.2.2 != 0 && ((v.localSignals t).any (fun f => f.1 == e.1 && f.2 != 0) || (v.localWaits t).any (fun f => f.1 == e.1 && f.2.1 == 3 && e.2.1 == 3)))

/-- The tasks that a chain of edges reaches from some tasks (`fuel` rounds of growth). -/
def State.chained (v : State) : Nat → List Nat → List Nat → List Nat
  | 0, _, found => found
  | fuel + 1, front, found =>
    let next := (List.range v.taskCount).filter (fun u => !found.contains u && front.any (fun t => v.edgeLeads t u))
    if next.isEmpty then found else State.chained v fuel next (found ++ next)

/-- A chain leads from a set of tasks to a task. -/
def State.chainLeads (v : State) (from_ : List Nat) (u : Nat) : Bool := (v.chained v.taskCount from_ []).contains u

/-- The conditions of R87 over the plan: no chain from the task, or from a task between in its queue, to the alternative; no buoy of the alternative waited on between. -/
def State.altFree (v : State) (t a : Nat) : Bool :=
  let between := (List.range a).filter (fun u => decide (t < u))
  !v.chainLeads (t :: between.filter (v.sameExec t)) a
  && !between.any (fun u => (v.localWaits u).any (fun e => e.2.2 != 0 && (v.localWaits a).any (fun f => f.2.2 != 0 && f.1 == e.1)))

def State.slipNames (v : State) (t : Nat) : List Nat := nameIf (!(v.altsOf t).all (v.altFree t)) TaskRec.slipSet

/-- R96. -/
def State.lagNames (v : State) (t : Nat) : List Nat :=
  let k := v.tf t TaskRec.shard
  let lag := v.tf t TaskRec.versionLag
  nameIf (decide (k < v.shardCount) && (decide (v.shf k ShardRec.slots ≤ lag) || (v.tf t TaskRec.taskKind == Tk.update && lag != 0))) TaskRec.versionLag

/-! ### State records (R307) -/

/-- The records with the shard's SHARD_ID. -/
def State.optsOf (v : State) (k : Nat) : List Nat :=
  (List.range (v.ch Ch.ostateCount)).filterMap (fun i => let a := v.optBase i; if v.fld a OptRec.shardId = v.shf k ShardRec.shardId then some a else none)

/-- The fields of a state record: RSVD and, unless the shard is kept, C fields; reserved values (R306, R307, R309). -/
def recordFails (w : Nat) (kept : Bool) : List FieldFail :=
  let g := fun (f : Fld) => f.get w
  reservedFails w OptRec.rsvd (if kept then [] else OptRec.cFields)
  ++ [OptRec.secFmt1, OptRec.secFmt2, OptRec.secFmt3].flatMap (fun f => failIf (decide (8 ≤ g f)) f Ls.encoding)
  ++ failIf (g OptRec.statePlace == 1) OptRec.statePlace Ls.encoding
  ++ failIf (decide (5 ≤ g OptRec.delay)) OptRec.delay Ls.encoding
  ++ failIf (!(1 ≤ g OptRec.weightType && g OptRec.weightType ≤ 3)) OptRec.weightType Ls.encoding
  ++ failIf (!(g OptRec.gradType == 1 || g OptRec.gradType == 3)) OptRec.gradType Ls.encoding

/-- A task fetches a version or runs an UPDATE of its shard, or otherwise needs the shard's record (R307). -/
def State.needsRecord (v : State) (t : Nat) : Bool :=
  let k := v.tf t TaskRec.taskKind
  k == Tk.update || (k == Tk.exchange && v.tf t TaskRec.stream == noRef)

def State.admittedModule (s : State) : Bool := (List.range 16).any (fun p => s.modState p == Ms.admitted)

/-- What R307 finds for a task that names a shard, in the order of its cases. -/
def State.stateFails (s v : State) (replace : Bool) (t : Nat) : List FieldFail :=
  let k := v.tf t TaskRec.shard
  if v.shardCount ≤ k then [] else
  let owner := v.shf k ShardRec.ownerPackage == v.planHdr PlanHdr.packageIndex
  let update := v.tf t TaskRec.taskKind == Tk.update
  match v.optsOf k with
  | [] => failIf (v.needsRecord t) TaskRec.shard Ls.width
  | _ :: _ :: _ => [(OptRec.shardId.lo, Ls.width)]
  | [a] =>
    let w := v.rdNat a 128
    let g := fun (f : Fld) => f.get w
    let prog := v.tf t TaskRec.program
    let types := update && prog < 0xFF00 && (ProgRec.wType.get (s.prog prog) != g OptRec.weightType || ProgRec.outType.get (s.prog prog) != g OptRec.weightType)
    let big := decide (v.shf k ShardRec.slotBytes < g OptRec.rows * g OptRec.cols * elemBytes (g OptRec.weightType))
    let fetches := v.writesVersion t && !update
    let place := g OptRec.statePlace
    let placed := owner && ((place == 2 && g OptRec.delay != 0) || (place == 3 && (g OptRec.delay == 0 || (v.tasksWhere (fun u => v.tf u TaskRec.taskKind == Tk.update && v.tf u TaskRec.shard == k)).length != 1)))
    let fmt := [OptRec.secFmt1, OptRec.secFmt2, OptRec.secFmt3].any (fun f => g f != 0)
    (lowestFail (recordFails w (s.keptShard v replace k).isSome)).toList
    ++ failIf types OptRec.weightType Ls.stream
    ++ failIf (g OptRec.rows == 0 || big) OptRec.rows Ls.version
    ++ failIf (g OptRec.cols == 0) OptRec.cols Ls.version
    ++ failIf (g OptRec.landSlots == 0) OptRec.landSlots Ls.version
    ++ failIf ((update && !owner) || (fetches && owner)) TaskRec.taskKind Ls.version
    ++ failIf placed OptRec.delay Ls.version
    ++ failIf (!owner && place != 0) OptRec.statePlace Ls.version
    ++ failIf (!owner && fmt) OptRec.secFmt1 Ls.version
    ++ failIf (place == 3 && !s.admittedModule) OptRec.statePlace Ls.unavailable

/-- The first failure of R307 at the lowest task. -/
def State.recordFail (s v : State) (replace : Bool) : Option PlanFail :=
  (List.range v.taskCount).findSome? (fun t => ((s.stateFails v replace t).head?).map (fun b => (b.2, 6, t, b.1)))

/-! ### Digest tasks, pairs and charges (R66, R172, R176, R371, R404) -/

/-- A DIGEST task whose shard's owner cannot be among the packages that digest it: one package alone, and not the owner (R371). -/
def State.digestOwnerNames (v : State) (t : Nat) : List Nat :=
  let k := v.tf t TaskRec.shard
  nameIf (v.tf t TaskRec.taskKind == Tk.digest && decide (k < v.shardCount) && v.planHdr PlanHdr.groupPackages == 1
    && v.shf k ShardRec.ownerPackage != v.planHdr PlanHdr.packageIndex) TaskRec.shard

/-- DTREE_STRIDE is smaller than the tree (R371). -/
def State.digestStrideNames (s v : State) (t : Nat) : List Nat :=
  let k := v.tf t TaskRec.shard
  let bytes := match v.shardOpt k with | some a => v.optParams a * elemBytes (v.fld a OptRec.weightType) | none => 0
  nameIf (v.tf t TaskRec.taskKind == Tk.digest && decide (k < v.shardCount) && decide (s.ch Ch.dtreeStride < 32 * treeNodes 64 (ceilDiv bytes 65536))) TaskRec.shard

/-- A FEED of a stream placed in the Reef without its PREFETCH before it (R176), and a sent stream with no chain to its last consumer (R404). -/
def State.pairNames (v : State) (t : Nat) : List Nat :=
  let n := v.tf t TaskRec.stream
  let same := fun (u : Nat) => v.tf u TaskRec.stream == n && v.tf u TaskRec.tileFirst == v.tf t TaskRec.tileFirst && v.tileCount u n == v.tileCount t n
  let feed := v.tf t TaskRec.taskKind == Tk.feed && (v.taskStream t).any (fun n => v.sf n StreamRec.place == Pc.reef)
    && !(List.range t).any (fun u => v.tf u TaskRec.taskKind == Tk.prefetch && same u)
  let sent := v.movesStream t && !v.exReceives t && !(match v.lastConsumer (v.tf t TaskRec.stream) with | some u => v.chainLeads [t] u | none => false)
  nameIf (feed || sent) TaskRec.stream

/-- The fixed-size charge of a stream in granules: LOSSY at its largest record, RAW, and index tables (R66, R226). -/
def fixedCharge (w : Nat) : Nat :=
  let cls := StreamRec.classF.get w
  let t := recTiles cls w
  if cls = Cl.raw then 128 * t
  else if cls = Cl.lossy then t * fixedGranules (StreamRec.lossyRate.get w) + ceilDiv (recordBytes (StreamRec.lossyCb.get w) (StreamRec.lossyEnv.get w) 16384) 32
  else if hasIndex cls then ceilDiv t 4 else 0

/-- The Reef charge of a LOSSY stream at its fixed size, in bytes (R226, R351). -/
def fixedReefCharge (w : Nat) : Nat :=
  let t := recTiles Cl.lossy w
  let s := fixedGranules (StreamRec.lossyRate.get w)
  let rec_ := ceilDiv (recordBytes (StreamRec.lossyCb.get w) (StreamRec.lossyEnv.get w) 16384) 32
  ((List.range 20).map (fun h => roundUp (32 * (s * ((t + 19 - h) / 20) + (if h = 0 then rec_ else 0))) 4096)).foldl (· + ·) 0

def State.lossyReef (v : State) (n : Nat) : Bool := v.sf n StreamRec.classF == Cl.lossy && v.sf n StreamRec.place == Pc.reef

/-- The producer of a stream: its first producing task. -/
def State.bornAt (v : State) (n : Nat) : Option Nat := (v.producersOf n).head?

/-- A stream is charged at a task: produced earlier, and its last consumer does not come earlier (R61). -/
def State.chargedHere (v : State) (t n : Nat) : Bool :=
  match v.bornAt n, v.lastConsumer n with
  | some p, some c => decide (p < t ∧ t ≤ c)
  | _, _ => false

/-- The fixed charges at a task exceed a region's limit, the Reef's, or a die's Quay allowance (R66, R351). -/
def State.chargeNames (s v : State) (t : Nat) : List Nat :=
  let ns := (List.range v.streamCount).filter (v.chargedHere t)
  let sum := fun (p : Nat → Bool) (f : Nat → Nat) => ((ns.filter p).map f).foldl (· + ·) 0
  let over_ := (ns.map (fun n => v.sf n StreamRec.region)).any (fun r =>
    s.regions.contains r && decide (s.ch (Ch.chargeLimit + 256 * r) < 32 * sum (fun n => v.regionCharged r n && !v.lossyReef n) (fun n => fixedCharge (v.streamRec n))))
  let written := fun (n : Nat) => match v.reefWriter n, v.lastConsumer n with | some w, some c => decide (w < t ∧ t ≤ c) | _, _ => false
  let reef := (((List.range v.streamCount).filter (fun n => v.lossyReef n && written n)).map (fun n => fixedReefCharge (v.streamRec n))).foldl (· + ·) 0
  let room := s.planLimit + ((List.range 8).map s.granted).foldl (· + ·) 0
  let quay := fun (d : Nat) (f : Fld) => decide (v.planHdr f < sum (fun n => v.sf n StreamRec.place == Pc.quay && v.sf n StreamRec.die == d) (fun n => recTiles Cl.raw (v.streamRec n)))
  nameIf (over_ || decide (room < reef) || quay 0 PlanHdr.quayAllow0 || quay 1 PlanHdr.quayAllow1) TaskRec.stream

/-- A Quay allowance exceeds its die's held pool (R172). -/
def State.allowFail (s v : State) : Option PlanFail :=
  ([(0, PlanHdr.quayAllow0), (1, PlanHdr.quayAllow1)] : List (Nat × Fld)).findSome? (fun p =>
    if s.heldPool p.1 < v.planHdr p.2 then some (Ls.charges, 6, 0, p.2.lo) else none)

/-- The largest LOOKAHEAD of a lane's PREFETCH tasks. -/
def State.laneLook (v : State) (l : Nat) : Nat :=
  ((v.tasksWhere (fun t => v.tf t TaskRec.taskKind == Tk.prefetch && v.tf t TaskRec.execIndex == l)).map (fun t => v.tf t TaskRec.lookahead)).foldl max 0

/-- The plan's PREFETCH tasks need more staging slots than there are (R176). -/
def State.stageNames (s v : State) (t : Nat) : List Nat :=
  nameIf (v.tf t TaskRec.taskKind == Tk.prefetch && decide (s.ch Ch.stageSlots < ((List.range 256).map v.laneLook).foldl (· + ·) 0)) TaskRec.lookahead

/-! ### Availability (R29, R30, R73, R211, R282, R329, R395, R397, R402, R403) -/

/-- No Harbour region is assigned, TABLE_REGION is not, or PLAN_CONTEXT does not exist (R30). -/
def State.homeFail (s v : State) : Option PlanFail :=
  if s.regions.isEmpty ∨ !s.regions.contains (v.planHdr PlanHdr.tableRegion) then some (Ls.unavailable, 6, 0, PlanHdr.tableRegion.lo)
  else if !s.contextExists (v.planHdr PlanHdr.planContext) then some (Ls.unavailable, 6, 0, PlanHdr.planContext.lo) else none

/-- A stream with a stored representation that is not placed in a Quay. -/
def State.storedStream (v : State) (n : Nat) : Bool :=
  let c := v.sf n StreamRec.classF
  c != Cl.drop && c != Cl.regen && v.sf n StreamRec.place != Pc.quay

/-- The place or region of a stream is not there (R29, R403), or its context (R466). -/
def State.placeBad (s v : State) (n : Nat) : Bool :=
  (v.sf n StreamRec.place == Pc.reef && !s.admittedModule && ((List.range 8).map s.granted).all (· == 0))
  || (v.storedStream n && !s.regions.contains (v.sf n StreamRec.region))
  || !s.contextExists (v.sf n StreamRec.context)

/-- The compute die is bonded and has not been lost: its up strap word was accepted (R32, R73, R413). -/
def State.dieHere (s : State) (d : Nat) : Bool := let c := s.cwState d; c != 0 && c != Cw.down && c != Cw.strapFault

/-- The executor of a task is out of service or absent (R31, R73). -/
def State.executorBad (s v : State) (t : Nat) : Bool :=
  let e := v.tf t TaskRec.execIndex
  let k := v.tf t TaskRec.execKind
  (k == 3 && s.ch (Ch.engineState + 256 * e) == 2) || ((k == 1 || k == 2) && !s.dieHere e)

def State.placeNames (s v : State) (t : Nat) : List Nat :=
  let k := v.tf t TaskRec.shard
  nameIf (s.executorBad v t) TaskRec.execIndex
  ++ nameIf ((List.range v.streamCount).any (fun n => s.placeBad v n && v.reportedAt n == t)) TaskRec.stream
  ++ nameIf (decide (k < v.shardCount) && !s.regions.contains (v.shf k ShardRec.region)) TaskRec.shard
  ++ nameIf (!s.contextExists (v.tf t TaskRec.context)) TaskRec.context

/-- A stored stream of a context with no XTS key (R211). -/
def State.keyNames (s v : State) (t : Nat) : List Nat :=
  nameIf ((List.range v.streamCount).any (fun n => v.storedStream n && v.reportedAt n == t
    && !bit (s.contexts.getD (v.sf n StreamRec.context) ⟨0, 0, 0, 0⟩).keysSet 0)) TaskRec.stream

/-- A state record's Reef state lies outside the software area, or in an area that is lent (R329, R402). -/
def State.reefStateBad (s v : State) (k : Nat) : Bool :=
  match v.shardOpt k with
  | none => false
  | some a =>
    let b := v.fld a OptRec.stateBase
    let n := v.stateSize a
    v.fld a OptRec.statePlace == 3
    && (decide (s.ch Ch.swBytes < b + n) || (List.range 8).any (fun p => n != 0 && overlap b n (s.ch (Ch.lendBase + 256 * p)) (s.ch (Ch.lendBytes + 256 * p))))

def State.reefNames (s v : State) (t : Nat) : List Nat :=
  let k := v.tf t TaskRec.shard
  nameIf (s.ch Ch.reefSet == 0 && (List.range v.streamCount).any (fun n => v.sf n StreamRec.place == Pc.reef && v.reportedAt n == t)) TaskRec.stream
  ++ nameIf (decide (k < v.shardCount) && s.reefStateBad v k) TaskRec.shard

/-- SELF_PACKAGE, the packages of remote edges, and the group (R395, R397). -/
def State.mapFail (s v : State) : Option PlanFail :=
  if s.self ≠ v.planHdr PlanHdr.packageIndex then some (Ls.unavailable, 6, 0, PlanHdr.packageIndex.lo)
  else wholeFail v.taskCount Ls.unavailable (fun t =>
    let bad := fun (e : Nat) => v.edf e EdgeRec.remote == 1 && (!s.pkgValid (v.edf e EdgeRec.package) || !(s.ch Ch.groupState == 0 || s.ch Ch.groupState == 2))
    nameIf ((v.waitEdges t).any bad) TaskRec.waitFirst ++ nameIf ((v.signalEdges t).any bad) TaskRec.signalFirst)

/-- Too few physical buoys are free for the names the plan binds (R282). -/
def State.bindFail (s v : State) : Option PlanFail :=
  if 262144 < s.buoys.length + (v.planNames.filter (fun k => (s.findBuoy k.1 k.2.1).isNone)).length then some (Ls.unavailable, 6, 0, PlanHdr.startBuoy.lo) else none

/-! ### The stages in their order (R99) -/

/-- Stages 4 to 8. -/
def State.sectionFails (s v : State) (replace : Bool) : List (Option PlanFail) :=
  [sectionFail 1 v.streamCount (s.streamFails v), sectionFail 2 v.taskCount (s.taskFails v),
   sectionFail 3 (v.planHdr PlanHdr.edgeCount) v.edgeFails, sectionFail 4 (v.planHdr PlanHdr.slipCount) v.slipFails,
   sectionFail 5 v.shardCount (s.shardFails v replace)]

/-- Stage 9, but for the space in TABLE_REGION. -/
def State.wholeFails (s v : State) (replace : Bool) : List (Option PlanFail) :=
  let whole := wholeFail v.taskCount
  [whole Ls.counts v.countNames, whole Ls.stream (s.regenNames v), whole Ls.counts v.ring0Names, whole Ls.buoys (s.buoyNames v),
   whole Ls.slip v.slipNames, whole Ls.version v.lagNames, s.recordFail v replace,
   whole Ls.version v.digestOwnerNames, whole Ls.unavailable (s.digestStrideNames v), whole Ls.counts v.pairNames,
   whole Ls.charges (s.chargeNames v), s.allowFail v, whole Ls.charges (s.stageNames v),
   s.homeFail v, whole Ls.unavailable (s.placeNames v), whole Ls.unavailable (s.keyNames v), whole Ls.unavailable (s.reefNames v),
   s.mapFail v, s.bindFail v]

/-- A failure of the header section. -/
def headerFail (l : List FieldFail) : Option PlanFail := (lowestFail l).map (fun b => (b.2, 0, 0, b.1))

/-- The failure of an image's header fields (R99, stage 1). -/
def State.headFail (s : State) (w : Nat) (replace : Bool) : Option PlanFail :=
  headerFail (identityFails w ++ headerFails w (if replace then some (s.planHdr PlanHdr.planEpoch) else none))

/-- The first failure of an image that can be read (R99): the header fields, the digest, the section limits, the sections, the whole plan. (log entry 74, DEDUCED.) -/
def State.planFail (s : State) (img : Nat) (replace : Bool) : Option PlanFail :=
  let w := s.rdNat img 160
  match s.headFail w replace with
  | some f => some f
  | none =>
    if imageDigest (s.rd img 160) (s.rd (img + 160) (PlanHdr.imageBytes.get w - 160)) ≠ s.rd (img + 80) 32 then some (Ls.digest, 0, 0, PlanHdr.imageDigest.lo)
    else match headerFail (limitFails w) with
    | some f => some f
    | none =>
      let v := s.asLoaded img
      match (s.sectionFails v replace).findSome? id with
      | some f => some f
      | none => (s.wholeFails v replace).findSome? id

/-! ### PLAN_VALIDATION -/

/-- The status fields of the header are written into the image (R67, R100). -/
def State.writeLoadStatus (s : State) (img : Nat) (f : PlanFail) : State :=
  s.setFlds img [(PlanHdr.loadStatus, f.1), (PlanHdr.faultSection, f.2.1), (PlanHdr.faultRecord, f.2.2.1), (PlanHdr.faultBit, f.2.2.2)]

/-- A validation that does not pass: a LOAD leaves the plan EMPTY, a REPLACE the old plan in force (R98, R101). -/
def State.dropValidation (s : State) (replace : Bool) : State :=
  let s : State := { s with plan := { s.plan with validating := none } }
  if replace then s.setCh Ch.replacePending 0 else s.setCh Ch.planState Pl.empty

/-- The engines that the plan's SHOAL tasks name, and those of them in G2_EMULATION, as bits (R275). -/
def State.planEngines (s : State) : List Nat :=
  (List.range 40).filter (fun e => !(s.tasksWhere (fun t => s.execKind t == 3 && s.execIndex t == e)).isEmpty)

def State.modesAgree (s v : State) : State :=
  let es := v.planEngines
  let g2 := es.filter (fun e => s.ch (Ch.numericMode + 256 * e) == 1)
  if g2.isEmpty ∨ g2.length = es.length then s
  else s.raise ⟨0x0603, noRef, g2.foldl (fun m e => m + 2 ^ e) 0, 0, none, []⟩

/-- The image passed: its tables are copied, and a LOAD installs them; a REPLACE waits until no step is in flight (R98, R101). -/
def State.acceptPlan (s : State) (d : Dispatched) (x : Validating) : State :=
  let s := s.modesAgree (s.asLoaded x.image)
  match s.copyTables x.image with
  | none =>
    let s := s.writeLoadStatus x.image (Ls.tableSpace, 6, 0, PlanHdr.tableRegion.lo)
    (s.dropValidation x.replace).endCmd d St.planInvalid (Ls.tableSpace + 6 * 2 ^ 16)
  | some (s, t) =>
    let s := s.writeLoadStatus x.image (0, 0, 0, 0)
    let s : State := { s with plan := { s.plan with validating := none } }
    if x.replace then
      let s : State := { s with plan := { s.plan with next := some (t, x.tag) } }
      (s.tryReplace).endCmd d St.success 0
    else (s.install t []).endCmd d St.success 0

/-- A read of the image failed (R484). The status fields are written where the header can be written. -/
def State.planUnread (s : State) (d : Dispatched) (x : Validating) (status at_ : Nat) : State :=
  let s := if x.image ≤ at_ ∧ at_ < x.image + 160 ∨ (s.failing x.image 160).isSome then s else s.writeLoadStatus x.image (Ls.read, 0, 0, 0)
  (s.dropValidation x.replace).failCmd d status

/-- PLAN_VALIDATION: the image under validation is checked, and the plan moves as R98 and R101 say. -/
def execPlanValidation (m : MemResult) (s : State) : Host.Outcome State Fault Refusal :=
  match s.plan.validating with
  | none => .next s
  | some x =>
    match s.cmd x.tag Op.planLoad with
    | none => .next s
    | some d =>
      let n := max 160 (s.fld x.image PlanHdr.imageBytes)
      if s.filling x.image n then .next s else if m ≠ .ok then .next ((s.memFault d m).planUnread d x m.status m.addr) else
      match (if (s.failing x.image 160).isSome then s.failing x.image 160 else if (s.headFail (s.rdNat x.image 160) x.replace).isNone then s.failing x.image n else none) with
      | some k => .next ((s.sectorFound k (some (s.cmdContext d))).planUnread d x St.detected (256 * k))
      | none =>
        match s.planFail x.image x.replace with
        | some f => .next (((s.writeLoadStatus x.image f).dropValidation x.replace).endCmd d St.planInvalid (f.1 + f.2.1 * 2 ^ 16))
        | none => .next (s.acceptPlan d x)

end Sys2Proof.Machine
end

