-- ==== Sys2Proof/Machine/Dispatch.lean ====
section
/-! DEFINITION. The dispatch of a command to its meaning, one arm per row of the table. -/

namespace Sys2Proof.Machine

/-- The effect of a command on everything but the queue. -/
def exec (i : Instr) (s : State) : Host.Outcome State Fault Refusal :=
  match i with
  | .stow c => Sys2Proof.Machine.execStow c s
  | .fetch c => Sys2Proof.Machine.execFetch c s
  | .recompute c => Sys2Proof.Machine.execRecompute c s
  | .discard c => Sys2Proof.Machine.execDiscard c s
  | .signal c => Sys2Proof.Machine.execSignal c s
  | .wait c => Sys2Proof.Machine.execWait c s
  | .barrierEntry c => Sys2Proof.Machine.execBarrierEntry c s
  | .fence c => Sys2Proof.Machine.execFence c s
  | .inlineWrite c m => Sys2Proof.Machine.execInlineWrite c m s
  | .tableLoad c m => Sys2Proof.Machine.execTableLoad c m s
  | .tableBuild c m => Sys2Proof.Machine.execTableBuild c m s
  | .load c => Sys2Proof.Machine.execLoad c s
  | .replace c => Sys2Proof.Machine.execReplace c s
  | .unload c => Sys2Proof.Machine.execUnload c s
  | .restart c => Sys2Proof.Machine.execRestart c s
  | .planValidation m => Sys2Proof.Machine.execPlanValidation m s
  | .snapshot c m => Sys2Proof.Machine.execSnapshot c m s
  | .digest c m => Sys2Proof.Machine.execDigest c m s
  | .restore c m => Sys2Proof.Machine.execRestore c m s
  | .update c m => Sys2Proof.Machine.execUpdate c m s
  | .exportCmd c => Sys2Proof.Machine.execExportCmd c s
  | .importCmd c => Sys2Proof.Machine.execImportCmd c s
  | .move c => Sys2Proof.Machine.execMove c s
  | .compare c m => Sys2Proof.Machine.execCompare c m s
  | .nop c => Sys2Proof.Machine.execNop c s
  | .submissionDoorbell src word width aligned => Sys2Proof.Machine.execSubmissionDoorbell src word width aligned s
  | .completionDoorbell src word width aligned => Sys2Proof.Machine.execCompletionDoorbell src word width aligned s
  | .commandDispatch m => Sys2Proof.Machine.execCommandDispatch m s
  | .queueEnable r => Sys2Proof.Machine.execQueueEnable r s
  | .queueDisable r => Sys2Proof.Machine.execQueueDisable r s
  | .channelEnable r => Sys2Proof.Machine.execChannelEnable r s
  | .channelDisable r => Sys2Proof.Machine.execChannelDisable r s
  | .channelStop r => Sys2Proof.Machine.execChannelStop r s
  | .channelResume r => Sys2Proof.Machine.execChannelResume r s
  | .channelReset r => Sys2Proof.Machine.execChannelReset r s
  | .clearFlags r => Sys2Proof.Machine.execClearFlags r s
  | .arm r => Sys2Proof.Machine.execArm r s
  | .ringEnable r => Sys2Proof.Machine.execRingEnable r s
  | .ringDisable r => Sys2Proof.Machine.execRingDisable r s
  | .register r m => Sys2Proof.Machine.execRegister r m s
  | .retire r => Sys2Proof.Machine.execRetire r s
  | .buoyBind r => Sys2Proof.Machine.execBuoyBind r s
  | .unbind r => Sys2Proof.Machine.execUnbind r s
  | .buoyReset r => Sys2Proof.Machine.execBuoyReset r s
  | .admitKeep p r => Sys2Proof.Machine.execAdmitKeep p r s
  | .admitErase p r => Sys2Proof.Machine.execAdmitErase p r s
  | .remove p r => Sys2Proof.Machine.execRemove p r s
  | .reidentify p r => Sys2Proof.Machine.execReidentify p r s
  | .windowOffset r => Sys2Proof.Machine.execWindowOffset r s
  | .windowFlush r => Sys2Proof.Machine.execWindowFlush r s
  | .windowLoad addr n => Sys2Proof.Machine.execWindowLoad addr n s
  | .windowStore addr data => Sys2Proof.Machine.execWindowStore addr data s
  | .setAdopt r m => Sys2Proof.Machine.execSetAdopt r m s
  | .drop r => Sys2Proof.Machine.execDrop r s
  | .copyPartner r => Sys2Proof.Machine.execCopyPartner r s
  | .feedWrite sub r => Sys2Proof.Machine.execFeedWrite sub r s
  | .correlatedOverride r => Sys2Proof.Machine.execCorrelatedOverride r s
  | .regionEnable r => Sys2Proof.Machine.execRegionEnable r s
  | .regionDisable r => Sys2Proof.Machine.execRegionDisable r s
  | .attach r => Sys2Proof.Machine.execAttach r s
  | .takeover r => Sys2Proof.Machine.execTakeover r s
  | .detach r => Sys2Proof.Machine.execDetach r s
  | .heartbeatTimeout => Sys2Proof.Machine.execHeartbeatTimeout s
  | .train d r => Sys2Proof.Machine.execTrain d r s
  | .trainingComplete d res => Sys2Proof.Machine.execTrainingComplete d res s
  | .cwResume d r => Sys2Proof.Machine.execCwResume d r s
  | .cwRelease d r => Sys2Proof.Machine.execCwRelease d r s
  | .fastReset cause => Sys2Proof.Machine.execFastReset cause s
  | .fullReset cause => Sys2Proof.Machine.execFullReset cause s
  | .mcLoad r => Sys2Proof.Machine.execMcLoad r s
  | .holdAwake r => Sys2Proof.Machine.execHoldAwake r s
  | .create r => Sys2Proof.Machine.execCreate r s
  | .teardown r => Sys2Proof.Machine.execTeardown r s
  | .preempt r => Sys2Proof.Machine.execPreempt r s
  | .contextResume r => Sys2Proof.Machine.execContextResume r s
  | .contextFreed ctx => Sys2Proof.Machine.execContextFreed ctx s
  | .xtsKey r => Sys2Proof.Machine.execXtsKey r s
  | .philoxKey r => Sys2Proof.Machine.execPhiloxKey r s
  | .assign r => Sys2Proof.Machine.execAssign r s
  | .regionFillComplete rgn => Sys2Proof.Machine.execRegionFillComplete rgn s
  | .regionRelease r => Sys2Proof.Machine.execRegionRelease r s
  | .genSelect r => Sys2Proof.Machine.execGenSelect r s
  | .chartWrite index sub r => Sys2Proof.Machine.execChartWrite index sub r s
  | .chartInfo index sub r => Sys2Proof.Machine.execChartInfo index sub r s
  | .setEndpointId eid => Sys2Proof.Machine.execSetEndpointId eid s
  | .getEndpointId => Sys2Proof.Machine.execGetEndpointId s
  | .getMctpVersionSupport => Sys2Proof.Machine.execGetMctpVersionSupport s
  | .getMessageTypeSupport => Sys2Proof.Machine.execGetMessageTypeSupport s
  | .getVendorDefinedMessageSupport => Sys2Proof.Machine.execGetVendorDefinedMessageSupport s
  | .serverCoreWrite addr data => Sys2Proof.Machine.execServerCoreWrite addr data s
  | .deviceMemoryWrite requester addr data => Sys2Proof.Machine.execDeviceMemoryWrite requester addr data s
  | .deviceMemoryRead requester addr n => Sys2Proof.Machine.execDeviceMemoryRead requester addr n s
  | .deviceAtomicOp requester addr => Sys2Proof.Machine.execDeviceAtomicOp requester addr s
  | .stepStart => Sys2Proof.Machine.execStepStart s
  | .stepEnd step => Sys2Proof.Machine.execStepEnd step s
  | .computeTask x => Sys2Proof.Machine.execComputeTask x s
  | .computeComplete d => Sys2Proof.Machine.execComputeComplete d s
  | .computeSuspend d => Sys2Proof.Machine.execComputeSuspend d s
  | .stowTask x => Sys2Proof.Machine.execStowTask x s
  | .reduceTask x => Sys2Proof.Machine.execReduceTask x s
  | .reefWrite x => Sys2Proof.Machine.execReefWrite x s
  | .prefetch x => Sys2Proof.Machine.execPrefetch x s
  | .feed x => Sys2Proof.Machine.execFeed x s
  | .recomputeTask x => Sys2Proof.Machine.execRecomputeTask x s
  | .updateTask x => Sys2Proof.Machine.execUpdateTask x s
  | .discardTask x => Sys2Proof.Machine.execDiscardTask x s
  | .snapshotTask x => Sys2Proof.Machine.execSnapshotTask x s
  | .digestTask x => Sys2Proof.Machine.execDigestTask x s
  | .exchange x => Sys2Proof.Machine.execExchange x s
  | .barrierTask x => Sys2Proof.Machine.execBarrierTask x s
  | .taskComplete x => Sys2Proof.Machine.execTaskComplete x s
  | .taskLate x => Sys2Proof.Machine.execTaskLate x s
  | .handlePass d ring stage tag data => Sys2Proof.Machine.execHandlePass d ring stage tag data s
  | .drainRequest d tile form param => Sys2Proof.Machine.execDrainRequest d tile form param s
  | .laneTakesItem l => Sys2Proof.Machine.execLaneTakesItem l s
  | .requestSlotGrant q => Sys2Proof.Machine.execRequestSlotGrant q s
  | .pacingTick t => Sys2Proof.Machine.execPacingTick t s
  | .requestResponse tag status => Sys2Proof.Machine.execRequestResponse tag status s
  | .shadowTakeover ch => Sys2Proof.Machine.execShadowTakeover ch s
  | .channelStopped ch => Sys2Proof.Machine.execChannelStopped ch s
  | .ingest skerry => Sys2Proof.Machine.execIngest skerry s
  | .blockWritten stream tile => Sys2Proof.Machine.execBlockWritten stream tile s
  | .firstPass stream => Sys2Proof.Machine.execFirstPass stream s
  | .tableSlotGrant => Sys2Proof.Machine.execTableSlotGrant s
  | .reservationGrant => Sys2Proof.Machine.execReservationGrant s
  | .egress consumer => Sys2Proof.Machine.execEgress consumer s
  | .formDerivation d => Sys2Proof.Machine.execFormDerivation d s
  | .contributionAdd shard => Sys2Proof.Machine.execContributionAdd shard s
  | .stateStaged shard => Sys2Proof.Machine.execStateStaged shard s
  | .endProg e form => Sys2Proof.Machine.execEndProg e form s
  | .loop e form => Sys2Proof.Machine.execLoop e form s
  | .brz e form => Sys2Proof.Machine.execBrz e form s
  | .brnz e form => Sys2Proof.Machine.execBrnz e form s
  | .sli e form => Sys2Proof.Machine.execSli e form s
  | .sadd e form => Sys2Proof.Machine.execSadd e form s
  | .saddi e form => Sys2Proof.Machine.execSaddi e form s
  | .smul e form => Sys2Proof.Machine.execSmul e form s
  | .sshr e form => Sys2Proof.Machine.execSshr e form s
  | .sand e form => Sys2Proof.Machine.execSand e form s
  | .sldk e form => Sys2Proof.Machine.execSldk e form s
  | .vld e form => Sys2Proof.Machine.execVld e form s
  | .vst e form => Sys2Proof.Machine.execVst e form s
  | .vldd e form => Sys2Proof.Machine.execVldd e form s
  | .vstd e form => Sys2Proof.Machine.execVstd e form s
  | .vbc e form => Sys2Proof.Machine.execVbc e form s
  | .vbcs e form => Sys2Proof.Machine.execVbcs e form s
  | .vrand e form => Sys2Proof.Machine.execVrand e form s
  | .vult e form => Sys2Proof.Machine.execVult e form s
  | .vadd e form => Sys2Proof.Machine.execVadd e form s
  | .vsub e form => Sys2Proof.Machine.execVsub e form s
  | .vmul e form => Sys2Proof.Machine.execVmul e form s
  | .vfma e form => Sys2Proof.Machine.execVfma e form s
  | .vmax e form => Sys2Proof.Machine.execVmax e form s
  | .vmin e form => Sys2Proof.Machine.execVmin e form s
  | .vabs e form => Sys2Proof.Machine.execVabs e form s
  | .vneg e form => Sys2Proof.Machine.execVneg e form s
  | .vdiv e form => Sys2Proof.Machine.execVdiv e form s
  | .vsqrt e form => Sys2Proof.Machine.execVsqrt e form s
  | .vrsqrt e form => Sys2Proof.Machine.execVrsqrt e form s
  | .vexp e form => Sys2Proof.Machine.execVexp e form s
  | .vlog e form => Sys2Proof.Machine.execVlog e form s
  | .vtanh e form => Sys2Proof.Machine.execVtanh e form s
  | .verf e form => Sys2Proof.Machine.execVerf e form s
  | .vsigm e form => Sys2Proof.Machine.execVsigm e form s
  | .vcgt e form => Sys2Proof.Machine.execVcgt e form s
  | .vcge e form => Sys2Proof.Machine.execVcge e form s
  | .vceq e form => Sys2Proof.Machine.execVceq e form s
  | .vsel e form => Sys2Proof.Machine.execVsel e form s
  | .vmov e form => Sys2Proof.Machine.execVmov e form s
  | .vsr e form => Sys2Proof.Machine.execVsr e form s
  | .vqf e form => Sys2Proof.Machine.execVqf e form s
  | .vstf e form => Sys2Proof.Machine.execVstf e form s
  | .vrsum e form => Sys2Proof.Machine.execVrsum e form s
  | .vrmax e form => Sys2Proof.Machine.execVrmax e form s
  | .mz e form => Sys2Proof.Machine.execMz e form s
  | .mma e form => Sys2Proof.Machine.execMma e form s
  | .mst e form => Sys2Proof.Machine.execMst e form s
  | .pageCopyComplete set => Sys2Proof.Machine.execPageCopyComplete set s
  | .heartbeat f => Sys2Proof.Machine.execHeartbeat f s
  | .heartbeatSend => Sys2Proof.Machine.execHeartbeatSend s
  | .buoyOp f => Sys2Proof.Machine.execBuoyOp f s
  | .buoyReply f => Sys2Proof.Machine.execBuoyReply f s
  | .data f => Sys2Proof.Machine.execData f s
  | .dataDone f => Sys2Proof.Machine.execDataDone f s
  | .epochReport f => Sys2Proof.Machine.execEpochReport f s
  | .digestRoot f => Sys2Proof.Machine.execDigestRoot f s
  | .treeRequest f => Sys2Proof.Machine.execTreeRequest f s
  | .treeData f => Sys2Proof.Machine.execTreeData f s
  | .chartRequest f => Sys2Proof.Machine.execChartRequest f s
  | .chartReply f => Sys2Proof.Machine.execChartReply f s
  | .memberNotice f => Sys2Proof.Machine.execMemberNotice f s
  | .messageResend pkg => Sys2Proof.Machine.execMessageResend pkg s
  | .memberTimeout pos => Sys2Proof.Machine.execMemberTimeout pos s
  | .masterTimeout => Sys2Proof.Machine.execMasterTimeout s
  | .moduleIdentity p first second timingOk => Sys2Proof.Machine.execModuleIdentity p first second timingOk s
  | .moduleAbsent p => Sys2Proof.Machine.execModuleAbsent p s
  | .status p reply => Sys2Proof.Machine.execStatus p reply s
  | .lanes p reply => Sys2Proof.Machine.execLanes p reply s
  | .preset p reply => Sys2Proof.Machine.execPreset p reply s
  | .phyStart p reply => Sys2Proof.Machine.execPhyStart p reply s
  | .phyResult p reply => Sys2Proof.Machine.execPhyResult p reply s
  | .linkUp p reply => Sys2Proof.Machine.execLinkUp p reply s
  | .scrubBand p reply => Sys2Proof.Machine.execScrubBand p reply s
  | .scrubPoll p reply => Sys2Proof.Machine.execScrubPoll p reply s
  | .wake p reply => Sys2Proof.Machine.execWake p reply s
  | .readFrame p => Sys2Proof.Machine.execReadFrame p s
  | .writeFrame p => Sys2Proof.Machine.execWriteFrame p s
  | .dataFrame p f => Sys2Proof.Machine.execDataFrame p f s
  | .doneFrame p f => Sys2Proof.Machine.execDoneFrame p f s
  | .controlFrame p f => Sys2Proof.Machine.execControlFrame p f s
  | .linkReplay p => Sys2Proof.Machine.execLinkReplay p s
  | .alarmWord p word framed => Sys2Proof.Machine.execAlarmWord p word framed s
  | .attentionPulse p => Sys2Proof.Machine.execAttentionPulse p s
  | .earlyRemovalWarning p => Sys2Proof.Machine.execEarlyRemovalWarning p s
  | .moduleBusy p => Sys2Proof.Machine.execModuleBusy p s
  | .relocationComplete p unreadable => Sys2Proof.Machine.execRelocationComplete p unreadable s
  | .ageUpdate => Sys2Proof.Machine.execAgeUpdate s
  | .bandRecordWriteback => Sys2Proof.Machine.execBandRecordWriteback s
  | .scrubDue p => Sys2Proof.Machine.execScrubDue p s
  | .dataSpan d bay sp => Sys2Proof.Machine.execDataSpan d bay sp s
  | .controlSpan d bay sp => Sys2Proof.Machine.execControlSpan d bay sp s
  | .retryPulse d bay => Sys2Proof.Machine.execRetryPulse d bay s
  | .strapWord d word => Sys2Proof.Machine.execStrapWord d word s
  | .strapTimeout d => Sys2Proof.Machine.execStrapTimeout d s
  | .dieLost d cause => Sys2Proof.Machine.execDieLost d cause s
  | .stackFailed n => Sys2Proof.Machine.execStackFailed n s
  | .sleepEntry dom => Sys2Proof.Machine.execSleepEntry dom s
  | .fastDomainWake => Sys2Proof.Machine.execFastDomainWake s
  | .supplyWarning rail mv => Sys2Proof.Machine.execSupplyWarning rail mv s
  | .warningCleared rail samples => Sys2Proof.Machine.execWarningCleared rail samples s
  | .admissionTimeout p => Sys2Proof.Machine.execAdmissionTimeout p s
  | .mcLoadComplete m => Sys2Proof.Machine.execMcLoadComplete m s
  | .dynamicAddressAssignment addr => Sys2Proof.Machine.execDynamicAddressAssignment addr s
  | .serverCoreRead addr n => Sys2Proof.Machine.execServerCoreRead addr n s

end Sys2Proof.Machine
end

