-- ==== Sys2Proof/Machine/Tick.lean ====
section
/-! DEFINITION. What passes with one standby cycle when no command waits (log entry 1, DESIGN CHOICE). -/

namespace Sys2Proof.Machine

/-- One standby cycle: TIME (R472), and the cycles behind ASLEEP_TIME (R442) and ORPHAN_TIME (R387). -/
def State.passCycle (s : State) : State :=
  { s with clock := ⟨(s.clock.cycles + 1) % 2 ^ 48,
      if s.asleep then s.clock.asleep + 1 else s.clock.asleep,
      if s.ch Ch.sessionState = 2 then s.clock.orphan + 1 else s.clock.orphan⟩ }

/-- A cycle in which no command waits: a validated replacement of a plan that has stopped goes in (R101; log entry 23, DEDUCED), and a DISABLE that waited for requests that are gone is done (R383). -/
def State.tick (s : State) : State := s.passCycle.tryReplace.closeRegions

end Sys2Proof.Machine
end

