-- ==== Sys2Proof/WellFormed.lean ====
section
/-! DEFINITION. Well-formed commands: every operand names an instance the block has, and every field lies within its width. -/

namespace Sys2Proof

/-- A mailbox path names one of the four slots (R455). -/
def Path.wf : Path → Bool
  | .mailbox k => decide (k < 4)
  | .mctp => true
  | .cascade => true

/-- SEQ has 16 bits, OFFSET 32 and LENGTH 16 (R455). -/
def Req.wf (r : Req) : Bool := r.path.wf && decide (r.seq < 2 ^ 16 ∧ r.offset < 2 ^ 32 ∧ r.data.length < 2 ^ 16)

/-- A faulting address has 52 bits (R8). -/
def MemResult.wf : MemResult → Bool
  | .ok => true
  | .pageFault a => decide (a < 2 ^ 52)
  | .busError a => decide (a < 2 ^ 52)

/-- The register numbers and fields of the register form (R254). -/
def GForm.wf (i : GForm) : Bool := decide (i.pred < 8 ∧ i.d < 32 ∧ i.a < 32 ∧ i.b < 32 ∧ i.c < 32)

/-- The register numbers and fields of the immediate form (R254). -/
def IForm.wf (i : IForm) : Bool := decide (i.pred < 8 ∧ i.d < 32 ∧ i.a < 32 ∧ i.b < 32 ∧ i.imm < 2 ^ 32)

/-- A cascade payload is as long as LENGTH can say (R392). -/
def Frame.wf (f : Frame) : Bool := decide (f.payload.length < 2 ^ 16)

/-- A link frame carries at most one 256-byte sector (R332). -/
def LinkFrame.wf (f : LinkFrame) : Bool := decide (f.payload.length ≤ 256)

/-- A span carries 1,024 data bytes (R407). -/
def Span.wf (sp : Span) : Bool := decide (sp.data.length ≤ 1024)

/-- A handle's tile count fits a buffer of at most 64 MiB (R167, R171). -/
def HandleTag.wf (t : HandleTag) : Bool := decide (t.number < 2 ^ 32 ∧ t.tiles ≤ 16384)

/-- There are 256 lanes and two Quays (R142, R167). -/
def Requester.wf : Requester → Bool
  | .lane l => decide (l < 256)
  | .quay d => decide (d < 2)

/-- A rail is one of five (R439). -/
def FastCause.wf : FastCause → Bool
  | .control r => r.wf
  | .rail r => decide (r < 5)
  | .pllUnlock => true

def FullCause.wf : FullCause → Bool
  | .standbyRising => true
  | .control r => r.wf
  | .rail r => decide (r < 5)
  | .refclkLost => true

/-- A wire is one of those of FAILED_WIRES, and its run has at most 32 positions (R415, R421). -/
def TrainResult.wf (r : TrainResult) : Bool := r.eyes.all (fun e => decide (e.1 < 35008 ∧ e.2 ≤ 32))

/-- A module's records are of its 144,496 bands, its factory defects among those it may map (R327, R344). -/
def ModuleData.wf (m : ModuleData) : Bool :=
  decide (m.ownerTag < 2 ^ 64 ∧ m.setRecord < 2 ^ 16) && m.bands.all (fun e => decide (e.1 < 144496 ∧ e.2 < 2 ^ 64)) && m.factory.all (fun b => decide (b < 144480))

/-- A well-formed command. -/
def Instr.wf : Instr → Bool
  | .stow _ => true
  | .fetch _ => true
  | .recompute _ => true
  | .discard _ => true
  | .signal _ => true
  | .wait _ => true
  | .barrierEntry _ => true
  | .fence _ => true
  | .inlineWrite _ m => m.wf
  | .tableLoad _ m => m.wf
  | .tableBuild _ m => m.wf
  | .load _ => true
  | .replace _ => true
  | .unload _ => true
  | .restart _ => true
  | .planValidation m => m.wf
  | .snapshot _ m => m.wf
  | .digest _ m => m.wf
  | .restore _ m => m.wf
  | .update _ m => m.wf
  | .exportCmd _ => true
  | .importCmd _ => true
  | .move _ => true
  | .compare _ m => m.wf
  | .nop _ => true
  | .submissionDoorbell _ _ _ _ => true
  | .completionDoorbell _ _ _ _ => true
  | .commandDispatch m => m.head.wf && m.slot.wf
  | .queueEnable r => r.wf
  | .queueDisable r => r.wf
  | .channelEnable r => r.wf
  | .channelDisable r => r.wf
  | .channelStop r => r.wf
  | .channelResume r => r.wf
  | .channelReset r => r.wf
  | .clearFlags r => r.wf
  | .arm r => r.wf
  | .ringEnable r => r.wf
  | .ringDisable r => r.wf
  | .register r m => r.wf && m.wf
  | .retire r => r.wf
  | .buoyBind r => r.wf
  | .unbind r => r.wf
  | .buoyReset r => r.wf
  | .admitKeep p r => decide (p < 16) && r.wf
  | .admitErase p r => decide (p < 16) && r.wf
  | .remove p r => decide (p < 16) && r.wf
  | .reidentify p r => decide (p < 16) && r.wf
  | .windowOffset r => r.wf
  | .windowFlush r => r.wf
  | .windowLoad _ _ => true
  | .windowStore _ _ => true
  | .setAdopt r m => r.wf && m.wf
  | .drop r => r.wf
  | .copyPartner r => r.wf
  | .feedWrite sub r => decide (1 ≤ sub ∧ sub ≤ 2) && r.wf
  | .correlatedOverride r => r.wf
  | .regionEnable r => r.wf
  | .regionDisable r => r.wf
  | .attach r => r.wf
  | .takeover r => r.wf
  | .detach r => r.wf
  | .heartbeatTimeout => true
  | .train d r => decide (d < 2) && r.wf
  | .trainingComplete d res => decide (d < 2) && res.wf
  | .cwResume d r => decide (d < 2) && r.wf
  | .cwRelease d r => decide (d < 2) && r.wf
  | .fastReset cause => cause.wf
  | .fullReset cause => cause.wf
  | .mcLoad r => r.wf
  | .holdAwake r => r.wf
  | .create r => r.wf
  | .teardown r => r.wf
  | .preempt r => r.wf
  | .contextResume r => r.wf
  | .contextFreed ctx => decide (ctx < 4096)
  | .xtsKey r => r.wf
  | .philoxKey r => r.wf
  | .assign r => r.wf
  | .regionFillComplete rgn => decide (rgn < 256)
  | .regionRelease r => r.wf
  | .genSelect r => r.wf
  | .chartWrite index sub r => decide (index < 65536) && decide (sub < 256) && r.wf
  | .chartInfo index sub r => decide (index < 65536) && decide (sub < 256) && r.wf
  | .setEndpointId eid => decide (eid < 256)
  | .getEndpointId => true
  | .getMctpVersionSupport => true
  | .getMessageTypeSupport => true
  | .getVendorDefinedMessageSupport => true
  | .serverCoreWrite _ _ => true
  | .deviceMemoryWrite requester _ _ => decide (requester < 65536)
  | .deviceMemoryRead requester _ _ => decide (requester < 65536)
  | .deviceAtomicOp requester _ => decide (requester < 65536)
  | .stepStart => true
  | .stepEnd _ => true
  | .computeTask _ => true
  | .computeComplete d => decide (d < 2)
  | .computeSuspend d => decide (d < 2)
  | .stowTask _ => true
  | .reduceTask _ => true
  | .reefWrite _ => true
  | .prefetch _ => true
  | .feed _ => true
  | .recomputeTask _ => true
  | .updateTask _ => true
  | .discardTask _ => true
  | .snapshotTask _ => true
  | .digestTask _ => true
  | .exchange _ => true
  | .barrierTask _ => true
  | .taskComplete _ => true
  | .taskLate _ => true
  | .handlePass d ring _ tag _ => decide (d < 2) && decide (ring < 1024) && tag.wf
  | .drainRequest d _ _ _ => decide (d < 2)
  | .laneTakesItem l => decide (l.lane < 256) && l.mem.wf
  | .requestSlotGrant q => q.requester.wf && q.mem.wf
  | .pacingTick t => decide (t < 16)
  | .requestResponse _ _ => true
  | .shadowTakeover ch => decide (ch < 65536)
  | .channelStopped ch => decide (ch < 65536)
  | .ingest skerry => decide (skerry < 20)
  | .blockWritten _ _ => true
  | .firstPass _ => true
  | .tableSlotGrant => true
  | .reservationGrant => true
  | .egress _ => true
  | .formDerivation d => decide (d < 2)
  | .contributionAdd _ => true
  | .stateStaged _ => true
  | .endProg e i => decide (e < 40) && i.wf
  | .loop e i => decide (e < 40) && i.wf
  | .brz e i => decide (e < 40) && i.wf
  | .brnz e i => decide (e < 40) && i.wf
  | .sli e i => decide (e < 40) && i.wf
  | .sadd e i => decide (e < 40) && i.wf
  | .saddi e i => decide (e < 40) && i.wf
  | .smul e i => decide (e < 40) && i.wf
  | .sshr e i => decide (e < 40) && i.wf
  | .sand e i => decide (e < 40) && i.wf
  | .sldk e i => decide (e < 40) && i.wf
  | .vld e i => decide (e < 40) && i.wf
  | .vst e i => decide (e < 40) && i.wf
  | .vldd e i => decide (e < 40) && i.wf
  | .vstd e i => decide (e < 40) && i.wf
  | .vbc e i => decide (e < 40) && i.wf
  | .vbcs e i => decide (e < 40) && i.wf
  | .vrand e i => decide (e < 40) && i.wf
  | .vult e i => decide (e < 40) && i.wf
  | .vadd e i => decide (e < 40) && i.wf
  | .vsub e i => decide (e < 40) && i.wf
  | .vmul e i => decide (e < 40) && i.wf
  | .vfma e i => decide (e < 40) && i.wf
  | .vmax e i => decide (e < 40) && i.wf
  | .vmin e i => decide (e < 40) && i.wf
  | .vabs e i => decide (e < 40) && i.wf
  | .vneg e i => decide (e < 40) && i.wf
  | .vdiv e i => decide (e < 40) && i.wf
  | .vsqrt e i => decide (e < 40) && i.wf
  | .vrsqrt e i => decide (e < 40) && i.wf
  | .vexp e i => decide (e < 40) && i.wf
  | .vlog e i => decide (e < 40) && i.wf
  | .vtanh e i => decide (e < 40) && i.wf
  | .verf e i => decide (e < 40) && i.wf
  | .vsigm e i => decide (e < 40) && i.wf
  | .vcgt e i => decide (e < 40) && i.wf
  | .vcge e i => decide (e < 40) && i.wf
  | .vceq e i => decide (e < 40) && i.wf
  | .vsel e i => decide (e < 40) && i.wf
  | .vmov e i => decide (e < 40) && i.wf
  | .vsr e i => decide (e < 40) && i.wf
  | .vqf e i => decide (e < 40) && i.wf
  | .vstf e i => decide (e < 40) && i.wf
  | .vrsum e i => decide (e < 40) && i.wf
  | .vrmax e i => decide (e < 40) && i.wf
  | .mz e i => decide (e < 40) && i.wf
  | .mma e i => decide (e < 40) && i.wf
  | .mst e i => decide (e < 40) && i.wf
  | .pageCopyComplete _ => true
  | .heartbeat f => f.wf
  | .heartbeatSend => true
  | .buoyOp f => f.wf
  | .buoyReply f => f.wf
  | .data f => f.wf
  | .dataDone f => f.wf
  | .epochReport f => f.wf
  | .digestRoot f => f.wf
  | .treeRequest f => f.wf
  | .treeData f => f.wf
  | .chartRequest f => f.wf
  | .chartReply f => f.wf
  | .memberNotice f => f.wf
  | .messageResend pkg => decide (pkg < 4096)
  | .memberTimeout pos => decide (pos < 8)
  | .masterTimeout => true
  | .moduleIdentity p _ _ _ => decide (p < 16)
  | .moduleAbsent p => decide (p < 16)
  | .status p _ => decide (p < 16)
  | .lanes p _ => decide (p < 16)
  | .preset p _ => decide (p < 16)
  | .phyStart p _ => decide (p < 16)
  | .phyResult p _ => decide (p < 16)
  | .linkUp p reply => decide (p < 16) && reply.found.all ModuleData.wf
  | .scrubBand p _ => decide (p < 16)
  | .scrubPoll p _ => decide (p < 16)
  | .wake p _ => decide (p < 16)
  | .readFrame p => decide (p < 16)
  | .writeFrame p => decide (p < 16)
  | .dataFrame p f => decide (p < 16) && f.wf
  | .doneFrame p f => decide (p < 16) && f.wf
  | .controlFrame p f => decide (p < 16) && f.wf
  | .linkReplay p => decide (p < 16)
  | .alarmWord p _ _ => decide (p < 16)
  | .attentionPulse p => decide (p.port < 16)
  | .earlyRemovalWarning p => decide (p < 16)
  | .moduleBusy p => decide (p < 16)
  | .relocationComplete p _ => decide (p < 16)
  | .ageUpdate => true
  | .bandRecordWriteback => true
  | .scrubDue p => decide (p < 16)
  | .dataSpan d bay sp => decide (d < 2) && decide (bay < 16) && sp.wf
  | .controlSpan d bay sp => decide (d < 2) && decide (bay < 16) && sp.wf
  | .retryPulse d bay => decide (d < 2) && decide (bay < 16)
  | .strapWord d _ => decide (d < 2)
  | .strapTimeout d => decide (d < 2)
  | .dieLost d _ => decide (d < 2)
  | .stackFailed n => decide (n < 20)
  | .sleepEntry dom => decide (dom < 3)
  | .fastDomainWake => true
  | .supplyWarning rail mv => decide (rail < 5) && decide (mv < 65536)
  | .warningCleared rail _ => decide (rail < 5)
  | .admissionTimeout p => decide (p < 16)
  | .mcLoadComplete m => m.wf
  | .dynamicAddressAssignment addr => decide (addr < 128)
  | .serverCoreRead _ _ => true

end Sys2Proof
end

