-- ==== Sys2Proof/Safety.lean ====
section
/-! DEFINITION. The terms in which the statements speak: when a write of the Chart, a cascade message, a frame of a Reef link or a plan task is taken, what a well-formed register file is, and which commands are instructions of a Shoal program. -/

namespace Sys2Proof.Machine

/-- The checks of R483 that every entry shares, and the slot's own of R456, let a WRITE of the entry through. -/
def ChecksPass (s : State) (index sub : Nat) (r : Req) : Prop :=
  s.slotBusy r.path = false ∧ s.writeStatus index sub r { range := true, state := true, params := true, effect := id } = Cs.ok

/-- The reply to an accepted WRITE (R455, R460). -/
def State.okReply (s : State) (index sub : Nat) (r : Req) : State :=
  s.reply 2 index sub r
    ⟨Cs.ok, (match chartEntry index sub with | some e => e.type.size | none => 0),
      (match chartEntry index sub with | some e => if e.type.isBlob then s.entryGen.getD (index * 256 + sub) 0 else 0 | none => 0), []⟩

/-- The sender of a cascade frame. -/
def frameSrc (f : Frame) : Nat := MsgHdr.srcPackage.get f.header.toNat
/-- The argument of a cascade frame. -/
def frameArg (f : Frame) : Nat := MsgHdr.arg.get f.header.toNat

/-- A message of a kind that R393 does not discard and that is next in its sender's sequence (R394). -/
def MessageTaken (s : State) (kind : Nat) (f : Frame) : Prop :=
  s.discards f = false ∧ MsgHdr.kind.get f.header.toNat = kind ∧ MsgHdr.seq.get f.header.toNat = ((s.peer (frameSrc f)).rxSeq + 1) % 65536

/-- The state in which a message that has been taken acts: its ACK used, its sequence number kept, its sender heard (R394, R396). -/
def State.afterFrame (s : State) (f : Frame) : State :=
  let t := (s.takeAck (frameSrc f) (MsgHdr.ack.get f.header.toNat)).wake
  (t.setPeer (frameSrc f) { t.peer (frameSrc f) with rxSeq := MsgHdr.seq.get f.header.toNat }).hear (frameSrc f)

/-- A link frame of a kind that is sound and next in its module's sequence (R333, R334). -/
def LinkTaken (s : State) (p kind : Nat) (f : LinkFrame) : Prop :=
  s.moduleServes p true = true ∧ linkSound f = true ∧ LinkHdr.kind.get f.header.toNat = kind
    ∧ LinkHdr.seq.get f.header.toNat = ((s.port p).rxSeq + 1) % 4096

/-- The state in which a link frame that has been taken acts. -/
def State.afterLink (s : State) (p : Nat) (f : LinkFrame) : State :=
  (s.linkAck p (LinkHdr.ack.get f.header.toNat)).modPort p (fun q => { q with rxSeq := LinkHdr.seq.get f.header.toNat })

/-- Task `x` of a kind may be dispatched now as R74 says, and entering its wait edges leads to `t`: it stands at the head of its queue, no failed stack concerns it, its edges are met, its version is written, its tile is there, and no SNAPSHOT holds it. -/
def TaskMayStart (s t : State) (x : TaskRef) (kind : Nat) : Prop :=
  s.tf x.task TaskRec.taskKind = kind ∧ x.task < s.taskCount ∧ s.run x = none ∧ s.atHead x = true ∧ s.lostStacks.any (s.taskOn x.task) = false
    ∧ s.arrive x = (t, none) ∧ t.edgesMet x = true ∧ t.versionReady x = true ∧ t.tileReady x = true ∧ t.snapshotHolds x = false

/-- Engine `e` runs `v`, and the pc of its registers names the instruction word `w` (R251, R254). -/
def State.InsnAt (s : State) (e w : Nat) (v : Invocation) : Prop := (s.engine e).run = some v ∧ nth v.code (s.engine e).regs.pc 0 = w

/-- What an engine holds beside its registers when an instruction begins, nothing counted yet. -/
def State.insnBench (s : State) (e : Nat) (v : Invocation) : Bench := { Bench.empty with dbuf := (s.engine e).dbuf, started := v.started }

/-- The state after an instruction that leaves the registers `r` and counted what `b` says: loops that end are closed (R257), the counts are added (R258, R259, R268). -/
def State.afterInsn (s : State) (e : Nat) (v : Invocation) (b : Bench) (r : Regs) : State :=
  (s.setEngine e { s.engine e with regs := r.settle, dbuf := b.dbuf, run := some { v with started := b.started, clipSeen := v.clipSeen || b.clips != 0 } }).benchCounts e v b

/-- A register file as the block has it: 32 vector registers of 512 lanes, 32 scalars with S0 zero, 8 predicates of 512 lanes with P0 all ones, 1,024 accumulators (R244). -/
def Regs.wf (r : Regs) : Bool :=
  r.v.length == 32 && r.v.all (fun x => x.length == 512) && r.s.length == 32 && nth r.s 0 1 == 0
    && r.p.length == 8 && r.p.all (fun x => x.length == 512) && nth r.p 0 [] == List.replicate 512 true && r.acc.length == 1024

/-- The engine of an instruction that reads no source and writes no OUT: every instruction of a program but END, VLD, MMA and the three stores to OUT. -/
def Instr.laneInsn : Instr → Option Nat
  | .loop e _ | .brz e _ | .brnz e _ | .sli e _ | .saddi e _ | .sshr e _ | .sldk e _ | .vldd e _ | .vstd e _ | .vbc e _ | .vqf e _ | .mz e _ => some e
  | .sadd e _ | .smul e _ | .sand e _ | .vbcs e _ | .vrand e _ | .vult e _ | .vadd e _ | .vsub e _ | .vmul e _ | .vfma e _ | .vmax e _ | .vmin e _ | .vabs e _ | .vneg e _
  | .vdiv e _ | .vsqrt e _ | .vrsqrt e _ | .vexp e _ | .vlog e _ | .vtanh e _ | .verf e _ | .vsigm e _ | .vcgt e _ | .vcge e _ | .vceq e _ | .vsel e _ | .vmov e _
  | .vsr e _ | .vrsum e _ | .vrmax e _ => some e
  | _ => none

/-- Every bound semaphore begins with and holds at most LIMIT units, and every barrier at most PARTICIPANTS entries of its round and of the next (R286, R289). -/
def State.buoysWf (s : State) : Bool :=
  s.buoys.all (fun e => if e.2.kind = Bk.semaphore then decide (e.2.initial ≤ e.2.limit ∧ e.2.count ≤ e.2.limit)
    else decide (e.2.entries.length ≤ e.2.participants ∧ e.2.parked.length ≤ e.2.participants))

/-- Every engine's register file is well formed. -/
def State.enginesWf (s : State) : Bool := s.engines.all (fun e => e.2.regs.wf)

/-- The memory has its canonical form. -/
def State.memWf (s : State) : Bool := Memory.wf s.mem

end Sys2Proof.Machine
end

