-- ==== Sys2Proof/Certificates/Slice0/Obligations.lean ====
section
/-! DEFINITION. The statements about the block. A hypothesis is a condition of the rule the statement cites; `exec … = .next t` says that the command completes and that `t` is all it leaves. -/

open Sys2Proof Sys2Proof.Machine

/-! ### The step and the reset -/

/-- A step takes the command at the front of the queue and runs it on the state with the rest; with none waiting the block idles for one standby cycle (log entry 1, the model's choice). -/
def Obligations.StepRunsFrontCommand : Prop :=
  (∀ (c : Instr) (rest : List Instr) (s : State), s.pending = c :: rest → step s = exec c { s with pending := rest })
  ∧ ∀ s : State, s.pending = [] → step s = .next s.tick

/-! ### Commands of the tide queues -/

/-- NOP, FENCE and DISCARD end with SUCCESS; INLINE_WRITE stores exactly LENGTH bytes of DATA at ADDRESS and ends with SUCCESS; each then takes the completion actions of R136. -/
def Obligations.SimpleCommandsComplete : Prop :=
  ∀ (c : Nat) (s : State) (d : Dispatched),
    (s.readyCmd c Op.nop = some d → exec (.nop c) s = .next (s.endCmd d St.success 0))
    ∧ (s.readyCmd c Op.fence = some d → s.fenced d = [] → exec (.fence c) s = .next (s.endCmd d St.success 0))
    ∧ (s.readyCmd c Op.discard = some d →
        (∀ i, i < cmdGet d.word CmdDiscard.count → s.stateOf (i + cmdGet d.word CmdDiscard.stream) ≠ Ss.filling) →
        exec (.discard c) s = .next ((((List.range (cmdGet d.word CmdDiscard.count)).map (· + cmdGet d.word CmdDiscard.stream)).foldl State.discardStream s).endCmd d St.success 0))
    ∧ (s.readyCmd c Op.inlineWrite = some d → cmdGet d.word CmdInline.length ≠ 0 →
        s.filling (cmdGet d.word CmdInline.address) (cmdGet d.word CmdInline.length) = false →
        s.mergeFails (cmdGet d.word CmdInline.address) (cmdGet d.word CmdInline.length) = none →
        exec (.inlineWrite c .ok) s = .next ((s.put (cmdGet d.word CmdInline.address)
          ((leBytes 40 (cmdGet d.word CmdInline.data)).take (cmdGet d.word CmdInline.length))).endCmd d St.success 0))
    ∧ (s.readyCmd c Op.inlineWrite = some d → cmdGet d.word CmdInline.length = 0 →
        ∀ m, exec (.inlineWrite c m) s = .next (s.endCmd d St.success 0))

/-- SIGNAL adds its units to a bound semaphore and serves the waiters; WAIT takes its units at once where they are there and nobody waits, and otherwise waits last in line; an entry of the current round joins the barrier, whose round completes once it is full. Each has its name translated first, and is reported where it meets a name of the running plan (R277, R288). -/
def Obligations.BuoyCommandsComplete : Prop :=
  ∀ (c k : Nat) (s u v : State) (d : Dispatched) (b : Buoy),
    d.stage = .ready → s.buoyAway d.word = false → cmdGet d.word CmdBuoy.count ≠ 0 → b.lost = false →
    u = (s.meetsPlan d.queue (s.cmdContext d) (cmdGet d.word CmdBuoy.buoy)).translates →
    v = ((s.setStage c .waiting 0).meetsPlan d.queue (s.cmdContext d) (cmdGet d.word CmdBuoy.buoy)).translates →
    (s.cmd c Op.signal = some d → u.findBuoy (s.cmdContext d) (cmdGet d.word CmdBuoy.buoy) = some (k, b) →
        b.kind = Bk.semaphore → b.count + cmdGet d.word CmdBuoy.count ≤ b.limit →
        exec (.signal c) s = .next ((((u.setBuoy k { b with count := b.count + cmdGet d.word CmdBuoy.count }).noteSignal k).serve k).endCmd d St.success 0))
    ∧ (s.cmd c Op.wait = some d → v.findBuoy (s.cmdContext d) (cmdGet d.word CmdBuoy.buoy) = some (k, b) →
        cmdGet d.word CmdBuoy.barrier = 0 → b.kind = Bk.semaphore → cmdGet d.word CmdBuoy.count ≤ b.limit →
        exec (.wait c) s = .next (
          if b.waiters.isEmpty ∧ cmdGet d.word CmdBuoy.count ≤ b.count then
            (v.setBuoy k { b with count := b.count - cmdGet d.word CmdBuoy.count }).endCmd d St.success 0
          else v.setBuoy k { b with waiters := b.waiters ++ [⟨.cmd c, cmdGet d.word CmdBuoy.count⟩] }))
    ∧ (s.cmd c Op.wait = some d → v.findBuoy (s.cmdContext d) (cmdGet d.word CmdBuoy.buoy) = some (k, b) →
        cmdGet d.word CmdBuoy.barrier = 1 → b.kind = Bk.barrier → cmdGet d.word CmdBuoy.round % 2 ^ 32 = b.round % 2 ^ 32 →
        b.round < 2 ^ 32 → b.entries.length < b.participants →
        exec (.barrierEntry c) s = .next (State.roundComplete 3 (v.setBuoy k { b with entries := b.entries ++ [⟨.cmd c, 1⟩] }) k))

/-- STOW, FETCH, RECOMPUTE and MOVE begin their work: a work item on the channel named, or an engine that runs the stream's program, with the delivery the command describes. -/
def Obligations.TransferCommandsBegin : Prop :=
  ∀ (c : Nat) (s : State) (d : Dispatched),
    (s.readyCmd c Op.stow = some d → s.cmdTiles (cmdGet d.word CmdStow.stream) (cmdGet d.word CmdStow.tileFirst) (cmdGet d.word CmdStow.tileCount) ≠ 0 →
        s.dispatched.all (fun e => !(decide (e.tag < c) && e.stage == .ready && cmdGet e.word Cmd.opcode == Op.stow && cmdGet e.word CmdStow.stream == cmdGet d.word CmdStow.stream)) = true →
        s.cls (cmdGet d.word CmdStow.stream) ≠ Cl.drop → s.cls (cmdGet d.word CmdStow.stream) ≠ Cl.regen → s.stateOf (cmdGet d.word CmdStow.stream) = Ss.filling →
        exec (.stow c) s = .next (((s.modAux (cmdGet d.word CmdStow.stream) (fun a => { a with nextTile := max a.nextTile (cmdGet d.word CmdStow.tileFirst
            + s.cmdTiles (cmdGet d.word CmdStow.stream) (cmdGet d.word CmdStow.tileFirst) (cmdGet d.word CmdStow.tileCount)) })).setStage c .underway 0).addItem
          (cmdGet d.word CmdStow.channel) (.cmd c) (.stow (cmdGet d.word CmdStow.stream) (cmdGet d.word CmdStow.tileFirst)
            (s.cmdTiles (cmdGet d.word CmdStow.stream) (cmdGet d.word CmdStow.tileFirst) (cmdGet d.word CmdStow.tileCount)) (cmdGet d.word CmdStow.source)) (cmdGet d.word Cmd.urgency)))
    ∧ (s.readyCmd c Op.fetch = some d → s.cmdTiles (cmdGet d.word CmdFetch.stream) (cmdGet d.word CmdFetch.tileFirst) (cmdGet d.word CmdFetch.tileCount) ≠ 0 →
        s.fetchable (cmdGet d.word CmdFetch.stream) = true →
        (cmdGet d.word CmdFetch.destKind ≠ 0 → s.ringOn (cmdGet d.word CmdFetch.destKind - 1) (cmdGet d.word CmdFetch.dest % 65536) = true) →
        ∃ k : Consumer, k.source = .cmd c ∧ k.stream = cmdGet d.word CmdFetch.stream ∧ k.first = cmdGet d.word CmdFetch.tileFirst
          ∧ k.count = s.cmdTiles (cmdGet d.word CmdFetch.stream) (cmdGet d.word CmdFetch.tileFirst) (cmdGet d.word CmdFetch.tileCount)
          ∧ k.look = cmdGet d.word CmdFetch.lookahead ∧ k.dest = cmdGet d.word CmdFetch.dest
          ∧ k.transpose = (cmdGet d.word CmdFetch.transpose == 1) ∧ k.drain = (cmdGet d.word CmdFetch.toDrain == 1)
          ∧ k.ring = (if cmdGet d.word CmdFetch.destKind = 0 then none else some (cmdGet d.word CmdFetch.dest % 65536))
          ∧ exec (.fetch c) s = .next (((s.setStage c .underway 0).addConsumer k).addItem (cmdGet d.word CmdFetch.channel) (.cmd c)
              (.fetch s.skerry.nextConsumer) (cmdGet d.word Cmd.urgency)))
    ∧ (s.readyCmd c Op.recompute = some d → s.cmdTiles (cmdGet d.word CmdFetch.stream) (cmdGet d.word CmdFetch.tileFirst) (cmdGet d.word CmdFetch.tileCount) ≠ 0 →
        s.cls (cmdGet d.word CmdFetch.stream) = Cl.regen → s.fetchable (cmdGet d.word CmdFetch.stream) = true →
        (cmdGet d.word CmdFetch.destKind ≠ 0 → s.ringOn (cmdGet d.word CmdFetch.destKind - 1) (cmdGet d.word CmdFetch.dest % 65536) = true) →
        s.engineFree (cmdGet d.word CmdFetch.engine) = true → s.engineCmdReady d = true →
        s.engineTurn (cmdGet d.word CmdFetch.engine) (cmdGet d.word Cmd.urgency) = true →
        ∃ k : Consumer, k.source = .cmd c ∧ k.stream = cmdGet d.word CmdFetch.stream ∧ k.first = cmdGet d.word CmdFetch.tileFirst
          ∧ k.count = s.cmdTiles (cmdGet d.word CmdFetch.stream) (cmdGet d.word CmdFetch.tileFirst) (cmdGet d.word CmdFetch.tileCount)
          ∧ k.dest = cmdGet d.word CmdFetch.dest
          ∧ exec (.recompute c) s = .next ((s.setStage c .underway 0).recomputeStart (cmdGet d.word CmdFetch.engine) (.cmd c) k noRef 0))
    ∧ (s.readyCmd c Op.move = some d → cmdGet d.word CmdMove.bytes ≠ 0 →
        exec (.move c) s = .next ((s.setStage c .underway 0).addItem (cmdGet d.word CmdMove.channel) (.cmd c)
          (.built (builtMove (cmdGet d.word CmdMove.src) (cmdGet d.word CmdMove.dst) (cmdGet d.word CmdMove.srcReef == 1) (cmdGet d.word CmdMove.dstReef == 1)
            (cmdGet d.word CmdMove.bytes / 2 ^ 31 + 2) (cmdGet d.word CmdMove.bytes))) (cmdGet d.word Cmd.urgency)))

/-- TABLE_LOAD of a table that passes the checks takes, where nothing else waits for one, a generation slot that is free for it; TABLE_BUILD arms a first pass, or builds the table of samples in memory into a slot; the oldest that waits for a slot takes one; a first pass with enough tiles makes its generation CURRENT. -/
def Obligations.TableCommandsComplete : Prop :=
  ∀ (c : Nat) (s : State) (d : Dispatched),
    (∀ (t : Nat × Nat × List Nat) (k : Nat), s.cmd c Op.tableLoad = some d → d.stage = .ready → cmdGet d.word CmdTable.bytes ≠ 0 → cmdGet d.word CmdTable.kind = 0 →
        s.filling (cmdGet d.word CmdTable.source) (cmdGet d.word CmdTable.bytes) = false →
        s.failing (cmdGet d.word CmdTable.source) (cmdGet d.word CmdTable.bytes) = none → s.sourceTable d = .ok t →
        (t.2.1 = 1 → cmdGet d.word CmdTable.stream = noRef ∧ s.cmdContext d = s.ch Ch.planOwner) →
        (t.2.1 = 0 → cmdGet d.word CmdTable.stream < s.streamCount ∧ hasIndex (s.sf (cmdGet d.word CmdTable.stream) StreamRec.classF) = true
          ∧ s.streamKind (cmdGet d.word CmdTable.stream) = t.1) →
        s.skerry.slotWait = [] → s.slotFor t.2.1 t.1 = some k → exec (.tableLoad c .ok) s = .next ((s.tableOverlaps d).loadInto d k t))
    ∧ (∀ m, s.cmd c Op.tableBuild = some d → d.stage = .ready → cmdGet d.word CmdTable.samples = 0 → exec (.tableBuild c m) s = .next (s.armPass d))
    ∧ (∀ k, s.cmd c Op.tableBuild = some d → d.stage = .ready → cmdGet d.word CmdTable.samples ≠ 0 → cmdGet d.word CmdTable.kind = 0 →
        s.filling (cmdGet d.word CmdTable.samples) (4096 * cmdGet d.word CmdTable.bytes) = false →
        s.failing (cmdGet d.word CmdTable.samples) (4096 * cmdGet d.word CmdTable.bytes) = none →
        s.skerry.slotWait = [] → s.slotFor 0 (s.streamKind (cmdGet d.word CmdTable.stream)) = some k → exec (.tableBuild c .ok) s = .next (s.buildInto d k))
    ∧ (∀ n k rest, s.skerry.slotWait = .pass n :: rest → s.slotFor 0 (s.streamKind n) = some k →
        exec .tableSlotGrant s = .next ((State.takeSlot { s with skerry := { s.skerry with slotWait := rest } } k (s.streamKind n) 0 n (s.sf n StreamRec.context)).modAux n
          (fun a => { a with pass := a.pass.map (fun p => { p with slot := some k }) })))
    ∧ (∀ k rest, s.skerry.slotWait = .cmd d.tag :: rest → s.dispatched.find? (fun e => e.tag == d.tag) = some d → cmdGet d.word Cmd.opcode = Op.tableBuild →
        s.slotFor 0 (s.streamKind (cmdGet d.word CmdTable.stream)) = some k →
        exec .tableSlotGrant s = .next (State.buildInto { s with skerry := { s.skerry with slotWait := rest } } d k))
    ∧ (∀ n k p, (s.aux n).pass = some p → p.active = true → p.kind = 0 → p.slot = some k → min p.sample (s.tiles n) ≤ p.tiles.length →
        ¬ (s.tiles n < p.sample ∧ s.stateOf n = Ss.filling) →
        ∃ t g, t = s.makeCurrent k (buildTable (s.streamKind n) (p.tiles.vals.take (min p.sample (s.tiles n)))) ∧ g = (nth t.skerry.gens k GenSlot.reset).gen
          ∧ exec (.firstPass n) s = .next (((t.modAux n (fun a => { a with pass := a.armed, armed := none, bound := if t.stateOf n == Ss.filling then g else a.bound })).settleGens.writeCopy p.copy
              (serialTable (s.streamKind n) 0 (buildTable (s.streamKind n) (p.tiles.vals.take (min p.sample (s.tiles n)))))).passEnds p St.success g))

/-- PLAN_LOAD: in a plan state with a row for it, LOAD and REPLACE start the validation of the image, UNLOAD empties the plan and RESTART makes it LOADED again; the validation installs an image that passes and refuses one that does not. -/
def Obligations.PlanCommandsComplete : Prop :=
  ∀ (c : Nat) (s : State) (d : Dispatched),
    (s.planCmd c 1 = some d → s.ch Ch.planState = Pl.empty →
        exec (.load c) s = .next ((State.setStage { s with plan := { s.plan with validating := some ⟨c, cmdGet d.word CmdPlan.image, false⟩ } } c .underway 0).setCh Ch.planState Pl.loading))
    ∧ (s.planCmd c 2 = some d → (s.ch Ch.planState = Pl.loaded ∨ s.ch Ch.planState = Pl.running) → s.ch Ch.replacePending = 0 →
        exec (.replace c) s = .next ((State.setStage { s with plan := { s.plan with validating := some ⟨c, cmdGet d.word CmdPlan.image, true⟩ } } c .underway 0).setCh Ch.replacePending 1))
    ∧ (s.planCmd c 3 = some d → (s.ch Ch.planState = Pl.loaded ∨ s.ch Ch.planState = Pl.stopped) →
        exec (.unload c) s = .next ((s.dropReplacement.leavePasses (fun _ => false)).disarmDiffs.unloadPlan.endCmd d St.success 0))
    ∧ (s.planCmd c 4 = some d → s.ch Ch.planState = Pl.stopped → s.anyMarked = false →
        ∃ t : State, t.plan.steps = [] ∧ t.plan.stopping = false ∧ (∀ st rest, s.plan.steps = st :: rest → t.plan.stepsBegun = st.num)
          ∧ exec (.restart c) s = .next ((t.setCh Ch.planState Pl.loaded).endCmd d St.success 0))
    ∧ (∀ action, s.planCmd c action = some d → s.actionAllowed action = false →
        (action = 1 → exec (.load c) s = .next (s.endCmd d St.planState s.planDetail))
        ∧ (action = 2 → exec (.replace c) s = .next (s.endCmd d St.planState s.planDetail))
        ∧ (action = 3 → exec (.unload c) s = .next (s.endCmd d St.planState s.planDetail))
        ∧ (action = 4 → exec (.restart c) s = .next (s.endCmd d St.planState s.planDetail)))
    ∧ (∀ x, s.plan.validating = some x → s.cmd x.tag Op.planLoad = some d → s.filling x.image (max 160 (s.fld x.image PlanHdr.imageBytes)) = false → s.checkWords = [] →
        (s.planFail x.image x.replace = none → exec (.planValidation .ok) s = .next (s.acceptPlan d x))
        ∧ ∀ f, s.planFail x.image x.replace = some f →
            exec (.planValidation .ok) s = .next (((s.writeLoadStatus x.image f).dropValidation x.replace).endCmd d St.planInvalid (f.1 + f.2.1 * 2 ^ 16)))

/-! ### Steps and tasks of a plan -/

/-- R83: a step starts by one unit of START_BUOY, its tasks PENDING and the plan RUNNING; with two steps in flight none is taken and the unit stays; the oldest step ends only when each of its tasks is DONE, END_BUOY is then signalled once and STEP_COUNT grows by one. -/
def Obligations.StepsStartAndEnd : Prop :=
  ∀ (s : State),
    (∀ k b, (s.ch Ch.planState = Pl.loaded ∨ s.ch Ch.planState = Pl.running) → s.plan.steps.length < 2 → s.plan.stopping = false → s.plan.next = none →
        s.startUnit = some (k, b) →
        ∃ t : State, t.plan.steps = s.plan.steps ++ [⟨s.plan.stepsBegun, []⟩] ∧ t.plan.stepsBegun = s.plan.stepsBegun + 1
          ∧ t.buoys = s.buoys.put k { b with count := b.count - 1 }
          ∧ exec .stepStart s = .next (((List.range s.taskCount).foldl (fun (s : State) (t : Nat) => s.setFld (s.tables.tasks + 64 * t) TaskRec.taskState Ts.pending) t).setCh Ch.planState Pl.running))
    ∧ (∀ st rest, s.plan.steps = st :: rest → (List.range s.taskCount).all (fun t => st.tasks.getD t Ts.pending == Ts.done) = true →
        ∃ t u : State, t = State.setFld { s with plan := { s.plan with steps := rest, stepCount := s.plan.stepCount + 1 }, shards := s.shards.map (fun e => (e.1, { e.2 with marks := e.2.marks.filter (· != st.num) })) } s.tables.header PlanHdr.stepCount (s.plan.stepCount + 1)
          ∧ u = (t.signal (t.planHdr PlanHdr.planContext) (t.planHdr PlanHdr.endBuoy) 1).1
          ∧ exec (.stepEnd st.num) s = .next (if rest.isEmpty ∧ u.startUnit.isNone ∧ u.ch Ch.planState = Pl.running ∧ !u.plan.stopping
              then u.setCh Ch.planState Pl.loaded else u).tryReplace.recheckSlips)
    ∧ (2 ≤ s.plan.steps.length → exec .stepStart s = .next s)
    ∧ ∀ st rest, s.plan.steps = st :: rest → (∃ t, t < s.taskCount ∧ st.tasks.getD t Ts.pending ≠ Ts.done) → ∀ n, exec (.stepEnd n) s = .next s

/-- A task of each kind that may start is dispatched and its work begins: COMPUTE once every ring-0 task that names it has been dispatched, REEF_WRITE, PREFETCH and BARRIER at once, STOW and REDUCE once their stream is free for them and a REDUCE has its engine and its turn there, FEED once its ring is free, DISCARD unless its stream is FILLING, DIGEST once the shard's last tree is released. -/
def Obligations.TasksAreDispatched : Prop :=
  ∀ (s t : State) (x : TaskRef),
    (TaskMayStart s t x Tk.compute → (∀ y, y < t.taskCount → t.tf y TaskRec.producer = x.task → t.taskState ⟨x.step, y⟩ ≠ Ts.pending) →
        exec (.computeTask x) s = .next ((t.beginTask x none).out (.beginCompute x)))
    ∧ (TaskMayStart s t x Tk.reefWrite → exec (.reefWrite x) s = .next ((t.beginTask x none).reefWriteWork x))
    ∧ (TaskMayStart s t x Tk.prefetch → exec (.prefetch x) s = .next ((t.beginTask x none).prefetchWork x))
    ∧ (TaskMayStart s t x Tk.barrier → exec (.barrierTask x) s = .next ((t.beginTask x none).finishRun x))
    ∧ (s.tf x.task TaskRec.taskKind = Tk.stow → x.task < s.taskCount → TaskMayStart (s.reportWait x (s.tf x.task TaskRec.stream)) t x Tk.stow →
        State.mayProduce x (s.tf x.task TaskRec.stream) t = true →
        exec (.stowTask x) s = .next (State.stowWork x (s.tf x.task TaskRec.stream) (t.beginTask x none)))
    ∧ (s.tf x.task TaskRec.taskKind = Tk.reduce → x.task < s.taskCount → TaskMayStart (s.reportWait x (s.tf x.task TaskRec.stream)) t x Tk.reduce →
        t.reduceReady x (s.tf x.task TaskRec.stream) = true → t.ch (Ch.engineState + 256 * t.execIndex x.task) = 0 → t.taskTurn x = true →
        exec (.reduceTask x) s = .next (State.reduceWork x (s.tf x.task TaskRec.stream) (t.beginTask x none)))
    ∧ (TaskMayStart s t x Tk.feed → t.ringFree (t.execIndex x.task) (t.feedRing x.task) = true →
        exec (.feed x) s = .next (State.feedWork x (t.beginTask x none)))
    ∧ (TaskMayStart s t x Tk.discard → t.stateOf (s.tf x.task TaskRec.stream) ≠ Ss.filling →
        exec (.discardTask x) s = .next (((t.beginTask x none).discardStream (s.tf x.task TaskRec.stream)).finishRun x))
    ∧ (TaskMayStart s t x Tk.digest → t.cascade.trees.contains (t.shf (t.tf x.task TaskRec.shard) ShardRec.shardId) = false →
        exec (.digestTask x) s = .next (State.digestWork x (t.beginTask x none)))

/-- A RECOMPUTE, SNAPSHOT, EXCHANGE or UPDATE task that may start is dispatched and its work begins, under the conditions each adds. -/
def Obligations.GuardedTasksAreDispatched : Prop :=
  ∀ (s t : State) (x : TaskRef),
    (∀ r, r = s.feedAB (s.sf (s.tf x.task TaskRec.stream) StreamRec.die) → TaskMayStart s t x Tk.recompute →
        t.recomputeReady x.task = true → t.engineFree (s.execIndex x.task) = true → t.taskTurn x = true →
        (t.beginTask x none).ringOn (s.sf (s.tf x.task TaskRec.stream) StreamRec.die) r = true →
        (t.beginTask x none).fetchable (s.tf x.task TaskRec.stream) = true →
        ∃ c : Consumer, c.source = .task x ∧ c.stream = s.tf x.task TaskRec.stream ∧ c.ring = some r ∧ c.engine = true
          ∧ exec (.recomputeTask x) s = .next ((t.beginTask x none).recomputeStart (s.execIndex x.task) (.task x) c
              (((t.beginTask x none).pinned x).getD (noRef, 0)).1 (((t.beginTask x none).pinned x).getD (noRef, 0)).2))
    ∧ (∀ k base kind u, k = s.tf x.task TaskRec.tileFirst → u = t.beginTask x none → base = u.stf k SetRec.descAddr → kind = (Config.freeByte u.freeCount).toNat % 2 →
        TaskMayStart s t x Tk.snapshot →
        (∀ y, y ∈ t.inOrder → (y.step < x.step ∨ (y.step = x.step ∧ y.task < x.task)) → t.taskState y = Ts.done ∨ t.taskState y = Ts.notRun) →
        (k < t.ch Ch.setsCount → t.stf k SetRec.state ≠ Sst.taking) →
        k < u.ch Ch.setsCount → u.descInRegion base = true → u.failing base (64 + 32 * min (u.fld base SetDesc.itemCount) 2040) = none →
        u.setFault k base (u.tf x.task TaskRec.context) kind = none →
        exec (.snapshotTask x) s = .next (((u.drew 1).capture k base (u.tf x.task TaskRec.context) kind).finishRun x))
    ∧ (∀ u, u = t.beginTask x none → TaskMayStart s t x Tk.exchange → s.exStream x.task ≠ noRef → s.exReceives x.task = false →
        (u.stateOf (s.exStream x.task) = Ss.held ∨ u.stateOf (s.exStream x.task) = Ss.serving) →
        exec (.exchange x) s = .next (u.addItem (u.tf x.task TaskRec.channel) (.task x) (.exchange x) (u.tf x.task TaskRec.urgency)))
    ∧ (∀ u a, u = t.beginTask x none → TaskMayStart s t x Tk.exchange → s.exStream x.task = noRef → s.shardOpt (s.tf x.task TaskRec.shard) = some a →
        s.exGradient x.task = true → t.windowReady x (s.tf x.task TaskRec.shard) a = true →
        exec (.exchange x) s = .next (u.addItem (u.tf x.task TaskRec.channel) (.task x) (.exchange x) (u.tf x.task TaskRec.urgency)))
    ∧ (∀ k a u, k = s.tf x.task TaskRec.shard → u = State.updateWork x k a (t.beginTask x none) → s.shardOpt k = some a → TaskMayStart s t x Tk.update →
        t.engineFree (t.execIndex x.task) = true → t.updateReady x k a = true → t.taskTurn x = true → t.slotUnpinned k (s.newVersion x) (some x) = true → u.run x ≠ none →
        exec (.updateTask x) s = .next u)

/-- The completion of a task whose work is finished, the report and the suspension of a COMPUTE task, the search for a slip, the addition of a contribution and the staging of state. -/
def Obligations.TasksEndAndSlip : Prop :=
  ∀ (s : State) (x : TaskRef),
    ((s.run x).any TaskRun.finished = true → s.tf x.task TaskRec.taskKind ≠ Tk.compute → s.tf x.task TaskRec.taskKind ≠ Tk.update → s.writesVersion x.task = false →
        s.cls (s.tf x.task TaskRec.stream) ≠ Cl.regen → exec (.taskComplete x) s = .next (s.taskEnds x).routeAll)
    ∧ ((s.run x).any TaskRun.finished = true → s.tf x.task TaskRec.taskKind = Tk.update → exec (.taskComplete x) s = .next ((s.updateTaskCompletes x).taskEnds x).routeAll)
    ∧ (∀ d, s.computing d = some x → (s.run x).any TaskRun.finished = false → exec (.computeComplete d) s = .next (s.routeAll.settleCompute x))
    ∧ (∀ d c, s.computing d = some x → (s.run x).any TaskRun.finished = false → c ∈ s.skerry.consumers → c.die = d → c.ring.isSome = true → c.shard = false →
        c.taken = c.filled → c.filled < c.count → (∃ y, c.source = .task y ∧ y.step = x.step) →
        ∃ t : State, t.plan.runs = s.plan.runs.map (fun r => if r.ref = x then { r with suspended := true } else r) ∧ t.outbox = .suspendCompute x :: s.outbox
          ∧ t.plan.lateSeen.contains x = true ∧ t.mem = s.mem ∧ exec (.computeSuspend d) s = .next (t.slip x))
    ∧ (∀ t, s.atHead x = true → x.task < s.taskCount → s.arrive x = (t, none) → t.stillLate x = true →
        exec (.taskLate x) s = .next (State.slip { t with plan := { t.plan with lateSeen := if t.plan.lateSeen.contains x then t.plan.lateSeen else t.plan.lateSeen ++ [x] } } x))
    ∧ (∀ k a w j t m, k < s.shardCount → s.shardOpt k = some a → t = s.landRemote k a → w = (t.shard k).open_ → j = t.fld a OptRec.added →
        (∀ n ∈ (t.shard k).landings, t.gradBytes a ≤ n.filled → w < n.window ∨ (n.window = w ∧ j ≤ n.index)) →
        (t.shard k).landings.find? (fun n => n.window == w && n.index == j && decide (t.gradBytes a ≤ n.filled)) = some m →
        t.bufferHeld k a w = false → (m.wide = [] → t.failingSectors (t.landBuf a j) (t.gradBytes a) = []) →
        exec (.contributionAdd k) s = .next ((((((t.accumulate a w j (if m.wide.isEmpty then gradElems (t.fld a OptRec.gradType) (t.rd (t.landBuf a j) (t.gradBytes a)) else gradElems 3 m.wide) []).modShard k
          (fun z => { z with landings := z.landings.filter (fun n => !(n.window == w && n.index == j)) })).setFld a OptRec.added (j + 1)).settleWindow k a).landRemote k a).routeAll))
    ∧ (∀ k a t bs, k < s.shardCount → s.shardOpt k = some a → s.planLoaded = true → s.mayStage k a = true →
        s.reefRead (s.fld a OptRec.stateBase) (s.stateSize a) = (t, .ok bs) →
        exec (.stateStaged k) s = .next ((t.put (t.fld a OptRec.stageBase) bs).modShard k (fun z => { z with staged := true })))

/-- SNAPSHOT captures its set, RESTORE of a copy in the Harbour restores it, DIGEST writes the root and COMPARE ends with the first difference, each with nothing in its way; a page of a set that is TAKING is copied; SET_ADOPT of a copy in the Harbour adopts it; DROP empties a set. -/
def Obligations.SetCommandsComplete : Prop :=
  ∀ (c k base n : Nat) (s : State) (d : Dispatched),
    (s.readyCmd c Op.snapshot = some d → k = cmdGet d.word CmdSet.set →
        base = (if cmdGet d.word CmdSet.descriptor = 0 then s.stf k SetRec.descAddr else cmdGet d.word CmdSet.descriptor) → k < s.ch Ch.setsCount →
        s.descInRegion base = true → s.filling base (64 + 32 * min (s.fld base SetDesc.itemCount) 2040) = false →
        s.failing base (64 + 32 * min (s.fld base SetDesc.itemCount) 2040) = none → s.setFault k base (s.cmdContext d) (cmdGet d.word CmdSet.setKind) = none →
        exec (.snapshot c .ok) s = .next (((s.setStage c .underway 0).modSet k (fun z => { z with cmd := some c })).capture k base (s.cmdContext d) (cmdGet d.word CmdSet.setKind)))
    ∧ (s.readyCmd c Op.restore = some d → k = cmdGet d.word CmdSet.set → base = s.stf k SetRec.destBase → n = s.stf k SetRec.copyBytes → k < s.ch Ch.setsCount →
        s.stf k SetRec.state = Sst.complete → s.stf k SetRec.context = s.cmdContext d → (cmdGet d.word CmdSet.setKind = 1 → s.stf k SetRec.kind ≠ 0) →
        s.ch Ch.planState ≠ Pl.loading → s.ch Ch.planState ≠ Pl.running → (s.setStf k SetRec.state Sst.restoring).stf k SetRec.destKind = 0 →
        (s.setStf k SetRec.state Sst.restoring).failing base n = none →
        exec (.restore c .ok) s = .next ((s.setStf k SetRec.state Sst.restoring).restoreWith d k ((s.setStf k SetRec.state Sst.restoring).rd base n)))
    ∧ (s.readyCmd c Op.digest = some d → base = cmdGet d.word CmdDigest.base → n = cmdGet d.word CmdDigest.bytes → n ≠ 0 → s.firstOutside base n = none →
        s.firstOutside (cmdGet d.word CmdDigest.result) 32 = none → s.offending (cmdGet d.word CmdDigest.result) 32 true = none → s.filling base n = false → s.failing base n = none →
        s.mergeFails (cmdGet d.word CmdDigest.result) 32 = none →
        exec (.digest c .ok) s = .next (((s.put (cmdGet d.word CmdDigest.result) (s.digestOf base n)).digestRuns base n).endCmd d St.success 0))
    ∧ (s.readyCmd c Op.compare = some d → n = cmdGet d.word CmdCompare.bytes → n ≠ 0 → cmdGet d.word CmdCompare.mode ≠ 1 →
        s.filling (cmdGet d.word CmdCompare.a) n = false → s.filling (cmdGet d.word CmdCompare.b) n = false →
        s.failing (cmdGet d.word CmdCompare.a) n = none → s.failing (cmdGet d.word CmdCompare.b) n = none →
        exec (.compare c .ok) s = .next (match firstDifference (s.rd (cmdGet d.word CmdCompare.a) n) (s.rd (cmdGet d.word CmdCompare.b) n) with
          | none => s.endCmd d St.success 0
          | some i => s.endCmd d St.mismatch i))
    ∧ (∀ p rest, s.stf k SetRec.state = Sst.taking → k < s.ch Ch.setsCount → (s.setAt k).pages = p :: rest → exec (.pageCopyComplete k) s = .next (s.copyPage k p))
    ∧ (∀ (r : Req) (root : Nat) (t : State), k = r.value % 2 ^ 32 → base = Fld.get ⟨127, 64⟩ r.value → root = Fld.get ⟨383, 128⟩ r.value →
        ChecksPass s 0x8000 4 r → Fld.get ⟨39, 32⟩ r.value = 0 → Fld.get ⟨63, 40⟩ r.value = 0 → base % 65536 = 0 → k < s.ch Ch.setsCount →
        (s.stf k SetRec.state = Sst.empty ∨ s.stf k SetRec.state = Sst.broken) →
        base < 2 ^ 52 → s.failing base 65536 = none → s.firstOutside base 65536 = none → adoptable (s.rd base 65536) = true → n = SetRec.copyBytes.get (s.rdNat base 128) →
        t = s.adoptBegins k 0 base root 0 (s.rd base 65536) → t.failing base n = none → t.firstOutside base n = none →
        exec (.setAdopt r .ok) s = .next ((t.adoptWith k (t.rd base n)).okReply 0x8000 4 r))
    ∧ (∀ r : Req, k = Fld.get ⟨43, 32⟩ r.value → ChecksPass s 0x8000 5 r → actionIs r actF 1 = true → onlyBits r.value [⟨43, 32⟩, actF] = true → k < s.ch Ch.setsCount →
        (s.stf k SetRec.state = Sst.complete ∨ s.stf k SetRec.state = Sst.broken) →
        exec (.drop r) s = .next ((((s.setStf k SetRec.state Sst.empty).modSet k (fun z => { z with gens := [] })).settleGens).okReply 0x8000 5 r))

/-- EXPORT and IMPORT of an object that accepts them begin a transfer on their channel; IMPORT of a stream from this package's memory begins as a STOW does; with nothing in the way, a lane that takes an EXPORT of a shard writes its record (log entry 100, the model's choice, for the single piece), and one that takes an IMPORT of a record or of differences reads them here; UPDATE starts its engine on the gradients at GRAD. -/
def Obligations.ShardCommandsComplete : Prop :=
  ∀ (c a : Nat) (s t : State) (d : Dispatched),
    (s.readyCmd c Op.exportC = some d → cmdGet d.word CmdExport.bytes ≠ 0 → s.replicaRefused d.word = none →
        exec (.exportCmd c) s = .next ((s.setStage c .underway (s.exportedVersion d.word)).addItem (cmdGet d.word CmdExport.channel) (.cmd c) (.carry c) (cmdGet d.word Cmd.urgency)))
    ∧ (s.readyCmd c Op.importC = some d → cmdGet d.word CmdExport.bytes ≠ 0 → s.replicaRefused d.word = none → cmdGet d.word CmdExport.objectKind ≠ 0 →
        exec (.importCmd c) s = .next ((s.setStage c .underway 0).addItem (cmdGet d.word CmdExport.channel) (.cmd c) (.carry c) (cmdGet d.word Cmd.urgency)))
    ∧ (s.readyCmd c Op.importC = some d → cmdGet d.word CmdExport.bytes ≠ 0 → s.replicaRefused d.word = none → cmdGet d.word CmdExport.objectKind = 0 →
        cmdGet d.word CmdExport.remote = 0 → s.cls (cmdGet d.word CmdExport.object) ≠ Cl.drop → s.cls (cmdGet d.word CmdExport.object) ≠ Cl.regen →
        s.fillWhole (cmdGet d.word CmdExport.object) = .filling t →
        exec (.importCmd c) s = .next ((t.setStage c .underway 0).addItem (cmdGet d.word CmdExport.channel) (.cmd c)
          (.stow (cmdGet d.word CmdExport.object) 0 (t.tiles (cmdGet d.word CmdExport.object)) (cmdGet d.word CmdExport.address)) (cmdGet d.word Cmd.urgency)))
    ∧ (∀ (l : Nat) (i : WorkItem) (u : State) (ps : List (List Byte × Option Nat × Bool)), l < 256 → s.lane l = none → s.nextItem l = some i → i.work = .carry c →
        u = s.runItem l i .done → u.dispatched.find? (fun e => e.tag == c) = some d → cmdGet d.word Cmd.opcode = Op.exportC → u.replicaRefused d.word = none →
        cmdGet d.word CmdExport.objectKind = 1 → u.shardOpt (cmdGet d.word CmdExport.object) = some a →
        (u.setStage c .underway (u.exportedVersion d.word)).exportPayload (cmdGet d.word CmdExport.object) a = (t, ps, none) → t.checkWords = [] →
        exec (.laneTakesItem ⟨l, .ok⟩) s = .next (t.exportTo d .ok [(cmdGet d.word CmdExport.address, t.exportHeader (cmdGet d.word CmdExport.object) a (partBytes ps) ++ partBytes ps)]))
    ∧ (∀ (l : Nat) (i : WorkItem) (u : State), l < 256 → s.lane l = none → s.nextItem l = some i → i.work = .carry c →
        u = s.runItem l i .done → u.dispatched.find? (fun e => e.tag == c) = some d → cmdGet d.word Cmd.opcode = Op.importC → cmdGet d.word CmdExport.remote = 0 →
        u.failing (cmdGet d.word CmdExport.address) (cmdGet d.word CmdExport.bytes) = none →
        exec (.laneTakesItem ⟨l, .ok⟩) s = .next (u.importWith d (u.rd (cmdGet d.word CmdExport.address) (cmdGet d.word CmdExport.bytes))))
    ∧ (∀ k v args, s.readyCmd c Op.update = some d → k = cmdGet d.word CmdUpdate.shard → s.shardOpt k = some a → v = (s.shf k ShardRec.currentVersion + 1) % 65536 →
        args = (if cmdGet d.word CmdUpdate.args = 0 then s.fld a OptRec.args else cmdGet d.word CmdUpdate.args) → s.reefState a = false →
        s.engineFree (cmdGet d.word CmdUpdate.engine) = true → s.engineTurn (cmdGet d.word CmdUpdate.engine) (cmdGet d.word Cmd.urgency) = true → s.slotUnpinned k v none = true → (s.shard k).abortNext = false → (s.shard k).lostState = none →
        s.updateFailing k a v (cmdGet d.word CmdUpdate.grad) args = none →
        exec (.update c .ok) s = .next (((s.setStage c .underway 0).modShard k (fun z => { z with pins := (v + 65535) % 65536 :: z.pins })).updateStart (cmdGet d.word CmdUpdate.engine) (.cmd c) k a v
          (cmdGet d.word CmdUpdate.program) (cmdGet d.word CmdUpdate.grad) args))

/-! ### Queues, channels, rings -/

/-- A doorbell that none of the causes of R117 and R118 stops moves its index and wakes the block, or, where it passes what the ring allows, puts the queue into ERROR; one that a cause stops is ignored, counted and reported. -/
def Obligations.DoorbellsAct : Prop :=
  ∀ (src : Origin) (word : BitVec 64) (width : Nat) (aligned : Bool) (s : State) (q i : Nat), q = DoorbellWord.queue.get word.toNat → i = DoorbellWord.index.get word.toNat →
    (DoorbellWord.kind.get word.toNat = 0 → s.doorbellFault src word.toNat width aligned = 0 →
        exec (.submissionDoorbell src word width aligned) s = .next (if (i + 65536 - s.q q QueueDesc.sqHead) % 65536 ≤ s.ringSize q
          then (s.setQ q QueueDesc.sqTail i).wake else (s.queueError q 1).wake))
    ∧ (DoorbellWord.kind.get word.toNat = 1 → s.doorbellFault src word.toNat width aligned = 0 →
        exec (.completionDoorbell src word width aligned) s = .next (if (i + 65536 - s.q q QueueDesc.cqHead) % 65536 ≤ (s.q q QueueDesc.cqTail + 65536 - s.q q QueueDesc.cqHead) % 65536
          then (s.setQ q QueueDesc.cqHead i).wake else (s.queueError q 2).wake))
    ∧ (s.doorbellFault src word.toNat width aligned ≠ 0 →
        (DoorbellWord.kind.get word.toNat = 0 → exec (.submissionDoorbell src word width aligned) s = .next (s.ignoreDoorbell word.toNat (s.doorbellFault src word.toNat width aligned)))
        ∧ (DoorbellWord.kind.get word.toNat = 1 → exec (.completionDoorbell src word width aligned) s = .next (s.ignoreDoorbell word.toNat (s.doorbellFault src word.toNat width aligned))))

/-- COMMAND_DISPATCH copies the command at the head of the queue whose turn it is; ENABLE opens a queue with its five C fields set; DISABLE drains it. -/
def Obligations.QueuesServe : Prop :=
  ∀ (s : State) (q : Nat),
    (∀ c, s.pilotRuns = true → s.ch Ch.powerState = 7 → (∀ p ∈ s.offering, s.slotFree p = true) → State.nextQueue { s.countSticky Ch.cqWaits 0 with cqWaiting := [] } s.offering = some (c, q) →
        s.checkWords = [] →
        ∀ slot, exec (.commandDispatch ⟨.ok, slot⟩) s = .next (State.dispatchFrom { s.countSticky Ch.cqWaits 0 with cqWaiting := [], roundRobin := s.roundRobin.set c q } q slot))
    ∧ (∀ r, q = QueueCtl.queue.get r.value → ChecksPass s 0x1121 1 r → actionIs r actF 1 = true → onlyBits r.value [QueueCtl.queue, actF] = true → q < s.ch Ch.qtableCount →
        s.queueState q = Qs.disabled → s.failing (s.queueBase q) 64 = none → s.queueValid q = true →
        exec (.queueEnable r) s = .next ((s.enableQueue q).wake.okReply 0x1121 1 r))
    ∧ (∀ r, q = QueueCtl.queue.get r.value → ChecksPass s 0x1121 1 r → actionIs r actF 2 = true → onlyBits r.value [QueueCtl.queue, actF] = true → q < s.ch Ch.qtableCount →
        (s.queueState q = Qs.enabled ∨ s.queueState q = Qs.error) →
        exec (.queueDisable r) s = .next (((s.setQ q QueueDesc.state Qs.draining).drainQueue q).wake.okReply 0x1121 1 r))

/-- ENABLE, DISABLE, STOP, RESUME, RESET and CLEAR_FLAGS of a channel in a state they act on (R165, R166); ARM of a channel that is not HALTED. -/
def Obligations.ChannelControlsComplete : Prop :=
  ∀ (s : State) (r : Req) (c : Nat), c = ChanCtl.channel.get r.value →
    (ChecksPass s 0x5001 0 r → onlyBits r.value [ChanCtl.channel, actF] = true → c < s.ch Ch.chtableCount →
      (actionIs r actF 1 = true → s.chf c ChanRec.state = Cn.disabled → s.failing (s.chan c) 64 = none → s.contextExists (ChanRec.context.get (s.rdNat (s.chan c) 64)) = true →
          (∀ f ∈ ChanRec.rsvd ++ ChanRec.cFields, f.get (s.rdNat (s.chan c) 64) = 0) →
          exec (.channelEnable r) s = .next ((if (s.itemsOf c).isEmpty then s.setFlds (s.chan c) [(ChanRec.credits, 0), (ChanRec.state, Cn.idle)]
            else (s.headReady c).setFlds (s.chan c) [(ChanRec.credits, 0), (ChanRec.state, Cn.ready)]).wake.okReply 0x5001 0 r))
      ∧ (actionIs r actF 2 = true → s.chf c ChanRec.state = Cn.idle → s.planUsesChannel c = false →
          exec (.channelDisable r) s = .next ((s.setChf c ChanRec.state Cn.disabled).wake.okReply 0x5001 0 r))
      ∧ (actionIs r actF 3 = true → s.chf c ChanRec.state = Cn.running →
          exec (.channelStop r) s = .next (((s.rollBack c).setChf c ChanRec.state Cn.stopping).wake.okReply 0x5001 0 r))
      ∧ (actionIs r actF 3 = true → s.chf c ChanRec.state = Cn.ready →
          exec (.channelStop r) s = .next ((s.setFlds (s.chan c) [(ChanRec.state, Cn.stopped), (ChanRec.curDesc, match s.headItem c with | some i => firstDesc i | none => 0)]).wake.okReply 0x5001 0 r))
      ∧ (actionIs r actF 4 = true → (s.chf c ChanRec.state = Cn.stopped ∨ s.chf c ChanRec.state = Cn.halted) →
          exec (.channelResume r) s = .next ((s.resumeChannel c).wake.okReply 0x5001 0 r))
      ∧ (actionIs r actF 5 = true → (s.chf c ChanRec.state = Cn.stopped ∨ s.chf c ChanRec.state = Cn.halted) →
          exec (.channelReset r) s = .next (((s.clearChannel c St.groupAborted St.flushed).setFlds (s.chan c) [(ChanRec.state, Cn.idle), (ChanRec.haltCause, 0)]).wake.okReply 0x5001 0 r))
      ∧ (actionIs r actF 6 = true → s.chf c ChanRec.state ≠ Cn.disabled →
          exec (.clearFlags r) s = .next ((s.setFlds (s.chan c) [(ChanRec.rearmOverrun, 0), (ChanRec.creditOverflow, 0), (ChanRec.retried, 0)]).wake.okReply 0x5001 0 r)))
    ∧ ∀ k, k = s.selected r.path Ch.armChannel → ChecksPass s 0x5002 2 r → r.value % 64 = 0 → inHarbour r.value = true → k < s.ch Ch.chtableCount →
        s.chf k ChanRec.state ≠ Cn.halted →
        exec (.arm r) s = .next ((s.arm k r.value).wake.okReply 0x5002 2 r)

/-- A lane takes the item whose turn it is where the slots it needs are free and its transfer does not go in one piece, issues its next request or takes up its next descriptor, is let go by a tick, answers responses, takes the shadow over, and stops once nothing is outstanding (R144 to R165); a Quay issues the reads of its weight feed. -/
def Obligations.FerriesWork : Prop :=
  ∀ (s : State) (l : Nat),
    (∀ i m, s.lane l = none → l < 256 → s.nextItem l = some i → i.messages = false →
        s.slotsReserved + s.slotsFor i ≤ s.ch Ch.stageSlots →
        exec (.laneTakesItem ⟨l, m⟩) s = .next (State.settleLane 64 (match s.firstNext i with | .at a => (s.runItem l i (.at a)).setChf i.channel ChanRec.curDesc a | n => s.runItem l i n) l))
    ∧ (∀ r i q w m, s.lane l = some r → r.failing = none → s.item r.item = some i → s.nextRequest l r = some (q, w) →
        exec (.requestSlotGrant ⟨.lane l, m⟩) s = .next (s.issueRequest l r q w))
    ∧ (∀ r i m, s.lane l = some r → r.failing = none → s.item r.item = some i → s.nextRequest l r = none →
        exec (.requestSlotGrant ⟨.lane l, m⟩) s = .next (State.settleLane 64 (s.nextDescriptor l r i m) l))
    ∧ (∀ d c k p, s.skerry.consumers.find? (fun c => c.shard && c.die == d && decide (c.asked < c.count)) = some c → s.skips c c.asked = false → s.weightPiece d = some (k, p) →
        s.poolRoom (256 + d) false = true → s.mustWait (.quay d) false = false → s.filling (s.slotBase k.stream k.version + 4096 * k.first + 256 * p) 256 = false → p % 16 ≠ 15 →
        ∀ m, exec (.requestSlotGrant ⟨.quay d, m⟩) s = .next ((s.leaveWait (.quay d)).sendRequest ⟨s.ferry.nextReq, 256 + d, k.id, false, s.slotBase k.stream k.version + 4096 * k.first + 256 * p, 256, p, 0, false, [], false⟩))
    ∧ (∀ t, t < 16 → s.ch (Ch.timerPeriod + t) ≠ 0 →
        ∃ u : State, exec (.pacingTick t) s = .next u ∧ u.mem = s.mem ∧ u.ferry.items = s.ferry.items ∧ u.ferry.requests = s.ferry.requests
          ∧ u.ferry.lanes = s.ferry.lanes.map (fun e => if s.nextPace e.2 = some (1, t) ∧ e.2.allIssued then (e.1, { e.2 with ticked := true }) else e))
    ∧ (∀ tag q r, s.request tag = some q → q.lane < 256 → s.lane q.lane = some r →
        (s.onLink q = false → exec (.requestResponse tag .ok) s = .next (((s.goodResponse q r).afterResponse q.lane).closeRegions))
        ∧ exec (.requestResponse tag .busError) s = .next (((s.busResponse q r).afterResponse q.lane).closeRegions)
        ∧ exec (.requestResponse tag .pageFault) s = .next ((((s.returned q).laneFails q.lane St.pageFault 0 q.addr q.desc (r.wordOf q.desc) q.lin).afterResponse q.lane).closeRegions)
        ∧ exec (.requestResponse tag .reefLost) s = .next ((((s.returned q).laneFails q.lane St.reefLost 0 q.addr q.desc (r.wordOf q.desc) q.lin).afterResponse q.lane).closeRegions))
    ∧ (∀ c i r, s.headItem c = some i → s.laneOf c = some (l, r) → i.armedChain = true → s.chf c ChanRec.state = Cn.running → s.chf c ChanRec.shadowValid ≠ 0 → r.issued = [] → r.failing = none →
        exec (.shadowTakeover c) s = .next ((s.setFlds (s.chan c) [(ChanRec.shadowValid, 0), (ChanRec.curDesc, s.chf c ChanRec.shadow)]).modLane l
          (fun r => { r with next := if s.chf c ChanRec.shadow = 0 then .done else .at (s.chf c ChanRec.shadow), ticked := false })))
    ∧ (∀ c i r a, s.headItem c = some i → s.laneOf c = some (l, r) → s.chf c ChanRec.state = Cn.stopping → r.issued = [] → r.failing = none → i.messages = false → r.next = .at a →
        exec (.channelStopped c) s = .next ((((s.modItem i.id (fun i => { i with rest := some r.next })).setChf c ChanRec.curDesc a).setChf c ChanRec.state Cn.stopped).idleLane l))

/-- ENABLE and DISABLE of a ring (R169); a handle passes a MATRIX or DRAIN stage (R170); a drain request waits and is served (R179); a tile is expanded for its consumer; a form is derived; a reservation is granted in the order of urgency. -/
def Obligations.QuaysWork : Prop :=
  ∀ (s : State) (d q : Nat),
    (∀ r : Req, d = RingCtl.die.get r.value → q = RingCtl.ring.get r.value → ChecksPass s 0x5042 0 r → onlyBits r.value [RingCtl.die, RingCtl.ring, actF] = true → q < s.ringCount d →
      (actionIs r actF 1 = true → s.rgf d q RingRec.state = 0 → (s.cwState d = Cw.up ∨ s.cwState d = Cw.sleep) → s.ringValid d q = true →
          exec (.ringEnable r) s = .next ((s.setFlds (s.ringBase d q) [(RingRec.idx0, 0), (RingRec.idx1, 0), (RingRec.idx2, 0), (RingRec.idx3, 0), (RingRec.state, 1)]).okReply 0x5042 0 r))
      ∧ (actionIs r actF 2 = true → s.rgf d q RingRec.state = 1 → (∀ i, i < s.stages d q → s.idx d q i = s.idx d q 0) → (q < 5 → s.planLoaded = false) →
          exec (.ringDisable r) s = .next ((s.closeRing d q).okReply 0x5042 0 r)))
    ∧ (∀ i tag data, d < 2 → s.ringOn d q = true → i < s.stages d q → (s.rgf d q (agentFld i) = Ag.matrix ∨ s.rgf d q (agentFld i) = Ag.drain) →
        (i = 0 → exec (.handlePass d q i tag data) s = .next (s.matrixFills d tag data))
        ∧ (i ≠ 0 → s.canTake d q i = true →
            (∀ t c, s.rgf d q (agentFld i) = Ag.drain → i = 1 → s.tagOf d q (s.idx d q i) = some t →
              s.skerry.consumers.find? (fun c => c.die == d && c.ring == some q && c.drain) = some c → s.handleShown d c t = true) →
            exec (.handlePass d q i tag data) s = .next ((match s.tagOf d q (s.idx d q i) with
              | some t => if i = 1 then (s.passStage d q i).consume d q t else s.passStage d q i
              | none => s.passStage d q i).deliverAll d)))
    ∧ (∀ c t form param, s.drainConsumer d = some c → t < s.drainTiles c.stream → (∀ w ∈ (s.quay d).drainWait, w.1 ≠ t) →
        exec (.drainRequest d t form param) s = .next ((s.modQuay d (fun y => { y with drainWait := y.drainWait ++ [(t, form, param)] })).serveDrain d))
    ∧ (∀ c p, s.drainConsumer d = some c → s.hasForm c.stream = false →
        (s.quay d).drainWait.findSome? (fun w => if s.atUnit (2 * (2048 * w.1 * elemBytes (s.sf c.stream StreamRec.elemType) / 4096 % 20) + s.sf c.stream StreamRec.die) then
          (s.madeFactors d (c.ring.getD 3) c.stream w.1 w.2.1 w.2.2).map (fun fs => (w.1, fs)) else none) = some p →
        exec (.formDerivation d) s = .next ((s.noteCounts (2 * (2048 * p.1 * elemBytes (s.sf c.stream StreamRec.elemType) / 4096 % 20) + s.sf c.stream StreamRec.die) noRef c.stream true p.2.1).present d p.1 p.2.2))
    ∧ (∀ i c t u bs clipped, s.consumer i = some c → s.canExpand c = true → s.firstInLine c = true → s.egressTile c = (t, .ok (bs, clipped)) →
        u = t.modConsumer i (fun c => { c with asked := c.asked + 1, clipSeen := c.clipSeen || clipped }) →
        (u.residence c.stream = Rs.quay → exec (.egress i) s = .next ((State.deliver 1024 (((u.unstage c.stream (c.first + c.asked)).settlePrefetch c.stream).notePeak ((c.first + c.asked) % 20)) i).fedDie c.die))
        ∧ (u.residence c.stream ≠ Rs.quay →
            exec (.egress i) s = .next ((State.deliver 1024 (((State.unstage { u with skerry := { u.skerry with queue := u.skerry.queue ++ [⟨i, c.stream, c.first + c.asked, bs⟩] } } c.stream
              (c.first + c.asked)).settlePrefetch c.stream).notePeak ((c.first + c.asked) % 20)) i).fedDie c.die)))
    ∧ (∀ c rest, (s.skerry.consumers.filter (fun c => !c.granted && s.started c)).mergeSort (fun a b => s.sourceUrgency a.source ≤ s.sourceUrgency b.source) = c :: rest →
        s.entriesUsed + c.entries ≤ 2048 → exec .reservationGrant s = .next ((s.modConsumer c.id (fun c => { c with granted := true })).noteDrain c.id))

/-- A Skerry codes the tile that is next for it and writes its block into the segment, after which waiting tiles may find room; the index entry of a block that is written names its table, mode, length and offset (R49, R199). -/
def Obligations.TilesAreStored : Prop :=
  ∀ (s : State),
    (∀ h i b o, s.skerry.ingest.find? (fun i => i.tile % 20 == h && s.canCode i) = some i → s.codeBlock i = some b →
        o = (if b.mode = 4 then b.len * (i.tile / 20) else (s.aux i.stream).offsets.getD h 0) → s.mergeFails (s.segment i.stream h + 32 * o) b.bytes.length = none →
        ∃ t u : State, u = { s with skerry := { s.skerry with ingest := s.skerry.ingest.filter (fun j => !(j.stream == i.stream && j.tile == i.tile)) } }
          ∧ exec (.ingest h) s = .next t.roomFreed ∧ t.mem = ((u.put (s.segment i.stream h + 32 * o) b.bytes).countBlock i b).mem
          ∧ t.checkWords = ((u.put (s.segment i.stream h + 32 * o) b.bytes).countBlock i b).checkWords ∧ t.skerry.ingest = u.skerry.ingest
          ∧ t.skerry.blocks = s.skerry.blocks ++ [⟨i.stream, i.tile, b.gen, b.mode, b.len, o⟩])
    ∧ (∀ n t b, s.skerry.blocks.find? (fun b => b.stream == n && b.tile == t) = some b → s.stateOf n = Ss.filling → s.filling (s.segment n (t % 20)) 32 = false →
        (hasIndex (s.cls n) = true → s.mergeFails (s.entryAddr n t) 8 = none) →
        ∃ u : State, u.mem = s.mem ∧ u.checkWords = s.checkWords ∧ u.chart = s.chart ∧ u.skerry.blocks = s.skerry.blocks.filter (fun c => !(c.stream == n && c.tile == t))
          ∧ exec (.blockWritten n t) s = .next (State.tileStored (if hasIndex (u.cls n) then u.put (u.entryAddr n t) (leBytes 8
              ([(IndexEnt.tableGen, b.gen), (IndexEnt.mode, b.mode), (IndexEnt.valid, 1), (IndexEnt.lenM1, b.len - 1), (IndexEnt.offset, b.offset)].foldl (fun v p => p.1.set v p.2) 0)) else u) n t b.len))

/-- REGISTER of a slot that is not valid checks the program and marks its record; RETIRE frees one that no plan names and nothing uses (R247, R248). -/
def Obligations.ProgramSlotsComplete : Prop :=
  ∀ (s : State) (r : Req) (p : Nat), p = ProgCtl.index.get r.value → ChecksPass s 0x7400 3 r → onlyBits r.value [ProgCtl.index, actF] = true → p < s.ch Ch.progCount → p < 0xFF00 →
    (∀ m, actionIs r actF 1 = true → s.progValid p = false → exec (.register r m) s = .next ((s.registerProgram p m).okReply 0x7400 3 r))
    ∧ (actionIs r actF 2 = true → s.progValid p = true → s.planNamesProgram p = false → s.programInUse p = false →
        exec (.retire r) s = .next ((State.setFld { s with engines := s.engines.map (fun e => (e.1, { e.2 with held := e.2.held.filter (· != p) })) }
          (s.progAddr p) ProgRec.state 0).okReply 0x7400 3 r))

/-- BIND gives a free buoy its name and values; UNBIND and RESET act on a buoy that nobody waits on, that is not the plan's and that no loaded plan uses (R281, R283). -/
def Obligations.BuoyControlsComplete : Prop :=
  ∀ (s : State) (r : Req) (k : Nat) (b : Buoy),
    (ChecksPass s 0x6001 0 r → (BindRec.kind.get r.value = Bk.semaphore ∨ BindRec.kind.get r.value = Bk.barrier) → BindRec.owner.get r.value ≠ 0 →
        (s.contexts.getD (BindRec.context.get r.value) ⟨0, 0, 0, 0⟩).state ≠ 0 → s.findBuoy (BindRec.context.get r.value) (BindRec.name.get r.value) = none → s.freeBuoy = some k →
        (BindRec.kind.get r.value = Bk.semaphore → BindRec.limit.get r.value ≠ 0 ∧ BindRec.initial.get r.value ≤ BindRec.limit.get r.value ∧ BindRec.participants.get r.value = 0) →
        (BindRec.kind.get r.value = Bk.barrier → BindRec.limit.get r.value = 0 ∧ BindRec.participants.get r.value ≠ 0) →
        exec (.buoyBind r) s = .next ((s.setBuoy k (Buoy.bind (BindRec.context.get r.value) (BindRec.name.get r.value) (BindRec.kind.get r.value) (BindRec.owner.get r.value)
          (BindRec.limit.get r.value) (BindRec.initial.get r.value) (BindRec.participants.get r.value))).okReply 0x6001 0 r))
    ∧ (ChecksPass s 0x6002 0 r → onlyBits r.value [BuoyCtl.name, BuoyCtl.context, BuoyCtl.action] = true → s.findBuoy (BuoyCtl.context.get r.value) (BuoyCtl.name.get r.value) = some (k, b) →
        b.waiters = [] → b.parked = [] → b.owner ≠ Bo.plan → (s.planLoaded = true → s.planUsesName (BuoyCtl.context.get r.value) (BuoyCtl.name.get r.value) = false) →
        (actionIs r BuoyCtl.action 1 = true → exec (.unbind r) s = .next ((State.releaseAll { s with buoys := s.buoys.erase k } b.entries St.ownerLost 0).okReply 0x6002 0 r))
        ∧ (actionIs r BuoyCtl.action 2 = true → b.kind = Bk.semaphore →
            exec (.buoyReset r) s = .next (((s.setBuoy k { b with count := b.initial, lost := false }).releaseAll b.entries St.ownerLost 0).okReply 0x6002 0 r))
        ∧ (actionIs r BuoyCtl.action 2 = true → b.kind ≠ Bk.semaphore →
            exec (.buoyReset r) s = .next (((s.setBuoy k { b with entries := [], lost := false }).releaseAll b.entries St.ownerLost 0).okReply 0x6002 0 r)))

/-- ADMIT_KEEP and ADMIT_ERASE start the admission of a module that is PRESENT, or whose link did not train, with a sound identity; REMOVE drains an ADMITTED module outside the Reef set; REIDENTIFY reads a faulty identity again (R339, R342). -/
def Obligations.ModuleControlsComplete : Prop :=
  ∀ (s : State) (p : Nat) (r : Req), ChecksPass s (0x4100 + p) 3 r →
    (onlyBits r.value [actF, ModCtl.hours] = true → (s.modState p = Ms.present ∨ s.modState p = Ms.trainFault) → identityOk (s.ch (Ch.modId + 256 * p)) = true →
      (actionIs r actF 1 = true → exec (.admitKeep p r) s = .next (((((s.wake.setModState p Ms.training).modPort p
          (fun q => { q with erase := false, hours := ModCtl.hours.get r.value, admitting := 0 }))).admitStep p 1).okReply (0x4100 + p) 3 r))
      ∧ (actionIs r actF 2 = true → ModCtl.hours.get r.value = 0 → exec (.admitErase p r) s = .next (((((s.wake.setModState p Ms.training).modPort p
          (fun q => { q with erase := true, hours := 0, admitting := 0 }))).admitStep p 1).okReply (0x4100 + p) 3 r)))
    ∧ (onlyBits r.value [actF] = true →
      (actionIs r actF 3 = true → s.modState p = Ms.admitted → bit (s.ch Ch.reefSet) p = false →
          exec (.remove p r) s = .next ((((s.setModState p Ms.draining).modPort p (fun q => { q with scrub := none })).settleDraining p).wake.okReply (0x4100 + p) 3 r))
      ∧ (actionIs r actF 4 = true → s.modState p = Ms.idFault → exec (.reidentify p r) s = .next (((s.setModState p Ms.identifying).out (.wire2Low p)).okReply (0x4100 + p) 3 r)))

/-- A write of WINDOW_OFFSET and WINDOW_FLUSH write the buffer back first; loads and stores of the window act at once while the hub is awake, and otherwise wait for it (R352, R353). -/
def Obligations.WindowCompletes : Prop :=
  ∀ (s : State) (r : Req),
    (ChecksPass s 0x1130 2 r → r.value % 4096 = 0 → r.value < 2 ^ 52 →
        exec (.windowOffset r) s = .next ((State.setCh { s.flushWindow with window := [] } Ch.windowOffset r.value).okReply 0x1130 2 r))
    ∧ (ChecksPass s 0x1130 3 r → actionIs r actF 1 = true → onlyBits r.value [actF] = true → exec (.windowFlush r) s = .next (s.flushWindow.okReply 0x1130 3 r))
    ∧ (∀ a n, (s.ch Ch.powerState = 7 → exec (.windowLoad a n) s = .next (s.windowLoadNow a n)) ∧ (s.ch Ch.powerState ≠ 7 → exec (.windowLoad a n) s = .next (s.holdAccess (.windowLoad a n))))
    ∧ (∀ a bs, (s.ch Ch.powerState = 7 → exec (.windowStore a bs) s = .next (s.windowStoreNow a bs))
        ∧ (s.ch Ch.powerState ≠ 7 → exec (.windowStore a bs) s = .next (s.holdAccess (.windowStore a bs))))

/-- COPY_PARTNER with no partner clears the pairing, with one asks for its feeds before it is answered; FEED_A and FEED_B settle the pairing and tell a partner; CORRELATED_OVERRIDE settles it (R374). -/
def Obligations.PairingCompletes : Prop :=
  ∀ (s : State) (r : Req),
    (ChecksPass s 0x9181 1 r → r.value = noRef → s.cascade.pairAsk = none →
        exec (.copyPartner r) s = .next (((((s.setCh Ch.copyPartner noRef).setCh Ch.partnerFeedA 0).setCh Ch.partnerFeedB 0).setCh Ch.pairState Pair.none).okReply 0x9181 1 r))
    ∧ (ChecksPass s 0x9181 1 r → r.value < 4096 → s.pkgValid r.value = true → r.value ≠ s.self → (s.peer r.value).lost = false → s.cascade.pairAsk = none →
        exec (.copyPartner r) s = .next ((State.chartHold { s with cascade := { s.cascade with pairAsk := some (r, r.value, none) } } r).askFeeds r.value 1))
    ∧ (∀ sub t, (sub = 1 ∨ sub = 2) → ChecksPass s 0x9180 sub r → t = (s.setCh (if sub = 1 then Ch.feedA else Ch.feedB) r.value).settlePair →
        exec (.feedWrite sub r) s = .next ((if t.ch Ch.pairState = Pair.none then t else t.askFeeds (t.ch Ch.copyPartner) 3).okReply 0x9180 sub r))
    ∧ (ChecksPass s 0x9181 4 r → exec (.correlatedOverride r) s = .next ((s.setCh Ch.correlatedOverride r.value).settlePair.okReply 0x9181 4 r))

/-- ENABLE and DISABLE of a registered region (R383); ATTACH, TAKEOVER and DETACH of a session and the loss of its heartbeat (R388, R390). -/
def Obligations.HostControlsComplete : Prop :=
  ∀ (s : State) (r : Req),
    (∀ g, g = RegCtl.index.get r.value → ChecksPass s 0x2010 3 r → onlyBits r.value [RegCtl.index, actF] = true → g < s.ch Ch.regCount →
      (actionIs r actF 1 = true → s.fld (s.regBase g) DevRegion.state = 0 → s.failing (s.regBase g) 32 = none → s.regionValid g = true →
          exec (.regionEnable r) s = .next ((s.setFld (s.regBase g) DevRegion.state 1).wake.okReply 0x2010 3 r))
      ∧ (actionIs r actF 2 = true → s.fld (s.regBase g) DevRegion.state = 1 → exec (.regionDisable r) s = .next ((s.closeRegion g).wake.okReply 0x2010 3 r)
          ∧ (s.closing = [] → s.closeRegion g = if s.regionBusy g then { s with closing := [g] } else s.setFld (s.regBase g) DevRegion.state 0)))
    ∧ (ChecksPass s 0x1100 3 r → onlyBits r.value [Attach.nonce, Attach.action] = true → Attach.nonce.get r.value ≠ 0 →
      (actionIs r Attach.action 1 = true → s.ch Ch.sessionState = Sn.detached → exec (.attach r) s = .next ((s.attached (Attach.nonce.get r.value)).okReply 0x1100 3 r))
      ∧ (actionIs r Attach.action 2 = true → s.ch Ch.sessionState ≠ Sn.detached → exec (.takeover r) s = .next ((s.attached (Attach.nonce.get r.value)).okReply 0x1100 3 r))
      ∧ (actionIs r Attach.action 3 = true → Attach.nonce.get r.value = s.ch Ch.sessionId →
          exec (.detach r) s = .next (((s.setCh Ch.sessionState Sn.detached).setCh Ch.sessionId 0).okReply 0x1100 3 r)))
    ∧ (s.ch Ch.sessionState = Sn.attached → s.ch Ch.heartbeatLimit ≠ 0 →
        ∃ t : State, t.chart = (s.setCh Ch.sessionState Sn.orphaned).chart ∧ t.mem = s.mem ∧ t.events = s.events ∧ t.clock.orphan = 0
          ∧ exec .heartbeatTimeout s = .next (t.raise ⟨0x0B08, noRef, s.ch Ch.sessionId, Sn.orphaned, none, []⟩))

/-- The Causeway's commands each act in the state of the interface that they are for: TRAIN, RESUME, RELEASE (R414 to R417), the end of a training, the word of a strap and its absence (R410), spans and replays (R408), the loss of a die (R420). -/
def Obligations.CausewayCommandsComplete : Prop :=
  ∀ (s : State) (d : Nat), d < 2 →
    (∀ r : Req, ChecksPass s (0xC010 + d) 2 r → onlyBits r.value [actF] = true →
      (actionIs r actF 1 = true → (s.cwState d = Cw.idle ∨ s.cwState d = Cw.hold ∨ s.cwState d = Cw.trainFault) →
          ∃ t : State, t.chart = s.chart ∧ t.mem = s.mem ∧ t.causeways = (s.modCauseway d (fun c =>
              ⟨c.wordBase, c.wordDie, if c.wordBase = 0 then c.seqKept else CwWord.trainSeq.get c.wordBase, if c.wordDie = 0 then c.dieSeqKept else CwWord.trainSeq.get c.wordDie, c.failed, [], [], [], false, c.gone⟩)).causeways
            ∧ exec (.train d r) s = .next (((((t.setWords d 0 0).count (Ch.trainCount + 256 * d) 32).setCw d Cw.training).wake).okReply (0xC010 + d) 2 r))
      ∧ (actionIs r actF 2 = true → (s.cwState d = Cw.idle ∨ s.cwState d = Cw.hold) →
          exec (.cwResume d r) s = .next (((s.modCauseway d (fun c => { c with resuming := true, sent := [] })).sendWord d).wake.okReply (0xC010 + d) 2 r))
      ∧ (actionIs r actF 3 = true → s.cwState d = Cw.up → s.rings d = [] → s.dieNamed d = false →
          exec (.cwRelease d r) s = .next ((s.setCw d Cw.idle).okReply (0xC010 + d) 2 r)))
    ∧ (∀ res ws failed u w, s.cwState d = Cw.training → ws = failingWires res (s.ch Ch.eyeMin) → failed = ws.foldl (fun v i => v + 2 ^ i) 0 →
        u = (if (s.causeway d).failed = failed then s else (s.modCauseway d (fun c => { c with failed := failed })).blobChanged (Ch.failedWires + 256 * d)) →
        w = trainedWord ws ((max (s.causeway d).seqKept (s.causeway d).dieSeqKept + 1) % 2 ^ 32) →
        ((res.timedOut = true ∨ CwWord.widthDown.get w < s.ch Ch.cwMinWidth ∨ CwWord.widthUp.get w < s.ch Ch.cwMinWidth) →
            exec (.trainingComplete d res) s = .next (u.setCw d Cw.trainFault))
        ∧ (res.timedOut = false → s.ch Ch.cwMinWidth ≤ CwWord.widthDown.get w → s.ch Ch.cwMinWidth ≤ CwWord.widthUp.get w →
            exec (.trainingComplete d res) s = .next (((u.setWords d w 0).setCw d Cw.exchange).sendWord d)))
    ∧ (∀ w : BitVec 64, (s.cwState d = 0 ∨ s.cwState d = Cw.down) →
        (strapOk w.toNat = true → exec (.strapWord d w) s = .next ((s.setCh (Ch.strapUp + 256 * d) w.toNat).setCw d Cw.idle))
        ∧ (strapOk w.toNat = false → exec (.strapWord d w) s = .next (s.setCw d Cw.strapFault))
        ∧ exec (.strapTimeout d) s = .next (s.setCw d Cw.strapFault))
    ∧ (∀ cause, s.cwState d ≠ 0 → s.cwState d ≠ Cw.down →
        ((s.cwState d = Cw.strapFault ∨ s.cwState d = Cw.trainFault) → exec (.dieLost d cause) s = .next ((((s.setCw d 0).dieStruck d).1).recheckSlips))
        ∧ (s.cwState d = Cw.sleep → exec (.dieLost d cause) s = .next (s.modCauseway d (fun c => { c with gone := match cause with | .clocksAbsent => 1 | .linkFailure => 2 })))
        ∧ (s.cwState d ≠ Cw.strapFault → s.cwState d ≠ Cw.trainFault → s.cwState d ≠ Cw.sleep →
            exec (.dieLost d cause) s = .next (s.dieGone d (match cause with | .clocksAbsent => 1 | .linkFailure => 2))))
    ∧ (∀ bay sp, bay < 16 →
        (s.cwState d = Cw.up → bit (CwWord.baysUp.get (s.causeway d).wordBase) bay = true →
          (spanSound sp = false → exec (.dataSpan d bay sp) s = .next (s.spanFails d bay))
          ∧ (spanSound sp = true → sp.kind = 1 → exec (.dataSpan d bay sp) s = .next (s.spanPasses d bay)))
        ∧ ((s.cwState d = Cw.exchange ∨ (s.causeway d).resuming = true) →
          (spanSound sp = false → exec (.controlSpan d bay sp) s = .next (s.spanFails d bay))
          ∧ (spanSound sp = true → sp.kind = 2 →
              exec (.controlSpan d bay sp) s = .next (((s.spanPasses d bay).setWords d ((s.spanPasses d bay).causeway d).wordBase (leNat (sp.data.take 32))).compareWords d)))
        ∧ ((s.cwState d = Cw.up ∨ s.cwState d = Cw.exchange ∨ (s.causeway d).resuming = true) →
          exec (.retryPulse d bay) s = .next (((s.causeway d).sent.getD bay []).foldl (fun (s : State) x => s.out (.span d bay x)) (s.countSticky (Ch.replays + 256 * d)))))

/-- FAST_RESET and FULL_RESET act from each of their causes (R433); LOAD takes an image of microcode in (R436, R437); HOLD_AWAKE, sleep, wake and the warnings of a rail (R427 to R430, R440). -/
def Obligations.PowerCommandsComplete : Prop :=
  ∀ (s : State),
    (∀ r : Req, ChecksPass s 0xB010 1 r → onlyBits r.value [actF] = true →
      (actionIs r actF 1 = true → exec (.fastReset (.control r)) s = .next ((s.okReply 0xB010 1 r).fastReset 1))
      ∧ (actionIs r actF 2 = true → exec (.fullReset (.control r)) s = .next ((s.okReply 0xB010 1 r).fullReset 2)))
    ∧ (∀ n, 2 ≤ n → s.monitored n = true → exec (.fastReset (.rail n)) s = .next ((s.railEnds n).fastReset 3))
    ∧ (s.asleep = false → exec (.fastReset .pllUnlock) s = .next (s.fastReset 5))
    ∧ exec (.fullReset .standbyRising) s = .next (s.fullReset 0)
    ∧ (∀ n, n < 2 → exec (.fullReset (.rail n)) s = .next (s.fullReset 4))
    ∧ exec (.fullReset .refclkLost) s = .next (s.fullReset 6)
    ∧ (∀ r : Req, ChecksPass s 0xB020 4 r → actionIs r actF 1 = true → onlyBits r.value [actF] = true → s.ch Ch.mcState ≠ 1 →
        (s.ch Ch.mcDigest = s.ch Ch.mcRunningDigest → s.ch Ch.mcState = 2 → exec (.mcLoad r) s = .next (s.wake.okReply 0xB020 4 r))
        ∧ (s.ch Ch.mcDigest ≠ s.ch Ch.mcRunningDigest → s.busy437 = false → s.ch Ch.mcSrc % 64 = 0 → 64 ≤ s.ch Ch.mcBytes → s.ch Ch.mcBytes ≤ 1048576 → s.ch Ch.mcBytes % 64 = 0 →
            exec (.mcLoad r) s = .next (((State.setCh { s with microcode := { s.microcode with loading := some (s.ch Ch.mcSrc, s.ch Ch.mcBytes, s.ch Ch.mcDigest) } } Ch.mcState 1).wake).okReply 0xB020 4 r)))
    ∧ (∀ src n want t, s.microcode.loading = some (src, n, want) → s.asleep = false → s.failing src n = none →
        leNat (sha256 (s.rd src n)) = want → s.imageHeaderOk (leNat ((s.rd src n).take 64)) n = true →
        t = (State.setBlob { s with microcode := ⟨s.rd src n, sha256 (s.rd src n), none⟩ } Ch.mcRunningDigest want).setCh Ch.mcState 2 →
        exec (.mcLoadComplete .ok) s = .next (((t.dispatched.filter (fun d => d.stage == .resetEnded)).foldl (fun (s : State) d => (s.drew 2).complete d St.groupAborted s.freeDetail) t).startPilot))
    ∧ (∀ r : Req, ChecksPass s 0xB000 3 r → r.value < 8 →
        exec (.holdAwake r) s = .next ((if (List.range 3).any (fun d => bit r.value d && !(s.setCh Ch.holdAwake r.value).awake d) then (s.setCh Ch.holdAwake r.value).wake
          else s.setCh Ch.holdAwake r.value).okReply 0xB000 3 r))
    ∧ (∀ dom, dom < 3 → s.awake dom = true → s.domainBusy dom = false → s.wakePending = false →
        ∃ t : State, exec (.sleepEntry dom) s = .next (t.setCh Ch.powerState (t.ch Ch.powerState - 2 ^ dom)) ∧ (dom = 1 → t.mem = s.mem ∧ t.engines = s.engines.map (fun e => (e.1, { e.2 with held := [] })))
          ∧ (dom = 2 → t = (List.range 2).foldl (fun (s : State) d => if s.cwState d = Cw.up then s.setCw d Cw.sleep else s) s)
          ∧ (dom = 0 → t = ((List.range 16).filter (fun p => s.flushWindow.writeBandRecords.modState p == Ms.admitted)).foldl State.orderSleep s.flushWindow.writeBandRecords))
    ∧ (s.wakePending = true → s.ch Ch.powerState ≠ 7 →
        ∃ t : State, t.wakePending = false ∧ t.ch Ch.powerState = 7 ∧ t.ch Ch.wakeCount = (s.ch Ch.wakeCount + 1) % 2 ^ 32 ∧ t.mem = s.mem
          ∧ exec .fastDomainWake s = .next (((List.range 2).foldl (fun (s : State) d => if s.cwState d = Cw.sleep then (if (s.causeway d).gone = 0 then (s.setCw d Cw.exchange).sendWord d else s.dieGone d (s.causeway d).gone) else s) t.flushHeld).wakeModules.serveHeld))
    ∧ (∀ rail mv t, rail < 5 → s.monitored rail = true → (s.rails.getD rail Rail.reset).active = false → mv < s.ch (Ch.warnMv + 256 * rail) →
        t = (((State.setCh (State.sampled { s with rails := updateAt s.rails rail (fun _ => ⟨true, mv, s.clock.cycles⟩) } rail mv) (Ch.warnActive + 256 * rail) 1).countSticky (Ch.warnCount + 256 * rail)).raise
          ⟨0x0901, rail, mv, s.ch (Ch.warnAction + 256 * rail), none, []⟩).bandInterrupt →
        (s.ch (Ch.warnAction + 256 * rail) ≠ 3 → exec (.supplyWarning rail mv) s = .next t)
        ∧ (s.ch (Ch.warnAction + 256 * rail) = 3 → exec (.supplyWarning rail mv) s = .next (if t.awake 0 then t.flushWindow else t).writeBandRecords))
    ∧ (∀ rail l u, rail < 5 → (s.rails.getD rail Rail.reset).active = true → clearsAt (s.ch (Ch.warnMv + 256 * rail) + 10) 0 l = true →
        u = l.foldl (fun (s : State) v => s.sampled rail v) s →
        exec (.warningCleared rail l) s = .next ((State.setCh { u with rails := updateAt u.rails rail (fun _ => Rail.reset) } (Ch.warnActive + 256 * rail) 0).raise
          ⟨0x0902, rail, lastBelow (s.ch (Ch.warnMv + 256 * rail)) l, l.foldl min (s.rails.getD rail Rail.reset).low, none, []⟩).bandInterrupt)

/-- CREATE, TEARDOWN, PREEMPT and RESUME move a context between its states (R466); the keys of an ACTIVE context with no stream that holds data are taken (R467); a torn context with nothing left is FREE. -/
def Obligations.ContextCommandsComplete : Prop :=
  ∀ (s : State) (r : Req) (c : Nat),
    (c = CtxCtl.context.get r.value → ChecksPass s 0x1200 2 r → onlyBits r.value [CtxCtl.context, ⟨3, 0⟩] = true →
      (actionIs r actF 1 = true → s.contextState c = 0 → exec (.create r) s = .next ((s.modContext c (fun _ => ⟨1, 0, 0, 0⟩)).okReply 0x1200 2 r))
      ∧ (actionIs r actF 2 = true → s.contextExists c = true → (s.ch Ch.planOwner = c → s.planLoaded = false) → exec (.teardown r) s = .next ((s.teardown c).recheckSlips.okReply 0x1200 2 r))
      ∧ (actionIs r actF 3 = true → s.contextState c = 1 → s.ch Ch.planOwner ≠ c → s.planNamesContext c = false →
          ∃ p, p = (s.modContext c (fun x => { x with state := 2 })).ownersLost (fun b => b.context == c) 2 true false
            ∧ exec (.preempt r) s = .next ((p.1.abortGroups p.2 St.ownerLost).recheckSlips.okReply 0x1200 2 r))
      ∧ (actionIs r actF 4 = true → s.contextState c = 2 → exec (.contextResume r) s = .next ((s.modContext c (fun x => { x with state := 1 })).okReply 0x1200 2 r)))
    ∧ (c = s.selected r.path Ch.ctxSelect → s.contextState c = 1 → s.keyFree c = true →
      (ChecksPass s 0x1201 2 r → r.value % 2 ^ 256 ≠ r.value / 2 ^ 256 →
          exec (.xtsKey r) s = .next (((if (s.contexts.getD c ⟨0, 0, 0, 0⟩).xts = r.value then s else s.blobChanged Ch.xtsKey).modContext c (fun x => { x with xts := r.value, keysSet := x.keysSet ||| 1 })).okReply 0x1201 2 r))
      ∧ (ChecksPass s 0x1201 3 r → exec (.philoxKey r) s = .next ((s.modContext c (fun x => { x with philox := r.value, keysSet := x.keysSet ||| 2 })).okReply 0x1201 3 r)))
    ∧ (s.contextState c = 3 → (s.tearRegions c).contextEmpty c = true → ∃ t : State, exec (.contextFreed c) s = .next t ∧ t.contexts = (s.tearRegions c).contexts.erase c)

/-- ASSIGN zeroes a free region and begins to fill it, the fill ends, RELEASE frees a region that nothing needs (R468, R469). -/
def Obligations.RegionCommandsComplete : Prop :=
  ∀ (s : State) (r : Req) (g : Nat),
    (g = RgnCtl.region.get r.value → ChecksPass s 0x2000 1 r → onlyBits r.value [RgnCtl.region, actF] = true →
      (actionIs r actF 1 = true → s.regionState g = 0 → s.assignOk g = true → exec (.assign r) s = .next (((s.fillRegion g).setCh (Ch.regionState + 256 * g) 1).wake.okReply 0x2000 1 r))
      ∧ (actionIs r actF 2 = true → s.regionState g ≠ 0 → s.planNamesRegion g = false → (∀ k ∈ addressEntries, s.ch k = 0 ∨ s.regionByte g (s.ch k) = false) →
          exec (.regionRelease r) s = .next ((s.setCh (Ch.regionState + 256 * g) 0).serveFilled.okReply 0x2000 1 r)))
    ∧ (g < 256 → s.regionState g = 1 → exec (.regionFillComplete g) s = .next (s.setCh (Ch.regionState + 256 * g) 2).serveFilled)

/-- GEN_SELECT takes a supported generation; every entry outside the locked pages takes a WRITE and an INFO; an open test range answers with a free value (log entry 85, the model's choice); the control messages of MCTP are answered (R453, R457, R462). -/
def Obligations.ChartCommandsComplete : Prop :=
  ∀ (s : State) (r : Req) (index sub : Nat),
    (ChecksPass s 0x1001 2 r → r.value < 64 → bit (s.ch Ch.genSupported) r.value = true →
        exec (.genSelect r) s = .next (((s.setCh Ch.genSelect r.value).setCh Ch.genActive r.value).okReply 0x1001 2 r))
    ∧ (lockedOpen index = false → (∃ t, exec (.chartWrite index sub r) s = .next t) ∧ exec (.chartInfo index sub r) s = .next (s.chartInfo index sub r))
    ∧ (lockedOpen index = true → exec (.chartWrite index sub r) s = .next (s.chartLocked 2 index sub r.data.length r)
        ∧ exec (.chartInfo index sub r) s = .next (s.chartLocked 3 index sub r.data.length r))
    ∧ (∀ eid, 8 ≤ eid → eid ≤ 254 → exec (.setEndpointId eid) s = .next ((s.setCh Ch.mctpEid eid).out (.mctpReply [0x01, 0x00, 0x00, BitVec.ofNat 8 eid, 0x00])))
    ∧ exec .getEndpointId s = .next (s.out (.mctpReply [0x02, 0x00, BitVec.ofNat 8 (s.ch Ch.mctpEid), 0x00, 0x00]))
    ∧ exec .getMctpVersionSupport s = .next ((s.drew 4).out (.mctpReply ([0x04, 0x00, 0x01] ++ s.freeBytes 4)))
    ∧ exec .getMessageTypeSupport s = .next (s.out (.mctpReply [0x05, 0x00, 0x01, 0x7F]))
    ∧ exec .getVendorDefinedMessageSupport s = .next ((s.drew 2).out (.mctpReply ([0x06, 0x00, 0xFF, 0x01] ++ leBytes 4 (s.ch Ch.ianaEnterprise) ++ s.freeBytes 2)))
    ∧ (∀ a, a < 128 → exec (.dynamicAddressAssignment a) s = .next (s.setCh Ch.i3cAddress a))

/-- A store of a server core to memory that nothing protects, and a device's to a region that permits it, put exactly their bytes there; a load answers the bytes that are there; a device's atomic operation is refused and counted (R48, R218, R384). -/
def Obligations.AccessesComplete : Prop :=
  ∀ (s : State) (a n : Nat) (bs : List Byte),
    (a + bs.length ≤ 2 ^ 52 → overlap a bs.length windowStart windowBytes = false → overlap a bs.length (s.ch Ch.doorbellAddr) 8 = false → headTouched a bs.length = none →
        s.protects a bs.length = false → s.filling a bs.length = false → s.mergeFails a bs.length = none → exec (.serverCoreWrite a bs) s = .next (s.put a bs))
    ∧ (a + n ≤ 2 ^ 52 → overlap a n windowStart windowBytes = false → overlap a n (s.ch Ch.doorbellAddr) 8 = false → s.filling a n = false → s.failing a n = none →
        exec (.serverCoreRead a n) s = .next (s.out (.coreData (s.rd a n))))
    ∧ (∀ q g, s.deviceRegion false q a bs.length true = some g → s.filling a bs.length = false → s.mergeFails a bs.length = none →
        exec (.deviceMemoryWrite q a bs) s = .next ((s.put a bs).notifyWrite g a bs))
    ∧ (∀ q g, s.deviceRegion false q a n false = some g → s.filling a n = false → s.failing a n = none → exec (.deviceMemoryRead q a n) s = .next (s.out (.deviceData q (s.rd a n))))
    ∧ ∀ q, ∃ dir, dir < 2 ∧ exec (.deviceAtomicOp q a) s = .next (((s.drew 1).inboundRefused q a dir).out (.unsupportedRequest q a))

/-! ### The cascade -/

/-- HEARTBEAT settles the group by its sender's claim or reports one that does not agree (R397); BUOY_OP acts on a buoy of this package and answers what ends at once (R298); BUOY_REPLY ends the operation that it answers (R299). -/
def Obligations.GroupMessagesAct : Prop :=
  ∀ (s u w : State) (f : Frame), u = s.afterFrame f → w = u.translates →
    (∀ p ok v, MessageTaken s Mk.heartbeat f → u.memberAt (frameSrc f) = some p → bit (u.ch Ch.members) p = true →
        ok = (frameArg f % 256 == u.masterPosition && frameArg f / 256 % 256 == u.ch Ch.members) →
        v = (u.setPeer (frameSrc f) { u.peer (frameSrc f) with heard := true, agrees := ok }).settleGroup →
        exec (.heartbeat f) s = .next (if ok = true then v else
          v.raise ⟨0x0B0A, v.ch Ch.groupId, p, frameArg f / 256 % 256 + frameArg f % 256 % 8 * 256, none, []⟩))
    ∧ (∀ name n ctx op k b, MessageTaken s Mk.buoyOp f → name = leNat (f.payload.take 4) → n = leNat ((f.payload.drop 4).take 4) → ctx = leNat ((f.payload.drop 8).take 2) →
        op = leNat ((f.payload.drop 10).take 2) → u.findBuoy ctx name = some (k, b) → b.lost = false →
        (op = 1 → n ≠ 0 → b.kind = Bk.semaphore → b.count + n ≤ b.limit →
            exec (.buoyOp f) s = .next (((((w.setBuoy k { b with count := b.count + n }).noteSignal k).serve k).send (frameSrc f) Mk.buoyReply (frameArg f % 2 ^ 32) []).recheckSlips))
        ∧ (op = 2 → n ≠ 0 → b.kind = Bk.semaphore → n ≤ b.limit → (b.waiters ≠ [] ∨ b.count < n) →
            exec (.buoyOp f) s = .next (w.setBuoy k { b with waiters := b.waiters ++ [⟨.remote (frameSrc f) (frameArg f % 2 ^ 32), n⟩] }).recheckSlips)
        ∧ (op = 3 → b.kind = Bk.barrier → n = b.round → n < 2 ^ 32 → b.entries.length < b.participants →
            exec (.buoyOp f) s = .next (State.roundComplete 3 (w.setBuoy k { b with entries := b.entries ++ [⟨.remote (frameSrc f) (frameArg f % 2 ^ 32), 1⟩] }) k).recheckSlips))
    ∧ (∀ o d, MessageTaken s Mk.buoyReply f → frameArg f / 2 ^ 32 % 256 = St.success → u.cascade.ops.find? (fun o => o.id == frameArg f % 2 ^ 32 && o.pkg == frameSrc f) = some o →
        o.who = .cmd d.tag → u.dispatched.find? (fun e => e.tag == d.tag) = some d →
        ∃ v : State, v.cascade.ops = u.cascade.ops.filter (fun p => p.id != frameArg f % 2 ^ 32) ∧ v.dispatched = u.dispatched ∧ v.mem = u.mem
          ∧ exec (.buoyReply f) s = .next (if o.kind = 1 then v.endCmd d St.success 0 else v.setStage d.tag .granted 0))

/-- DATA keeps what an EXCHANGE, a set or an IMPORT waits for, and stores to and reads lent Reef for the borrower; DATA_DONE passes its status on (R395, R404). -/
def Obligations.DataMessagesAct : Prop :=
  ∀ (s u : State) (f : Frame) (kind place : Nat), u = s.afterFrame f → kind = frameArg f / 2 ^ 56 → place = frameArg f % 2 ^ 56 →
    (MessageTaken s Mk.data f →
      (kind = Dk.streamRec → exec (.data f) s = .next (u.putInbox (.streamRec (place % 2 ^ 24)) f.payload))
      ∧ (kind = Dk.streamGen → exec (.data f) s = .next (u.putInbox (.streamGen (place % 2 ^ 24) (place / 2 ^ 24)) f.payload))
      ∧ (kind = Dk.streamFixed → exec (.data f) s = .next (u.addInbox (.streamFixed (place % 2 ^ 24)) f.payload))
      ∧ (kind = Dk.streamTile → exec (.data f) s = .next (u.putInbox (.streamTile (place % 2 ^ 24) (place / 2 ^ 24)) f.payload))
      ∧ (kind = Dk.gradient → (∀ k ∈ List.range u.shardCount, u.shf k ShardRec.shardId ≠ place % 2 ^ 32) →
          exec (.data f) s = .next (u.addInbox (.gradient (place % 2 ^ 32) (place / 2 ^ 32 % 2 ^ 12) (place / 2 ^ 44)) f.payload))
      ∧ (∀ k a v, kind = Dk.gradient → v = u.addInbox (.gradient (place % 2 ^ 32) (place / 2 ^ 32 % 2 ^ 12) (place / 2 ^ 44)) f.payload →
          (List.range v.shardCount).find? (fun k => v.shf k ShardRec.shardId == place % 2 ^ 32) = some k → v.shardOpt k = some a → exec (.data f) s = .next (v.landRemote k a))
      ∧ (kind = Dk.version → exec (.data f) s = .next (u.addInbox (.version (place % 2 ^ 32) (place / 2 ^ 32)) f.payload))
      ∧ (kind = Dk.importBytes → exec (.data f) s = .next (u.addInbox (.bytes place) f.payload))
      ∧ (∀ p bs t, kind = Dk.reefWrite → u.memberAt (frameSrc f) = some p → unpackBlock (place % 4096) f.payload = some bs → place + bs.length ≤ u.ch (Ch.lendBytes + 256 * p) →
          u.reefStore (u.ch (Ch.lendBase + 256 * p) + place) bs = (t, none) → exec (.data f) s = .next t)
      ∧ (∀ p t bs, kind = Dk.reefAsk → u.memberAt (frameSrc f) = some p → place + sliceNat f.payload 8 4 ≤ u.ch (Ch.lendBytes + 256 * p) →
          u.reefRead (u.ch (Ch.lendBase + 256 * p) + place) (sliceNat f.payload 8 4) = (t, .ok bs) →
          exec (.data f) s = .next (t.sendData (frameSrc f) Dk.reefRead 0 (f.payload.take 8 ++ packBlock (place % 4096) bs))))
    ∧ (MessageTaken s Mk.dataDone f →
      (sliceNat f.payload 1 1 = 1 → exec (.dataDone f) s = .next (u.answered (frameSrc f) kind place (sliceNat f.payload 0 1)))
      ∧ (sliceNat f.payload 1 1 ≠ 1 → (kind = Dk.streamRec ∨ kind = Dk.version) →
          exec (.dataDone f) s = .next (u.putInbox (.ended (frameSrc f) kind place) (leBytes 1 (sliceNat f.payload 0 1))).retryExchanges))

/-- EPOCH_REPORT, DIGEST_ROOT, TREE_REQUEST and TREE_DATA, the requests and replies of the Chart, and the notice of a member's loss each act once they are taken (R104, R371, R399, R401). -/
def Obligations.ControlMessagesAct : Prop :=
  ∀ (s u : State) (f : Frame), u = s.afterFrame f →
    (∀ p v, MessageTaken s Mk.epochReport f → u.memberAt (frameSrc f) = some p → v.isMaster = true →
        v = { u with cascade := { u.cascade with epochs := u.cascade.epochs.put p (MsgHdr.planEpoch.get f.header.toNat, f.payload, frameArg f % 4096) } } →
        exec (.epochReport f) s = .next v.settleEpoch)
    ∧ (MessageTaken s Mk.digestRoot f →
        exec (.digestRoot f) s = .next (u.rootArrives (frameSrc f) (frameArg f % 2 ^ 32) (frameArg f / 2 ^ 32 % 2 ^ 16) (frameArg f / 2 ^ 48) f.payload))
    ∧ (MessageTaken s Mk.treeRequest f → frameArg f / 2 ^ 56 ≠ 0 → exec (.treeRequest f) s = .next (u.treeReleased (frameArg f % 2 ^ 32) (frameArg f / 2 ^ 56 == 2)))
    ∧ (∀ l, MessageTaken s Mk.treeRequest f → frameArg f / 2 ^ 56 = 0 → l = u.leafLevel (frameArg f % 2 ^ 32) (leNat (f.payload.take 4)) →
        exec (.treeRequest f) s = .next ((chunksOf 4096 l.length l).foldl (fun (s : State) c => s.send (frameSrc f) Mk.treeData (frameArg f % 2 ^ 48) c) u))
    ∧ (∀ v, MessageTaken s Mk.treeData f → v = u.modComparison (frameArg f % 2 ^ 32) (frameArg f / 2 ^ 32 % 2 ^ 16)
          (fun c => if (c.leaves.find (frameSrc f)).isSome then { c with leaves := c.leaves.put (frameSrc f) (c.leaves.getD (frameSrc f) [] ++ f.payload) } else c) →
        v.comparisons.find? (fun c => c.shard == frameArg f % 2 ^ 32 && c.version == frameArg f / 2 ^ 32 % 2 ^ 16) = none → exec (.treeData f) s = .next v)
    ∧ (∀ v c, MessageTaken s Mk.treeData f → v = u.modComparison (frameArg f % 2 ^ 32) (frameArg f / 2 ^ 32 % 2 ^ 16)
          (fun c => if (c.leaves.find (frameSrc f)).isSome then { c with leaves := c.leaves.put (frameSrc f) (c.leaves.getD (frameSrc f) [] ++ f.payload) } else c) →
        v.comparisons.find? (fun c => c.shard == frameArg f % 2 ^ 32 && c.version == frameArg f / 2 ^ 32 % 2 ^ 16) = some c → c.leaves ≠ [] →
        (∀ p ∈ c.owner :: c.differing, 32 * rootLeaves (c.roots.getD c.owner []) ≤ (c.leaves.getD p []).length) → exec (.treeData f) s = .next (v.compareLeaves c))
    ∧ (∀ hdr r, MessageTaken s Mk.chartRequest f → hdr = leNat (f.payload.take 24) →
        r = ⟨.cascade, MailboxHdr.seq.get hdr + (frameArg f + (frameSrc f + 1) * 2 ^ 64) * 2 ^ 16, MailboxHdr.offset.get hdr, []⟩ →
        (MailboxHdr.op.get hdr = 1 → MailboxHdr.index.get hdr ≠ 0x9180 → lockedOpen (MailboxHdr.index.get hdr) = false →
            exec (.chartRequest f) s = .next (u.chartRead (MailboxHdr.index.get hdr) (MailboxHdr.subindex.get hdr) (MailboxHdr.length.get hdr) r))
        ∧ (MailboxHdr.op.get hdr = 2 → s.pkgAt s.masterPosition ≠ some (frameSrc f) → lockedOpen (MailboxHdr.index.get hdr) = false →
            exec (.chartRequest f) s = .next (u.strangerWrite (MailboxHdr.index.get hdr) (MailboxHdr.subindex.get hdr) { r with data := f.payload.drop 24 })))
    ∧ (∀ st v, MessageTaken s Mk.chartReply f → st = MailboxHdr.status.get (leNat (f.payload.take 24)) → v = leNat (f.payload.drop 24) →
        (1 ≤ frameArg f → frameArg f ≤ 6 → exec (.chartReply f) s = .next (u.feedArrives (frameSrc f) (frameArg f) st v))
        ∧ (7 ≤ frameArg f → frameArg f < 15 → st = Cs.ok → u.pkgAt (frameArg f - 7) = some (frameSrc f) →
            exec (.chartReply f) s = .next (u.setCh (Ch.borrowGranted + 256 * (frameArg f - 7)) v)))
    ∧ (MessageTaken s Mk.memberNotice f → u.memberAt (frameSrc f) = some u.masterPosition → frameArg f < 8 → frameArg f ≠ strapPos →
        exec (.memberNotice f) s = .next ((if bit (u.ch Ch.membersUp) (frameArg f) then u.setCh Ch.membersUp (u.ch Ch.membersUp - 2 ^ frameArg f) else u).memberLost (frameArg f) 0))

/-- The timers of the cascade: unanswered messages are sent again up to seven times and their package is then lost (R394); a member or a master that is silent is lost (R398, R400); HEARTBEAT goes to every other member (R396). -/
def Obligations.CascadeTimersAct : Prop :=
  ∀ (s : State) (p : Nat),
    ((s.peer p).unacked ≠ [] → (s.peer p).resends < 7 →
        exec (.messageResend p) s = .next ((s.peer p).unacked.foldl (fun (s : State) f => s.transmit p f)
          ((s.setPeer p { s.peer p with resends := (s.peer p).resends + 1 }).countSticky Ch.msgResends (s.peer p).unacked.length)))
    ∧ ((s.peer p).unacked ≠ [] → 7 ≤ (s.peer p).resends →
        exec (.messageResend p) s = .next ((s.raise ⟨0x0B09, p, s.ch Ch.msgResends, 0, none, []⟩).packageGone p s.nextEvent))
    ∧ (s.ch Ch.groupId ≠ 0 → exec .heartbeatSend s = .next ((s.otherMembers.filterMap s.pkgAt).foldl
        (fun (s : State) q => s.send q Mk.heartbeat (s.masterPosition + s.ch Ch.members * 256) []) s))
    ∧ (∀ t a b, s.ch Ch.groupId ≠ 0 → s.isMaster = true → p ≠ strapPos → bit (s.ch Ch.membersUp) p = true → t = s.setCh Ch.membersUp (s.ch Ch.membersUp - 2 ^ p) →
        a = (t.raise ⟨0x0B0B, t.ch Ch.groupId, p, t.ch Ch.membersUp, none, []⟩).ownersLost (fun b => b.kind == Bk.barrier && b.owner != Bo.plan) 5 true false →
        b = a.1.abortGroups a.2 St.ownerLost →
        exec (.memberTimeout p) s = .next (((((b.otherMembers.filter (fun q => q != p && bit (b.ch Ch.membersUp) q)).filterMap b.pkgAt).foldl
          (fun (s : State) q => s.send q Mk.memberNotice p []) b).memberLost p t.nextEvent).recheckSlips))
    ∧ (∀ t : State, s.ch Ch.groupId ≠ 0 → s.isMaster = false → s.ch Ch.groupState ≠ 3 → t = (s.setCh Ch.groupState 3).raise ⟨0x0B0C, s.ch Ch.groupId, s.masterPosition, 0, none, []⟩ →
        t.pkgAt t.masterPosition = none → exec .masterTimeout s = .next t)
    ∧ (∀ (t v w : State) q ops, s.ch Ch.groupId ≠ 0 → s.isMaster = false → s.ch Ch.groupState ≠ 3 → t = (s.setCh Ch.groupState 3).raise ⟨0x0B0C, s.ch Ch.groupId, s.masterPosition, 0, none, []⟩ →
        t.pkgAt t.masterPosition = some q → ops = t.cascade.ops.filter (fun o => o.pkg == q && o.kind == 3) →
        v = { t with cascade := { t.cascade with ops := t.cascade.ops.filter (fun o => !(o.pkg == q && o.kind == 3)), trees := [] } } →
        w = ops.foldl (fun (u : State) o => u.releaseWho o.who St.ownerLost s.nextEvent) (if ops.isEmpty then v else v.countSticky Ch.ownerLostReleases ops.length) →
        exec .masterTimeout s = .next ((w.abortGroups (ops.filterMap (fun o => match o.who with | .task x => some x | _ => none) ++ w.inOrder.filter (fun x => w.tf x.task TaskRec.taskKind == Tk.digest && w.taskState x == Ts.pending && w.atHead x
          && t.cascade.trees.contains (w.shf (w.tf x.task TaskRec.shard) ShardRec.shardId))) St.ownerLost).recheckSlips))

/-! ### Reef modules -/

/-- The identity and absence of a module, the replies of its sideband to the steps of an admission and to a scrub, and the wake of its link (R336, R339 to R341). -/
def Obligations.ModuleSidebandActs : Prop :=
  ∀ (s u : State) (p : Nat), u = s.modPort p (fun q => { q with exchange := none }) →
    (∀ a b ok, (s.modState p = Ms.absent ∨ s.modState p = Ms.identifying) →
        exec (.moduleIdentity p a b ok) s = .next (if ok ∧ a = b ∧ setBits 12 a.toNat % 2 = 1 then
          ((s.setCh (Ch.modState + 256 * p) Ms.identifying).setCh (Ch.modId + 256 * p) a.toNat).setModState p Ms.present
          else (s.setCh (Ch.modState + 256 * p) Ms.identifying).setModState p Ms.idFault))
    ∧ (s.modState p ∈ [Ms.present, Ms.idFault, Ms.trainFault, Ms.safe, Ms.lost] →
        exec (.moduleAbsent p) s = .next ((s.setModState p Ms.absent).modPort p (fun q => { q with bands := [], admitting := 0, exchange := none, scrub := none, reloc := none, defects := [], warned := [] })))
    ∧ (∀ w (r : BitVec 32),
        (s.asked p Sb.status = some w → sbResult Sb.status r.toNat = 0 →
          ((s.port p).step = 0 → exec (.status p r) s = .next ((s.statusTemperature p r.toNat).modPort p (fun q => { q with exchange := none })))
          ∧ ((s.port p).step = 1 → exec (.status p r) s = .next (((s.statusTemperature p r.toNat).modPort p (fun q => { q with exchange := none })).admitStep p 2))
          ∧ ((s.port p).step = 5 → exec (.status p r) s = .next (((s.statusTemperature p r.toNat).modPort p (fun q => { q with exchange := none })).admitStep p 6)))
        ∧ (s.asked p Sb.lanes = some w →
          (sbResult Sb.lanes r.toNat = 0 → exec (.lanes p r) s = .next ((u.modPort p (fun q => { q with locked := r.toNat % 256 })).admitStep p 3))
          ∧ (sbResult Sb.lanes r.toNat = 1 → exec (.lanes p r) s = .next (u.askModule p Sb.lanes (SbWord.data.get w)))
          ∧ (2 ≤ sbResult Sb.lanes r.toNat → exec (.lanes p r) s = .next (u.handshakeFails p)))
        ∧ (s.asked p Sb.preset = some w → sbResult Sb.preset r.toNat = 0 → exec (.preset p r) s = .next (u.admitStep p 4))
        ∧ (s.asked p Sb.phyStart = some w → sbResult Sb.phyStart r.toNat = 0 → exec (.phyStart p r) s = .next (u.admitStep p 5))
        ∧ (∀ l, s.asked p Sb.phyResult = some w → sbResult Sb.phyResult r.toNat = 0 → lanesUsed r.toNat = some l →
            exec (.phyResult p r) s = .next ((u.modPort p (fun q => { q with locked := l })).admitStep p 7))
        ∧ (s.asked p Sb.linkUp = some w → sbResult Sb.linkUp r.toNat = 0 → ∀ found, exec (.linkUp p ⟨r, found⟩) s = .next (u.linkIsUp p (SbWord.data.get w % 256) found))
        ∧ (s.asked p Sb.scrubBand = some w → exec (.scrubBand p r) s = .next (u.scrubReply p Sb.scrubBand r.toNat))
        ∧ (s.asked p Sb.scrubPoll = some w → exec (.scrubPoll p r) s = .next (u.scrubReply p Sb.scrubPoll r.toNat))
        ∧ (s.asked p Sb.wake = some w → exec (.wake p r) s = .next (if sbResult Sb.wake r.toNat = 1 then u.askModule p Sb.wake 0 else u)))
    ∧ ((s.port p).admitting ≠ 0 → exec (.admissionTimeout p) s = .next (s.handshakeFails p))

/-- A module's alarm, its wires and its busy warning; scrubs, relocations, the hourly update of the bands' ages, the writing back of their records (R342 to R349). -/
def Obligations.ModuleUpkeepActs : Prop :=
  ∀ (s : State) (p : Nat),
    (s.modState p = Ms.admitted → exec (.earlyRemovalWarning p) s = .next ((s.setModState p Ms.leaving).modPort p (fun q => { q with scrub := none })))
    ∧ ((s.modState p = Ms.admitted ∨ s.modState p = Ms.leaving ∨ s.modState p = Ms.draining) →
        (∀ us, 2 ≤ us → (us ≤ 20 → exec (.attentionPulse ⟨p, us⟩) s = .next (s.sendControl p Sb.status 0))
          ∧ (20 < us → us < 50 → exec (.attentionPulse ⟨p, us⟩) s = .next (s.countSticky (Ch.alarmErrors + 256 * p)))
          ∧ (50 ≤ us → exec (.attentionPulse ⟨p, us⟩) s = .next (s.earlyWarning p)))
        ∧ exec (.moduleBusy p) s = .next ((s.count (Ch.busyTime + 256 * p) 64 100000).raise ⟨0x0105, p, (s.ch (Ch.busyTime + 256 * p) + 100000) % 2 ^ 64, 0, none, []⟩))
    ∧ (∀ w : BitVec 16, exec (.alarmWord p w false) s = .next (s.countSticky (Ch.alarmErrors + 256 * p)) ∧
        (w.toNat / 8192 = 0 → exec (.alarmWord p w true) s = .next (s.setTemperature p (signedOf 13 w.toNat)))
        ∧ (w.toNat / 8192 = 2 → w.toNat % 8192 ≠ 0 → s.modState p = Ms.admitted →
            ∃ b, b < firstMetaBand ∧ exec (.alarmWord p w true) s = .next (State.startRelocation 64 ((s.drew 1).defective p b 0) p)))
    ∧ (∀ b reason nb l u v, (s.port p).reloc = some (b, reason) → (s.port p).leastWorn = some nb →
        u = s.modPort p (fun q => { q.moveBand b nb (4 + reason) with
          reloc := none, defects := q.defects.filter (fun d => d.1 != b), waiting := [], poisoned := q.poisoned ++ l.map (fun f => 16384 * BandRec.logical.get ((s.port p).band b) + f % 16384) }) →
        v = (if reason = 1 then u else (u.countSticky (Ch.defectsGrown + 256 * p)).raise ⟨0x0109, p, b, l.length, none, []⟩) →
        exec (.relocationComplete p l) s = .next ((State.startRelocation 64 (v.spareFloor p) p).settleDraining p))
    ∧ (∀ h, s.recordPorts = [p] → h = ageFactor (signedOf 32 (s.ch (Ch.temperature + 256 * p))) →
        (∀ e ∈ (s.port p).bands, BandRec.state.get e.2 = Bs.mapped → BandRec.age.get e.2 < 168 → min 8191 (BandRec.age.get e.2 + h) < 168) →
        exec .ageUpdate s = .next (State.startRelocation 64 (s.modPort p (fun q => { q with scrubsHour := 0, bands := q.bands.map (fun e =>
          if BandRec.state.get e.2 = Bs.mapped then (e.1, BandRec.age.set e.2 (min 8191 (BandRec.age.get e.2 + h))) else e) })) p))
    ∧ exec .bandRecordWriteback s = .next (if s.awake 0 then s.writeBandRecords else s.wake)
    ∧ (∀ b, (s.port p).scrub = none → s.scrubReach p = true → s.scrubNext p = some b →
        exec (.scrubDue p) s = .next ((s.modPort p (fun q => { q with scrub := some b, scrubsHour := q.scrubsHour + 1 })).scrubAsk p Sb.scrubBand b))

/-- A port reads and writes sectors of its module by frames in the order of its requests, takes the sectors, ends and sideband replies that the module sends, and replays what is not acknowledged (R332 to R335). -/
def Obligations.LinkFramesAct : Prop :=
  ∀ (s : State) (p : Nat),
    (∀ q t v, s.linkReady p = true → (s.unserved p).find? (fun q => !q.write || q.partSector) = some q → (q.write && s.tooWarm p) = false → s.beginTransfer p q false = some (v, t) →
        exec (.readFrame p) s = .next (v.sendLink p 1 t.mask t.frame 0 t.tag zeroSector (crc32c zeroSector)))
    ∧ (s.linkReady p = true →
        (∀ t, (s.port p).transfers.find? (fun t => t.write && t.left != 0) = some t → exec (.writeFrame p) s = .next (s.sendSector p t))
        ∧ (∀ q t v, (s.port p).transfers.find? (fun t => t.write && t.left != 0) = none → (s.unserved p).find? (fun q => q.write && !q.partSector) = some q →
            s.tooWarm p = false → s.beginTransfer p q true = some (v, t) → exec (.writeFrame p) s = .next (v.sendSector p t)))
    ∧ (∀ f u t, LinkTaken s p 3 f → u = s.afterLink p f → f.sectorCheck.toNat = crc32c f.payload →
        (u.port p).transfers.find? (fun t => t.tag == LinkHdr.tag.get f.header.toNat && !t.write && bit t.left (LinkHdr.sector.get f.header.toNat)) = some t →
        ∃ v : State, exec (.dataFrame p f) s = .next v ∧ v.mem = u.mem ∧ v.chart = u.chart ∧ (v.port p).transfers = (u.port p).transfers.map (fun y => if y.tag = t.tag then
          { y with left := y.left - 2 ^ LinkHdr.sector.get f.header.toNat, got := y.got.put (LinkHdr.sector.get f.header.toNat) f.payload, bad := y.bad } else y))
    ∧ (∀ f u t, LinkTaken s p 4 f → u = s.afterLink p f → (u.port p).transfers.find? (fun t => t.tag == LinkHdr.tag.get f.header.toNat) = some t →
        exec (.doneFrame p f) s = .next (State.startRelocation 64 ((if t.write then u.writeDone p t (LinkHdr.status.get f.header.toNat)
          else u.readDone p t (LinkHdr.status.get f.header.toNat) (f.payload.headD 0).toNat).settleDraining p) p))
    ∧ (∀ f r, LinkTaken s p 5 f → r = leNat (f.payload.take 4) →
        ((SbWord.cmd.get r = Sb.scrubBand ∨ SbWord.cmd.get r = Sb.scrubPoll) → exec (.controlFrame p f) s = .next ((s.afterLink p f).scrubReply p (SbWord.cmd.get r) r))
        ∧ (SbWord.cmd.get r = Sb.status → sbResult Sb.status r = 0 → exec (.controlFrame p f) s = .next ((s.afterLink p f).statusTemperature p r)))
    ∧ (s.linkReady p = true →
        (7 ≤ (s.port p).replays → exec (.linkReplay p) s = .next (s.linkFails p))
        ∧ ((s.port p).replays < 7 → exec (.linkReplay p) s = .next ((s.port p).unacked.foldl (fun (s : State) f => s.out (.linkFrame p f))
            ((s.modPort p (fun q => { q with replays := q.replays + 1 })).countSticky (Ch.linkReplays + 256 * p) (max 1 (s.port p).unacked.length)))))

/-- A stack that fails takes its Skerry and its two engines out of service, ends the commands and tasks that address it with STACK_LOST, and faults the streams with bytes on it (R31, R220). -/
def Obligations.StackFailureActs : Prop :=
  ∀ (s t : State) (n : Nat) (xs : List TaskRef), n < 20 → s.ch (Ch.sliceState + 256 * n) ≠ 1 →
    xs = s.inOrder.filter (fun x => (s.taskState x == Ts.running || s.taskState x == Ts.pending) && s.taskOn x.task n) →
    t = (((s.setCh (Ch.sliceState + 256 * n) 1).setCh (Ch.engineState + 256 * (2 * n)) 2).setCh (Ch.engineState + 256 * (2 * n + 1)) 2).raise
      ⟨0x0303, n, xs.length, 0, none, []⟩ →
    exec (.stackFailed n) s = .next (((List.range s.streamCount).filter (fun k => s.stateOf k != Ss.unborn && s.stateOf k != Ss.released && s.streamOn k n)).foldl
      (fun (s : State) k => if s.stateOf k = Ss.filling then s.faultFilling k n else s.faultStream k St.stackLost)
      (((s.dispatched.filter (s.cmdLost n)).foldl (fun (u : State) d => u.cancelCmd d St.stackLost s.nextEvent) t).abortGroups xs St.stackLost)).recheckSlips

/-! ### Instructions of Shoal programs -/

/-- The instructions of control and of the scalar registers leave the registers that R255 and R257 give; END ends the unit. -/
def Obligations.ScalarInstructionsComplete : Prop :=
  ∀ (s : State) (e : Nat) (v : Invocation) (r : Regs) (b : Bench), r = (s.engine e).regs → b = s.insnBench e v →
    (∀ i : IForm, i.wf = true →
      (s.InsnAt e (iWord 0x01 i) v →
        (v.stream = noRef → exec (.endProg e i) s = .next (s.updateUnit e v))
        ∧ (∀ c, v.stream ≠ noRef → s.consumer v.consumer = some c → exec (.endProg e i) s = .next (s.recomputeUnit e v c)))
      ∧ (s.InsnAt e (iWord 0x02 i) v → exec (.loop e i) s = .next (s.afterInsn e v b
          (if r.sreg i.a = 0 ∨ i.imm % 4096 = 0 then { r with pc := r.pc + 1 + i.imm % 4096 }
           else { r with pc := r.pc + 1, loops := (r.pc + 1, r.pc + 1 + i.imm % 4096, r.sreg i.a - 1) :: r.loops })))
      ∧ (s.InsnAt e (iWord 0x03 i) v → exec (.brz e i) s = .next (s.afterInsn e v b { r with pc := r.pc + 1 + (if r.sreg i.a = 0 then i.imm % 4096 else 0) }))
      ∧ (s.InsnAt e (iWord 0x04 i) v → exec (.brnz e i) s = .next (s.afterInsn e v b { r with pc := r.pc + 1 + (if r.sreg i.a = 0 then 0 else i.imm % 4096) }))
      ∧ (s.InsnAt e (iWord 0x08 i) v → exec (.sli e i) s = .next (s.afterInsn e v b (r.setS i.d (sext i.imm)).next))
      ∧ (s.InsnAt e (iWord 0x0A i) v → exec (.saddi e i) s = .next (s.afterInsn e v b (r.setS i.d (r.sreg i.a + sext i.imm)).next))
      ∧ (s.InsnAt e (iWord 0x0C i) v → exec (.sshr e i) s = .next (s.afterInsn e v b (r.setS i.d (r.sreg i.a / 2 ^ (i.imm % 64))).next))
      ∧ (s.InsnAt e (iWord 0x0E i) v → exec (.sldk e i) s = .next (s.afterInsn e v (b.clip (s.engineEnv e v) r ((s.engineEnv e v).dbufClips [i.imm])) (r.setS i.d ((s.engineEnv e v).dbufRead b (i.imm / 8 * 8) 8)).next)))
    ∧ (∀ i : GForm, i.wf = true →
      (s.InsnAt e (gWord 0x09 i) v → exec (.sadd e i) s = .next (s.afterInsn e v b (r.setS i.d (r.sreg i.a + r.sreg i.b)).next))
      ∧ (s.InsnAt e (gWord 0x0B i) v → exec (.smul e i) s = .next (s.afterInsn e v b (r.setS i.d (r.sreg i.a * r.sreg i.b)).next))
      ∧ (s.InsnAt e (gWord 0x0D i) v → exec (.sand e i) s = .next (s.afterInsn e v b (r.setS i.d (r.sreg i.a &&& r.sreg i.b)).next)))

/-- Loads, stores, broadcasts, random words, choices and moves of the vector registers write the enabled lanes, or the elements of OUT and the words of DBUF, that R253, R255 and R266 give; an access of DBUF that wraps is counted (R258). -/
def Obligations.VectorMovesComplete : Prop :=
  ∀ (s : State) (e : Nat) (v : Invocation) (r : Regs) (b : Bench) (env : Env), r = (s.engine e).regs → b = s.insnBench e v → env = s.engineEnv e v →
    (∀ i : IForm, i.wf = true →
      (s.InsnAt e (iWord 0x12 i) v → exec (.vldd e i) s = .next (s.afterInsn e v (b.clip env r (env.dbufClips (lanes.map (fun l => (r.sreg i.a + i.imm) / 4 * 4 + 4 * l))))
          (r.setV i.d allLanes (lanes.map (fun l => env.dbufRead b ((r.sreg i.a + i.imm) / 4 * 4 + 4 * l) 4))).next))
      ∧ (s.InsnAt e (iWord 0x13 i) v → exec (.vstd e i) s = .next (s.afterInsn e v
          { b.clip env r (env.dbufClips (lanes.map (fun l => (r.sreg i.a + i.imm) / 4 * 4 + 4 * l))) with dbuf := putBytes (b.clip env r (env.dbufClips (lanes.map (fun l => (r.sreg i.a + i.imm) / 4 * 4 + 4 * l)))).dbuf env.dbufAddr ((r.sreg i.a + i.imm) / 4 * 4) ((r.vreg i.d).flatMap (fun w => leBytes 4 w.toNat)) } r.next))
      ∧ (s.InsnAt e (iWord 0x14 i) v → exec (.vbc e i) s = .next (s.afterInsn e v b (r.setV i.d allLanes (lanes.map (fun _ => i.imm))).next)))
    ∧ (∀ (i : GForm) g, i.wf = true → g = r.gate i.pred i.pnot →
      (∀ on b' xs, s.InsnAt e (gWord 0x10 i) v → on = lanes.filter (fun l => nth g l false) →
          s.portElems s.reader env i.b (on.map (fun l => (r.sreg i.a + l) % maxLane)) b = .ok (b', xs) →
          exec (.vld e i) s = .next (s.afterInsn e v (b'.clip env r (xs.filter Option.isNone).length) (r.setV i.d g (lanes.map (fun l =>
            ((((List.zip on xs).map (fun p => (p.1, p.2.getD negZero))).find? (fun p => p.1 == l)).map Prod.snd).getD 0))).next))
      ∧ (∀ p, s.InsnAt e (gWord 0x11 i) v → p = r.putOut env ((lanes.filter (fun l => nth g l false)).map (fun l =>
            ((r.sreg i.b + l) % maxLane, env.outBits ((r.sreg i.b + l) % maxLane) (nth (r.vreg i.a) l 0).toNat))) →
          exec (.vst e i) s = .next (s.afterInsn e v (b.clip env r p.2) p.1.next))
      ∧ (s.InsnAt e (gWord 0x15 i) v → exec (.vbcs e i) s = .next (s.afterInsn e v b (r.setV i.d allLanes (lanes.map (fun _ => r.sreg i.a % 2 ^ 32))).next))
      ∧ (s.InsnAt e (gWord 0x18 i) v → exec (.vrand e i) s = .next (s.afterInsn e v b
          (r.setV i.d allLanes (lanes.map (fun l => philoxWord env.key env.ctr ((r.sreg i.a + l) % maxLane)))).next))
      ∧ (s.InsnAt e (gWord 0x33 i) v → exec (.vsel e i) s = .next (s.afterInsn e v b (r.setV i.d g
          (List.zipWith (fun (c : Bool) (p : Word × Word) => moved env.mode i.bf (if c then p.1 else p.2).toNat) (r.preg i.c) (List.zip (r.vreg i.a) (r.vreg i.b)))).next))
      ∧ (s.InsnAt e (gWord 0x34 i) v → exec (.vmov e i) s = .next (s.afterInsn e v b (r.setV i.d g ((nats (r.vreg i.a)).map (moved env.mode i.bf))).next)))

/-- The lanewise instructions write, in the enabled lanes of V[D] or of P[D mod 8], what each operation of R259 to R261 gives lane by lane, in the engine's numeric mode and rounded to bfloat16 where BF says so, and count the lanes that gave a NaN from none. -/
def Obligations.LanewiseInstructionsComplete : Prop :=
  ∀ (s : State) (e : Nat) (v : Invocation) (r : Regs) (b : Bench) (m : NMode) (i : GForm) (g : List Bool) (x y z : List Nat),
    r = (s.engine e).regs → b = s.insnBench e v → m = (s.engineEnv e v).mode → i.wf = true → g = r.gate i.pred i.pnot →
    x = nats (r.vreg i.a) → y = nats (r.vreg i.b) → z = nats (r.vreg i.c) →
    (∀ p ∈ [(0x26, Instr.vabs, vAbs), (0x27, Instr.vneg, vNeg), (0x29, Instr.vsqrt, vSqrt), (0x2A, Instr.vrsqrt, vRsqrt), (0x2B, Instr.vexp, vExp), (0x2C, Instr.vlog, vLog),
        (0x2D, Instr.vtanh, vTanh), (0x2E, Instr.verf, vErf), (0x2F, Instr.vsigm, vSigm)], s.InsnAt e (gWord p.1 i) v →
        exec (p.2.1 e i) s = .next (s.afterInsn e v { b with nans := nanLanes g [x] (x.map (p.2.2 m i.bf)) } (r.setV i.d g (x.map (p.2.2 m i.bf))).next))
    ∧ (∀ p ∈ [(0x20, Instr.vadd, vAdd), (0x21, Instr.vsub, vSub), (0x22, Instr.vmul, vMul), (0x24, Instr.vmax, vMax), (0x25, Instr.vmin, vMin), (0x28, Instr.vdiv, vDiv)],
        s.InsnAt e (gWord p.1 i) v →
        exec (p.2.1 e i) s = .next (s.afterInsn e v { b with nans := nanLanes g [x, y] (List.zipWith (p.2.2 m i.bf) x y) } (r.setV i.d g (List.zipWith (p.2.2 m i.bf) x y)).next))
    ∧ (∀ w, s.InsnAt e (gWord 0x23 i) v → w = List.zipWith (fun (p : Nat × Nat) z => vFma m i.bf p.1 p.2 z) (List.zip x y) z →
        exec (.vfma e i) s = .next (s.afterInsn e v { b with nans := nanLanes g [x, y, z] w } (r.setV i.d g w).next))
    ∧ (∀ p ∈ [(0x19, Instr.vult, vUlt), (0x30, Instr.vcgt, vGt), (0x31, Instr.vcge, vGe), (0x32, Instr.vceq, vEq)], s.InsnAt e (gWord p.1 i) v →
        exec (p.2.1 e i) s = .next (s.afterInsn e v b (r.setP i.d (List.zipWith (fun (c : Bool) (q : Bool × Bool) => if c then q.1 else q.2) g
          (List.zip (List.zipWith (p.2.2 m) x y) (r.preg i.d)))).next))

/-- Stochastic rounding, form codes (of a form without a code, a free value: log entry 27), the two reductions and the accumulator tile (R41, R262, R263, R268, R270). -/
def Obligations.ReductionInstructionsComplete : Prop :=
  ∀ (s : State) (e : Nat) (v : Invocation) (r : Regs) (b : Bench) (env : Env), r = (s.engine e).regs → b = s.insnBench e v → env = s.engineEnv e v →
    (∀ i : IForm, i.wf = true →
      (∀ x bad, s.InsnAt e (iWord 0x3A i) v → x = (nats (r.vreg i.a)).map (fun y => if 0x10 ≤ i.imm % 256 then ((Config.formlessCode (i.imm % 256) (BitVec.ofNat 32 y)).toNat, false) else formCode env.mode (i.imm % 256) 0 y) →
          bad = (List.zip (r.gate i.pred i.pnot) (List.zip (nats (r.vreg i.a)) x)).filter (fun p => p.1 && p.2.2.2) →
          exec (.vqf e i) s = .next (s.afterInsn e v { b with nanForms := b.nanForms + bad.length, nans := b.nans + (bad.filter (fun p => !isNan32 p.2.1)).length }
            (r.setV i.d (r.gate i.pred i.pnot) (x.map Prod.fst)).next))
      ∧ (s.InsnAt e (iWord 0x48 i) v → exec (.mz e i) s = .next (s.afterInsn e v b { r with acc := List.replicate 1024 0, pc := r.pc + 1 })))
    ∧ (∀ (i : GForm) g x, i.wf = true → g = r.gate i.pred i.pnot → x = nats (r.vreg i.a) →
      (∀ q, s.InsnAt e (gWord 0x39 i) v → q = List.zipWith (fun (x u : Word) => vSr env.mode x.toNat (u.toNat % 65536)) (r.vreg i.a) (r.vreg i.b) →
          exec (.vsr e i) s = .next (s.afterInsn e v { b with srOver := ((List.zip g q).filter (fun p => p.1 && p.2.2)).length } (r.setV i.d g (q.map Prod.fst)).next))
      ∧ (∀ p, s.InsnAt e (gWord 0x3B i) v → p = r.putOut env ((lanes.filter (fun l => nth g l false)).map (fun l => ((r.sreg i.b + l) % maxLane, (nth (r.vreg i.a) l 0).toNat % 256))) →
          exec (.vstf e i) s = .next (s.afterInsn e v (b.clip env r p.2) p.1.next))
      ∧ (∀ k, s.InsnAt e (gWord 0x40 i) v → k = vRsum env.mode i.bf (active g x) →
          exec (.vrsum e i) s = .next (s.afterInsn e v { b with nans := if isNan32 k && (active g x).all (fun y => !(y.any isNan32)) then (g.filter id).length else 0 }
            (r.setV i.d g (lanes.map (fun _ => k))).next))
      ∧ (s.InsnAt e (gWord 0x41 i) v → (active g x).filterMap id = [] → exec (.vrmax e i) s = .next (s.afterInsn e v b r.next))
      ∧ (∀ k ks, s.InsnAt e (gWord 0x41 i) v → (active g x).filterMap id = k :: ks →
          exec (.vrmax e i) s = .next (s.afterInsn e v b (r.setV i.d g (lanes.map (fun _ => ks.foldl (vMax env.mode i.bf) (vMax env.mode i.bf k k)))).next))
      ∧ (∀ b' r', s.InsnAt e (gWord 0x49 i) v → semMma s i env s.reader b r = .ok (b', r') →
          r'.v = r.v ∧ r'.s = r.s ∧ r'.p = r.p ∧ r'.out = r.out ∧ r'.acc.length = 1024 ∧ exec (.mma e i) s = .next (s.afterInsn e v b' r'))
      ∧ (∀ es p, s.InsnAt e (gWord 0x4A i) v → es = (List.range 1024).filterMap (fun q => if r.sreg i.b + q % 32 < ProgRec.outCols.get env.prog then
            some ((r.sreg i.a + q / 32) * ProgRec.outCols.get env.prog + (r.sreg i.b + q % 32), nth r.acc q 0) else none) →
          p = r.putOut env (es.map (fun x => (x.1, env.outBits x.1 x.2.toNat))) →
          exec (.mst e i) s = .next (s.afterInsn e v (b.clip env r (p.2 + (1024 - es.length))) p.1.next)))

/-! ### Reset and power -/

/-- The state right after reset: the queue of commands empty, every domain asleep, no plan, no session, no group, no microcode, no context, no buoy and no work anywhere; memory lists nothing; event 1, the RESET event, held. The registers of the engines are zero (log entry 28, the model's choice). -/
def Obligations.ResetValues : Prop :=
  State.reset.pending = [] ∧ State.reset.mem = [] ∧ State.reset.checkWords = [] ∧ State.reset.ch Ch.powerState = 0 ∧ State.reset.ch Ch.planState = Pl.empty
    ∧ State.reset.ch Ch.sessionState = Sn.detached ∧ State.reset.ch Ch.groupState = 0 ∧ State.reset.ch Ch.mcState = 0 ∧ State.reset.ch Ch.lastReset = 0
    ∧ State.reset.contexts = [] ∧ State.reset.buoys = [] ∧ State.reset.dispatched = [] ∧ State.reset.plan.tables = none ∧ State.reset.ferry.items = [] ∧ State.reset.skerry.consumers = []
    ∧ State.reset.ports = [] ∧ State.reset.events.next = 2 ∧ State.reset.events.held.length = 1 ∧ (∀ p, p < 16 → State.reset.modState p = Ms.absent)
    ∧ State.reset.memWf = true ∧ State.reset.enginesWf = true ∧ State.reset.buoysWf = true ∧ ∀ e, (State.reset.engine e).regs.wf = true

/-- A full reset from each of its causes returns every Chart entry but LAST_RESET to its default and clears contexts, buoys, commands and plan; it keeps the commands that wait and every byte of memory outside the mailbox; LAST_RESET shows the cause (R433, R449). -/
def Obligations.FullResetLeaves : Prop :=
  ∀ (s : State), ∀ p ∈ [(FullCause.standbyRising, 0), (FullCause.rail 0, 4), (FullCause.rail 1, 4), (FullCause.refclkLost, 6)],
    ∃ t : State, exec (.fullReset p.1) s = .next t ∧ t.pending = s.pending ∧ (∀ k, t.ch k = if k = Ch.lastReset then p.2 else State.reset.ch k)
      ∧ t.contexts = [] ∧ t.buoys = [] ∧ t.dispatched = [] ∧ t.plan = Plan.reset ∧ t.ferry = Ferry.reset ∧ t.engines = [] ∧ t.cascade = Cascade.reset ∧ t.events.next = 2
      ∧ (∀ x, ¬ (mailboxBase ≤ x ∧ x < mailboxBase + 4096) → Memory.read t.mem x = Memory.read s.mem x) ∧ (s.memWf = true → t.memWf = true)

/-- R424: the loss of a PLL's lock while its domain is awake makes a fast reset with cause PLL_UNLOCK (5), the loss of the reference a full reset with cause REFCLK_LOST (6); LAST_RESET shows the cause. -/
def Obligations.ClockLossResets : Prop :=
  ∀ (s : State),
    (s.asleep = false → exec (.fastReset .pllUnlock) s = .next (s.fastReset 5) ∧ (s.fastReset 5).ch Ch.lastReset = 5)
    ∧ exec (.fullReset .refclkLost) s = .next (s.fullReset 6) ∧ (s.fullReset 6).ch Ch.lastReset = 6

/-! ### Memory -/

/-- A store of a server core to memory, and a device's to a region without a notify word, with no copy of a set in progress and no sector failing its check: exactly the stored bytes change, nothing else of the block does, and memory keeps its canonical form. -/
def Obligations.StoresTouchOnlyTheirBytes : Prop :=
  ∀ (s : State) (c : Instr) (a : Nat) (bs : List Byte), s.sets = [] → s.checkWords = [] → s.filling a bs.length = false →
    ((c = .serverCoreWrite a bs ∧ a + bs.length ≤ 2 ^ 52 ∧ overlap a bs.length windowStart windowBytes = false ∧ overlap a bs.length (s.ch Ch.doorbellAddr) 8 = false
        ∧ headTouched a bs.length = none ∧ s.protects a bs.length = false)
      ∨ ∃ q g, c = .deviceMemoryWrite q a bs ∧ s.deviceRegion false q a bs.length true = some g ∧ (s.put a bs).fld g DevRegion.notify ≠ 1) →
    ∃ t : State, exec c s = .next t ∧ t = { s with mem := t.mem } ∧ (∀ x, Memory.read t.mem x = if a ≤ x ∧ x < a + bs.length then bs.getD (x - a) 0 else Memory.read s.mem x)
      ∧ (s.memWf = true → t.memWf = true)

/-- What a server core has stored it loads again: a store followed by a load of the same bytes answers the bytes stored. -/
def Obligations.StoredBytesAreReadBack : Prop :=
  ∀ (s : State) (a : Nat) (bs : List Byte), s.memWf = true → s.sets = [] → s.checkWords = [] → s.filling a bs.length = false → a + bs.length ≤ 2 ^ 52 →
    overlap a bs.length windowStart windowBytes = false → overlap a bs.length (s.ch Ch.doorbellAddr) 8 = false → headTouched a bs.length = none → s.protects a bs.length = false →
    ∃ t : State, exec (.serverCoreWrite a bs) s = .next t ∧ exec (.serverCoreRead a bs.length) t = .next (t.out (.coreData bs))

/-- A store of a server core to bytes that Charov protects is refused and reported (R48); a device's access that no ENABLED region lets through is refused, counted and reported, a read of it answered Unsupported Request (R384); an access past the last address faults, since no memory and no register lies there (log entry 60, the model's). -/
def Obligations.ForbiddenAccessesAreRefused : Prop :=
  ∀ (s : State) (a n q : Nat) (bs : List Byte),
    (a + bs.length ≤ 2 ^ 52 → overlap a bs.length windowStart windowBytes = false → overlap a bs.length (s.ch Ch.doorbellAddr) 8 = false → headTouched a bs.length = none →
        s.protects a bs.length = true → exec (.serverCoreWrite a bs) s = .next (s.writeRefused a 0 none))
    ∧ (s.deviceRegion false q a bs.length true = none → exec (.deviceMemoryWrite q a bs) s = .next (s.inboundRefused q a 1))
    ∧ (s.deviceRegion false q a n false = none → exec (.deviceMemoryRead q a n) s = .next ((s.inboundRefused q a 0).out (.unsupportedRequest q a)))
    ∧ (2 ^ 52 < a + bs.length → exec (.serverCoreWrite a bs) s = .fault (.noSuchAddress a))
    ∧ (2 ^ 52 < a + n → exec (.serverCoreRead a n) s = .fault (.noSuchAddress a))

/-! ### Commands and their ends -/

/-- A command at the head of the queue served that fails a check is completed with the status of the first check that fails, in the order version, opcode, context, urgency (R131). -/
def Obligations.CommandsAreCheckedInOrder : Prop :=
  ∀ (gen ctx ucap w : Nat),
    (cmdGet w Cmd.version ≠ gen → cmdFormat gen ctx ucap w = some (St.badVersion, cmdGet w Cmd.version))
    ∧ (cmdGet w Cmd.version = gen →
      (bodyFields (cmdGet w Cmd.opcode) = none → cmdFormat gen ctx ucap w = some (St.badOpcode, 0))
      ∧ ((bodyFields (cmdGet w Cmd.opcode)).isSome = true →
        (cmdGet w Cmd.context ≠ ctx → cmdFormat gen ctx ucap w = some (St.contextMismatch, ctx))
        ∧ (cmdGet w Cmd.context = ctx → cmdGet w Cmd.urgency ≠ 3 → cmdGet w Cmd.urgency < ucap → cmdFormat gen ctx ucap w = some (St.urgencyDenied, ucap))))
    ∧ ∀ (s : State) (c q st detail : Nat) (slot : MemResult), s.pilotRuns = true → s.ch Ch.powerState = 7 → (∀ p ∈ s.offering, s.slotFree p = true) →
        State.nextQueue { s.countSticky Ch.cqWaits 0 with cqWaiting := [] } s.offering = some (c, q) → s.checkWords = [] → w = s.headCommand q → gen = s.ch Ch.genActive →
        ∃ u : State, u.dispatched = s.dispatched ++ [⟨s.nextTag, q, w, .ready, 0, slot⟩] ∧ u.nextTag = s.nextTag + 1 ∧ u.plan = s.plan ∧ u.buoys = s.buoys
          ∧ (cmdFormat gen (u.q q QueueDesc.context) (u.q q QueueDesc.urgencyCap) w = some (st, detail) →
              exec (.commandDispatch ⟨.ok, slot⟩) s = .next (u.endCmd ⟨s.nextTag, q, w, .ready, 0, slot⟩ st detail))

/-- The completion record of a command that ends well: it lies in slot CQ_TAIL mod 2^ENTRIES_LOG2 with the phase of the round of the ring, and CQ_TAIL grows by one (R138). The queue is ENABLED, its descriptor and the slot do not overlap, and no task searches for a slip. -/
def Obligations.CompletionRecordIsWritten : Prop :=
  ∀ (s : State) (c a : Nat) (d : Dispatched), s.readyCmd c Op.nop = some d → d.slot = .ok → s.memWf = true → s.checkWords = [] → s.plan.lateSeen = [] →
    cmdGet d.word Cmd.signal = 0 → cmdGet d.word Cmd.noRecord = 0 → s.queueState d.queue = Qs.enabled →
    a = s.q d.queue QueueDesc.cqBase + 16 * (s.q d.queue QueueDesc.cqTail % s.ringSize d.queue) → (a + 16 ≤ s.queueBase d.queue ∨ s.queueBase d.queue + 64 ≤ a) →
    ∃ t : State, exec (.nop c) s = .next t ∧ t.dispatched = s.dispatched.filter (fun e => e.tag != d.tag) ∧ t.buoys = s.buoys ∧ t.plan = { s.plan with signalled := [] } ∧ t.chart = s.chart
      ∧ t.rd a 16 = leBytes 16 (complRecord (if s.q d.queue QueueDesc.cqTail / s.ringSize d.queue % 2 = 0 then 1 else 0) 0 d.queue (s.q d.queue QueueDesc.context) St.success
          (cmdGet d.word Cmd.opcode) (cmdGet d.word Cmd.sequence))
      ∧ t.q d.queue QueueDesc.cqTail = (s.q d.queue QueueDesc.cqTail + 1) % 65536
      ∧ ∀ x, ¬ (a ≤ x ∧ x < a + 16) → ¬ (s.queueBase d.queue ≤ x ∧ x < s.queueBase d.queue + 64) → Memory.read t.mem x = Memory.read s.mem x

/-- A write of the Chart that a check common to all entries refuses leaves everything as it was but the reply and PATH_REFUSALS (R454, R483). The writes named act on contexts, channels, buoys, regions, programs, the window, sets, the session and the modes of the block; the path is MCTP. -/
def Obligations.RefusedWritesChangeNothing : Prop :=
  ∀ (s : State) (r : Req),
    ∀ p ∈ [(0x1200, 2, 1, Instr.create r), (0x1200, 2, 2, Instr.teardown r), (0x1200, 2, 3, Instr.preempt r), (0x1200, 2, 4, Instr.contextResume r), (0x1201, 2, 0, Instr.xtsKey r),
      (0x1201, 3, 0, Instr.philoxKey r), (0x2000, 1, 1, Instr.assign r), (0x2000, 1, 2, Instr.regionRelease r), (0x1001, 2, 0, Instr.genSelect r), (0xB000, 3, 0, Instr.holdAwake r),
      (0x6001, 0, 0, Instr.buoyBind r), (0x5001, 0, 1, Instr.channelEnable r), (0x5001, 0, 2, Instr.channelDisable r), (0x5001, 0, 3, Instr.channelStop r), (0x5001, 0, 4, Instr.channelResume r),
      (0x5001, 0, 5, Instr.channelReset r), (0x5001, 0, 6, Instr.clearFlags r), (0x5002, 2, 0, Instr.arm r), (0x7400, 3, 2, Instr.retire r), (0x1130, 2, 0, Instr.windowOffset r),
      (0x1130, 3, 1, Instr.windowFlush r), (0x9181, 4, 0, Instr.correlatedOverride r), (0x8000, 5, 1, Instr.drop r)],
      r.path = .mctp → (p.2.2.1 ≠ 0 → actionIs r actF p.2.2.1 = true) → s.writeStatus p.1 p.2.1 r ⟨true, true, true, id⟩ ≠ Cs.ok →
      ∃ t : State, exec p.2.2.2 s = .next t ∧ t = { s with chart := t.chart, outbox := t.outbox } ∧ ∀ k, k ≠ Ch.pathRefusals → t.ch k = s.ch k

/-! ### Buoys -/

/-- A SIGNAL that would raise the count above LIMIT adds nothing, and a WAIT for more than LIMIT takes nothing: the command ends with BUOY_ERROR, and the error is counted and reported with its cause (R286, R292). The event's number is not 0, which names no event. -/
def Obligations.BuoyErrorsEndCommands : Prop :=
  ∀ (s u v : State) (c k n name : Nat) (d : Dispatched) (b : Buoy), d.stage = .ready → s.buoyAway d.word = false → name = cmdGet d.word CmdBuoy.buoy → n = cmdGet d.word CmdBuoy.count → n ≠ 0 →
    u = (s.meetsPlan d.queue (s.cmdContext d) name).translates → v = ((s.setStage c .waiting 0).meetsPlan d.queue (s.cmdContext d) name).translates →
    b.lost = false → b.kind = Bk.semaphore →
    (s.cmd c Op.signal = some d → u.findBuoy (s.cmdContext d) name = some (k, b) → u.nextEvent ≠ 0 → b.limit < b.count + n →
        exec (.signal c) s = .next (((u.countSticky Ch.buoyErrors).raise ⟨0x0501, k, name + 5 * 2 ^ 32 + 1 * 2 ^ 40, n, some (s.cmdContext d), []⟩).endCmd d St.buoyError u.nextEvent))
    ∧ (s.cmd c Op.wait = some d → v.findBuoy (s.cmdContext d) name = some (k, b) → v.nextEvent ≠ 0 → cmdGet d.word CmdBuoy.barrier = 0 → b.limit < n →
        exec (.wait c) s = .next (((v.countSticky Ch.buoyErrors).raise ⟨0x0501, k, name + 6 * 2 ^ 32 + 2 * 2 ^ 40, n, some (s.cmdContext d), []⟩).endCmd d St.buoyError v.nextEvent))

/-- R290: an entry that fills round R of a barrier releases every entry of R with SUCCESS and makes R + 1 current with the parked entries in it; where those are PARTICIPANTS, round R + 1 completes at once too. No entry of another package waits for the epoch check of R104. -/
def Obligations.RoundsComplete : Prop :=
  ∀ (s u v : State) (c k : Nat) (d : Dispatched) (b : Buoy), s.cmd c Op.wait = some d → d.stage = .ready → cmdGet d.word CmdBuoy.barrier = 1 → cmdGet d.word CmdBuoy.count ≠ 0 → s.buoyAway d.word = false →
    v = ((s.setStage c .waiting 0).meetsPlan d.queue (s.cmdContext d) (cmdGet d.word CmdBuoy.buoy)).translates →
    v.findBuoy (s.cmdContext d) (cmdGet d.word CmdBuoy.buoy) = some (k, b) → b.lost = false → b.kind = Bk.barrier → cmdGet d.word CmdBuoy.round % 2 ^ 32 = b.round → b.round < 2 ^ 32 →
    b.entries.length + 1 = b.participants → v.ch Ch.groupId = 0 →
    u = State.releaseAll (v.setBuoy k { b with round := (b.round + 1) % 2 ^ 32, entries := b.parked, parked := [] }) (b.entries ++ [⟨.cmd c, 1⟩]) St.success 0 →
    (b.parked.length < b.participants → exec (.barrierEntry c) s = .next u)
    ∧ (b.parked.length = b.participants →
        exec (.barrierEntry c) s = .next (State.releaseAll (u.setBuoy k { b with round := (b.round + 2) % 2 ^ 32, entries := [], parked := [] }) b.parked St.success 0))

/-- No SIGNAL, WAIT or entry of a command and no BIND, UNBIND or RESET lets a semaphore hold more than LIMIT units or a round more than PARTICIPANTS entries. A BIND of a full pool, an entry that completes rounds, and the units that the completion of the command signals are all among these steps. Tasks that search for a slip are left to their own rows. -/
def Obligations.BuoysStayWithinLimits : Prop :=
  ∀ (s t : State) (c : Instr) (rest : List Instr), s.buoysWf = true → s.plan.lateSeen = [] → s.pending = c :: rest →
    ((∃ n, c = .signal n ∨ c = .wait n ∨ c = .barrierEntry n ∨ c = .nop n) ∨ ∃ r, c = .buoyBind r ∨ c = .unbind r ∨ c = .buoyReset r) →
    step s = .next t → t.buoysWf = true

/-! ### Programs -/

/-- Every bit of an instruction's word is read as R254 lays it out: the fields of the word of a well-formed instruction are the instruction, in both forms and for every opcode. -/
def Obligations.InstructionWordsRoundTrip : Prop :=
  ∀ op, op < 256 →
    (∀ i : GForm, i.wf = true → gFields (gWord op i) = i ∧ InsnWord.op.get (gWord op i) = op ∧ gWord op i < 2 ^ 64)
    ∧ (∀ i : IForm, i.wf = true → iFields (iWord op i) = i ∧ InsnWord.op.get (iWord op i) = op ∧ iWord op i < 2 ^ 64)

/-- S0 reads as zero and P0 as ones, and every register file keeps its 32 vector registers and 8 predicates of 512 lanes, 32 scalars and 1,024 accumulators (R244), whatever instruction of a program a step runs, but END, and a VLD or MMA that meets damage. -/
def Obligations.RegisterFilesStayWellFormed : Prop :=
  ∀ (s t : State), s.enginesWf = true →
    (∀ c rest e, s.pending = c :: rest → Instr.laneInsn c = some e → step s = .next t → t.enginesWf = true)
    ∧ (∀ e i, (exec (.vst e i) s = .next t ∨ exec (.vstf e i) s = .next t ∨ exec (.mst e i) s = .next t) → t.enginesWf = true)
    ∧ (∀ e i v x, s.InsnAt e (gWord 0x10 i) v → semVld s i (s.engineEnv e v) s.reader (s.insnBench e v) (s.engine e).regs = .ok x → exec (.vld e i) s = .next t → t.enginesWf = true)
    ∧ (∀ e i v x, s.InsnAt e (gWord 0x49 i) v → semMma s i (s.engineEnv e v) s.reader (s.insnBench e v) (s.engine e).regs = .ok x → exec (.mma e i) s = .next t → t.enginesWf = true)

/-- The frame of the instructions that read no source and write no OUT: nothing but their engine's registers, DBUF and work changes, and of the Chart nothing but that engine's NAN_RESULTS and SR_OVERFLOWS; those that reach DBUF, and VQF, may also count accesses that wrap and form codes of NaN, and report the first clip (R40, R258). -/
def Obligations.LaneInstructionsFrame : Prop :=
  ∀ (s t : State) (c : Instr) (e : Nat), Instr.laneInsn c = some e → exec c s = .next t →
    ((∀ i, c ≠ .sldk e i ∧ c ≠ .vldd e i ∧ c ≠ .vstd e i ∧ c ≠ .vqf e i) →
      t = { s with engines := t.engines, chart := t.chart } ∧ (∀ k, k ≠ e → t.engine k = s.engine k) ∧ (t.engine e).held = (s.engine e).held
      ∧ (t.engine e).regs.out = (s.engine e).regs.out ∧ ∀ k, k ≠ Ch.nanResults + 256 * e → k ≠ Ch.srOverflows → t.ch k = s.ch k)
    ∧ ∃ (u : State) (v : Invocation) (b : Bench), u = { s with engines := u.engines } ∧ (∀ k, k ≠ e → u.engine k = s.engine k) ∧ (u.engine e).held = (s.engine e).held
      ∧ (u.engine e).regs.out = (s.engine e).regs.out ∧ t = u.benchCounts e v b

/-! ### What a receiver does not take -/

/-- A cascade message that R393 discards is counted and does nothing else; one that is not next in its sender's sequence is not taken: its ACK is used, it wakes the block, and nothing else happens (R393, R394). A frame of a Reef link that fails its check is counted, and one out of order is not taken (R333, R334). -/
def Obligations.OutOfTurnMessagesAreNotTaken : Prop :=
  ∀ (s : State) (f : Frame) (h : Nat), h = f.header.toNat →
    (∀ p ∈ [(Mk.heartbeat, Instr.heartbeat f), (Mk.buoyOp, Instr.buoyOp f), (Mk.buoyReply, Instr.buoyReply f), (Mk.data, Instr.data f), (Mk.dataDone, Instr.dataDone f),
        (Mk.epochReport, Instr.epochReport f), (Mk.digestRoot, Instr.digestRoot f), (Mk.treeRequest, Instr.treeRequest f), (Mk.treeData, Instr.treeData f),
        (Mk.chartRequest, Instr.chartRequest f), (Mk.chartReply, Instr.chartReply f), (Mk.memberNotice, Instr.memberNotice f)],
      (s.discards f = true → exec p.2 s = .next (s.countSticky Ch.msgDiscards))
      ∧ (s.discards f = false → MsgHdr.kind.get h = p.1 → MsgHdr.seq.get h ≠ ((s.peer (frameSrc f)).rxSeq + 1) % 65536 →
          exec p.2 s = .next (s.takeAck (frameSrc f) (MsgHdr.ack.get h)).wake))
    ∧ ∀ (p : Nat) (g : LinkFrame), s.moduleServes p true = true → ∀ q ∈ [(3, Instr.dataFrame p g), (4, Instr.doneFrame p g), (5, Instr.controlFrame p g)],
      (linkSound g = false → exec q.2 s = .next (s.countSticky (Ch.linkReplays + 256 * p)))
      ∧ (linkSound g = true → LinkHdr.kind.get g.header.toNat = q.1 → LinkHdr.seq.get g.header.toNat ≠ ((s.port p).rxSeq + 1) % 4096 →
          exec q.2 s = .next (s.linkAck p (LinkHdr.ack.get g.header.toNat)))

/-- The locked pages of the Chart: on a board whose strap opens them, an access of a path that is not busy is answered with a free status and changes nothing but the reply and its counters (log entry 85, the model's choice); on any other board a WRITE through the mailbox is answered NO_ENTRY and changes nothing but the slot (R11, R464). -/
def Obligations.LockedPagesAreNotDescribed : Prop :=
  ∀ (s : State) (index sub : Nat) (r : Req), 0xFF00 ≤ index →
    (Config.strapTest = true → s.slotBusy r.path = false → (r.path.isMctp && s.ch Ch.mctpEid == 0) = false → r.data.length ≤ 256 →
        (∃ (u : State) (rep : ChReply), rep.status < 8 ∧ u.mem = s.mem ∧ u.checkWords = s.checkWords ∧ u.freeCount = s.freeCount + 4 ∧ exec (.chartWrite index sub r) s = .next (u.reply 2 index sub r rep))
        ∧ ∃ (u : State) (rep : ChReply), rep.status < 8 ∧ u.mem = s.mem ∧ u.checkWords = s.checkWords ∧ u.chart = s.chart ∧ exec (.chartInfo index sub r) s = .next (u.reply 3 index sub r rep))
    ∧ (Config.strapTest = false → exec (.chartInfo index sub r) s = .next (s.chartInfo index sub r)
        ∧ ∀ k, k < 4 → r.path = .mailbox k → s.slotBusy r.path = false → r.data.length ≤ 256 →
          ∃ rep : ChReply, rep.status = Cs.noEntry ∧ exec (.chartWrite index sub r) s = .next (s.reply 2 index sub r rep))
end

