-- ==== Sys2Proof/Laws/Memory.lean ====
section
/-! SUPPORT. What the operations over memory do: the canonical form is kept, a byte written is read back, every other byte reads as before, and nothing but the memory and its check words changes. -/

namespace Sys2Proof.Machine

/-! ### Reading -/

theorem Memory.read_of_absent {m : List Host.Cell} {x : Nat} (h : ∀ c ∈ m, c.1 ≠ x) : Memory.read m x = 0 := by
  induction m with
  | nil => rfl
  | cons c m ih =>
    obtain ⟨k, b⟩ := c
    have hk : k ≠ x := h (k, b) (by simp)
    simp only [Memory.read, hk, if_false]
    exact ih (fun c hc => h c (by simp [hc]))

theorem Memory.read_append_left {m n : List Host.Cell} {x : Nat} (h : ∀ c ∈ n, c.1 ≠ x) : Memory.read (m ++ n) x = Memory.read m x := by
  induction m with
  | nil => simpa [Memory.read] using Memory.read_of_absent h
  | cons c m ih => obtain ⟨k, b⟩ := c; simp only [List.cons_append, Memory.read, ih]

theorem Memory.read_append_right {m n : List Host.Cell} {x : Nat} (h : ∀ c ∈ m, c.1 ≠ x) : Memory.read (m ++ n) x = Memory.read n x := by
  induction m with
  | nil => rfl
  | cons c m ih =>
    obtain ⟨k, b⟩ := c
    have hk : k ≠ x := h (k, b) (by simp)
    simp only [List.cons_append, Memory.read, hk, if_false]
    exact ih (fun c hc => h c (by simp [hc]))

theorem Memory.read_filter {m : List Host.Cell} {x : Nat} {p : Host.Cell → Bool} (h : ∀ b, p (x, b) = true) : Memory.read (m.filter p) x = Memory.read m x := by
  induction m with
  | nil => rfl
  | cons c m ih =>
    obtain ⟨k, b⟩ := c
    by_cases hk : k = x
    · subst hk; simp [h, Memory.read]
    · by_cases hp : p (k, b) = true <;> simp [hp, Memory.read, hk, ih]

theorem Memory.cells_keys {a : Nat} {bs : List Byte} : ∀ c ∈ Memory.cells a bs, a ≤ c.1 ∧ c.1 < a + bs.length ∧ c.2 ≠ 0 := by
  induction bs generalizing a with
  | nil => simp [Memory.cells]
  | cons b bs ih =>
    intro c hc
    simp only [Memory.cells] at hc
    by_cases hb : b = 0
    · simp only [hb, if_true] at hc
      have h := ih c hc
      rw [List.length_cons]
      exact ⟨by omega, by omega, h.2.2⟩
    · simp only [hb, if_false, List.mem_cons] at hc
      rw [List.length_cons]
      rcases hc with rfl | hc
      · exact ⟨Nat.le_refl _, by omega, hb⟩
      · have h := ih c hc
        exact ⟨by omega, by omega, h.2.2⟩

theorem Memory.read_cells {a x : Nat} {bs : List Byte} (h : a ≤ x ∧ x < a + bs.length) : Memory.read (Memory.cells a bs) x = bs.getD (x - a) 0 := by
  induction bs generalizing a with
  | nil => simp at h; omega
  | cons b bs ih =>
    by_cases hx : x = a
    · subst hx
      by_cases hb : b = 0
      · simp only [Memory.cells, hb, if_true, Nat.sub_self]
        rw [Memory.read_of_absent (fun c hc => by have := Memory.cells_keys c hc; omega)]; rfl
      · simp only [Memory.cells, hb, if_false, Memory.read, if_true, Nat.sub_self, List.getD_cons_zero]
    · have h2 : a + 1 ≤ x ∧ x < a + 1 + bs.length := by simp only [List.length_cons] at h; omega
      have e : x - a = (x - (a + 1)) + 1 := by omega
      rw [e]
      by_cases hb : b = 0
      · simp only [Memory.cells, hb, if_true, ih h2, List.getD_cons_succ]
      · have : ¬ a = x := fun h => hx h.symm
        simp only [Memory.cells, hb, if_false, Memory.read, this, ih h2, List.getD_cons_succ]

/-- A byte inside what was written is the one written; every other byte is as before. -/
theorem Memory.read_write (m : List Host.Cell) (a x : Nat) (bs : List Byte) :
    Memory.read (Memory.write m a bs) x = if a ≤ x ∧ x < a + bs.length then bs.getD (x - a) 0 else Memory.read m x := by
  unfold Memory.write
  by_cases hlo : x < a
  · rw [Memory.read_append_left, Memory.read_filter]
    · simp; omega
    · intro b; simp [hlo]
    · intro c hc
      rcases List.mem_append.mp hc with hc | hc
      · have := Memory.cells_keys c hc; omega
      · simp at hc; omega
  · rw [Memory.read_append_right (by intro c hc; simp at hc; omega)]
    by_cases hhi : a + bs.length ≤ x
    · rw [Memory.read_append_right (by intro c hc; have := Memory.cells_keys c hc; omega), Memory.read_filter (by intro b; simp [hhi])]
      simp; omega
    · rw [Memory.read_append_left (by intro c hc; simp at hc; omega), Memory.read_cells (by omega)]
      simp; omega

/-! ### The canonical form -/

theorem Memory.wf_cons {a : Nat} {b : Byte} {m : List Host.Cell} :
    Memory.wf ((a, b) :: m) = true ↔ b ≠ 0 ∧ (∀ c ∈ m, a < c.1) ∧ Memory.wf m = true := by
  simp [Memory.wf, and_assoc]

theorem Memory.wf_filter {m : List Host.Cell} (p : Host.Cell → Bool) (h : Memory.wf m = true) : Memory.wf (m.filter p) = true := by
  induction m with
  | nil => rfl
  | cons c m ih =>
    obtain ⟨k, b⟩ := c
    rw [Memory.wf_cons] at h
    by_cases hp : p (k, b) = true
    · simp only [List.filter_cons, hp, if_true]
      rw [Memory.wf_cons]
      exact ⟨h.1, fun c hc => h.2.1 c (List.mem_of_mem_filter hc), ih h.2.2⟩
    · simpa [List.filter_cons, hp] using ih h.2.2

theorem Memory.wf_append {m n : List Host.Cell} (hm : Memory.wf m = true) (hn : Memory.wf n = true) (h : ∀ c ∈ m, ∀ d ∈ n, c.1 < d.1) :
    Memory.wf (m ++ n) = true := by
  induction m with
  | nil => exact hn
  | cons c m ih =>
    obtain ⟨k, b⟩ := c
    rw [Memory.wf_cons] at hm
    rw [List.cons_append, Memory.wf_cons]
    refine ⟨hm.1, fun d hd => ?_, ih hm.2.2 (fun c hc => h c (by simp [hc]))⟩
    rcases List.mem_append.mp hd with hd | hd
    · exact hm.2.1 d hd
    · exact h (k, b) (by simp) d hd

theorem Memory.wf_cells (a : Nat) (bs : List Byte) : Memory.wf (Memory.cells a bs) = true := by
  induction bs generalizing a with
  | nil => rfl
  | cons b bs ih =>
    by_cases hb : b = 0
    · simpa [Memory.cells, hb] using ih (a + 1)
    · simp only [Memory.cells, hb, if_false]
      rw [Memory.wf_cons]
      exact ⟨hb, fun c hc => by have := Memory.cells_keys c hc; omega, ih (a + 1)⟩

/-- Every write keeps the canonical form. -/
theorem Memory.wf_write {m : List Host.Cell} (h : Memory.wf m = true) (a : Nat) (bs : List Byte) : Memory.wf (Memory.write m a bs) = true := by
  refine Memory.wf_append (Memory.wf_filter _ h) (Memory.wf_append (Memory.wf_cells a bs) (Memory.wf_filter _ h) ?_) ?_
  · intro c hc d hd
    have := Memory.cells_keys c hc
    simp at hd; omega
  · intro c hc d hd
    simp at hc
    rcases List.mem_append.mp hd with hd | hd
    · have := Memory.cells_keys d hd; omega
    · simp at hd; omega

/-! ### Stores of the state -/

theorem State.storeSector_eq (s : State) (a : Nat) (bs : List Byte) :
    ∃ m c, s.storeSector a bs = { s with mem := m, checkWords := c } ∧ (Memory.wf s.mem = true → Memory.wf m = true)
      ∧ ∀ x, ¬ (a ≤ x ∧ x < a + bs.length) → Memory.read m x = Memory.read s.mem x := by
  unfold State.storeSector
  split
  · exact ⟨_, _, rfl, fun h => Memory.wf_write h _ _, fun x hx => by rw [Memory.read_write, if_neg hx]⟩
  · split
    · exact ⟨s.mem, s.checkWords, rfl, id, fun _ _ => rfl⟩
    · exact ⟨_, s.checkWords, rfl, fun h => Memory.wf_write h _ _, fun x hx => by rw [Memory.read_write, if_neg hx]⟩

theorem State.storeSectors_eq (n : Nat) (s : State) (a : Nat) (bs : List Byte) :
    ∃ m c, State.storeSectors n s a bs = { s with mem := m, checkWords := c } ∧ (Memory.wf s.mem = true → Memory.wf m = true)
      ∧ ∀ x, ¬ (a ≤ x ∧ x < a + bs.length) → Memory.read m x = Memory.read s.mem x := by
  induction n generalizing s a bs with
  | zero => exact ⟨s.mem, s.checkWords, rfl, id, fun _ _ => rfl⟩
  | succ n ih =>
    unfold State.storeSectors
    split
    · exact ⟨s.mem, s.checkWords, rfl, id, fun _ _ => rfl⟩
    · dsimp only
      obtain ⟨m1, c1, e1, w1, r1⟩ := State.storeSector_eq s a (bs.take (256 - a % 256))
      obtain ⟨m2, c2, e2, w2, r2⟩ := ih (s.storeSector a (bs.take (256 - a % 256))) (a + (256 - a % 256)) (bs.drop (256 - a % 256))
      rw [e1] at e2 w2 r2
      refine ⟨m2, c2, by rw [e1, e2], fun h => w2 (w1 h), fun x hx => ?_⟩
      have hlt : a % 256 < 256 := Nat.mod_lt _ (by decide)
      have hlen : (bs.take (256 - a % 256)).length + (bs.drop (256 - a % 256)).length = bs.length := by
        rw [← List.length_append, List.take_append_drop]
      have htk : (bs.take (256 - a % 256)).length ≤ 256 - a % 256 := by simp
      rw [r2 x]
      · exact r1 x (by omega)
      · intro hc
        have hd : 0 < (bs.drop (256 - a % 256)).length := by omega
        have : (bs.take (256 - a % 256)).length = 256 - a % 256 := by
          simp at hd ⊢; omega
        omega

/-- All that a store can do: memory and check words change, the canonical form is kept, bytes outside what is stored read as before. -/
theorem State.store_eq (s : State) (a : Nat) (bs : List Byte) :
    ∃ m c, s.store a bs = { s with mem := m, checkWords := c } ∧ (Memory.wf s.mem = true → Memory.wf m = true)
      ∧ ∀ x, ¬ (a ≤ x ∧ x < a + bs.length) → Memory.read m x = Memory.read s.mem x := by
  unfold State.store
  split
  · exact ⟨_, s.checkWords, rfl, fun h => Memory.wf_write h _ _, fun x hx => by rw [Memory.read_write, if_neg hx]⟩
  · exact State.storeSectors_eq _ s a bs

/-- With every sector sound a store writes exactly its bytes. -/
theorem State.store_sound (s : State) (a : Nat) (bs : List Byte) (h : s.checkWords = []) : s.store a bs = { s with mem := Memory.write s.mem a bs } := by
  simp [State.store, h]

theorem State.storeChecked_eq (s : State) (a : Nat) (bs : List Byte) (w : BitVec 32) :
    ∃ m c, s.storeChecked a bs w = { s with mem := m, checkWords := c } ∧ (Memory.wf s.mem = true → Memory.wf m = true)
      ∧ ∀ x, ¬ (a ≤ x ∧ x < a + bs.length) → Memory.read m x = Memory.read s.mem x := by
  obtain ⟨m, c, e, w1, r1⟩ := State.store_eq s a bs
  unfold State.storeChecked
  dsimp only
  rw [e]
  split
  · exact ⟨m, c, rfl, w1, r1⟩
  · exact ⟨m, _, rfl, w1, r1⟩

theorem leBytes_length (n v : Nat) : (leBytes n v).length = n := by
  induction n generalizing v with
  | zero => rfl
  | succ n ih => simp [leBytes, ih]

/-- A field written changes only the bytes that hold it. -/
theorem State.setFld_eq (s : State) (base : Nat) (f : Fld) (v : Nat) :
    ∃ m c, s.setFld base f v = { s with mem := m, checkWords := c } ∧ (Memory.wf s.mem = true → Memory.wf m = true)
      ∧ ∀ x, ¬ (base + f.lo / 8 ≤ x ∧ x < base + f.lo / 8 + (f.hi / 8 + 1 - f.lo / 8)) → Memory.read m x = Memory.read s.mem x := by
  unfold State.setFld
  dsimp only
  obtain ⟨m, c, e, w, r⟩ := State.store_eq s (base + f.lo / 8)
    (leBytes (f.hi / 8 + 1 - f.lo / 8) (Fld.set ⟨f.hi - 8 * (f.lo / 8), f.lo % 8⟩ (s.rdNat (base + f.lo / 8) (f.hi / 8 + 1 - f.lo / 8)) v))
  exact ⟨m, c, e, w, by simpa only [leBytes_length] using r⟩

theorem State.setFlds_eq (s : State) (base : Nat) (fs : List (Fld × Nat)) :
    ∃ m c, s.setFlds base fs = { s with mem := m, checkWords := c } ∧ (Memory.wf s.mem = true → Memory.wf m = true) := by
  unfold State.setFlds
  induction fs generalizing s with
  | nil => exact ⟨s.mem, s.checkWords, rfl, id⟩
  | cons p fs ih =>
    obtain ⟨m1, c1, e1, w1, -⟩ := State.setFld_eq s base p.1 p.2
    obtain ⟨m2, c2, e2, w2⟩ := ih (s.setFld base p.1 p.2)
    refine ⟨m2, c2, ?_, fun h => w2 (by rw [e1]; exact w1 h)⟩
    rw [List.foldl_cons, e2, e1]

/-- The memory after reset has the canonical form. -/
theorem State.reset_mem_wf : Memory.wf State.reset.mem = true := rfl

end Sys2Proof.Machine
end

