-- ==== Sys2Proof/Laws/State.lean ====
section
/-! SUPPORT. What each plain update of the state leaves as it is: one lemma for each field it does not write. -/

namespace Sys2Proof.Machine

@[simp] theorem State.setCh_pending (s : State) (key v : Nat) : (s.setCh key v).pending = s.pending := rfl
@[simp] theorem State.setCh_mem (s : State) (key v : Nat) : (s.setCh key v).mem = s.mem := rfl
@[simp] theorem State.setCh_checkWords (s : State) (key v : Nat) : (s.setCh key v).checkWords = s.checkWords := rfl
@[simp] theorem State.setCh_entryGen (s : State) (key v : Nat) : (s.setCh key v).entryGen = s.entryGen := rfl
@[simp] theorem State.setCh_select (s : State) (key v : Nat) : (s.setCh key v).select = s.select := rfl
@[simp] theorem State.setCh_outbox (s : State) (key v : Nat) : (s.setCh key v).outbox = s.outbox := rfl
@[simp] theorem State.setCh_freeCount (s : State) (key v : Nat) : (s.setCh key v).freeCount = s.freeCount := rfl
@[simp] theorem State.setCh_clock (s : State) (key v : Nat) : (s.setCh key v).clock = s.clock := rfl
@[simp] theorem State.setCh_events (s : State) (key v : Nat) : (s.setCh key v).events = s.events := rfl
@[simp] theorem State.setCh_wakePending (s : State) (key v : Nat) : (s.setCh key v).wakePending = s.wakePending := rfl
@[simp] theorem State.setCh_contexts (s : State) (key v : Nat) : (s.setCh key v).contexts = s.contexts := rfl
@[simp] theorem State.setCh_heldAccesses (s : State) (key v : Nat) : (s.setCh key v).heldAccesses = s.heldAccesses := rfl
@[simp] theorem State.setCh_closing (s : State) (key v : Nat) : (s.setCh key v).closing = s.closing := rfl
@[simp] theorem State.setCh_dispatched (s : State) (key v : Nat) : (s.setCh key v).dispatched = s.dispatched := rfl
@[simp] theorem State.setCh_nextTag (s : State) (key v : Nat) : (s.setCh key v).nextTag = s.nextTag := rfl
@[simp] theorem State.setCh_roundRobin (s : State) (key v : Nat) : (s.setCh key v).roundRobin = s.roundRobin := rfl
@[simp] theorem State.setCh_cqWaiting (s : State) (key v : Nat) : (s.setCh key v).cqWaiting = s.cqWaiting := rfl
@[simp] theorem State.setCh_buoys (s : State) (key v : Nat) : (s.setCh key v).buoys = s.buoys := rfl
@[simp] theorem State.setCh_plan (s : State) (key v : Nat) : (s.setCh key v).plan = s.plan := rfl
@[simp] theorem State.setCh_streams (s : State) (key v : Nat) : (s.setCh key v).streams = s.streams := rfl
@[simp] theorem State.setCh_shards (s : State) (key v : Nat) : (s.setCh key v).shards = s.shards := rfl
@[simp] theorem State.setCh_ferry (s : State) (key v : Nat) : (s.setCh key v).ferry = s.ferry := rfl
@[simp] theorem State.setCh_quays (s : State) (key v : Nat) : (s.setCh key v).quays = s.quays := rfl
@[simp] theorem State.setCh_skerry (s : State) (key v : Nat) : (s.setCh key v).skerry = s.skerry := rfl
@[simp] theorem State.setCh_engines (s : State) (key v : Nat) : (s.setCh key v).engines = s.engines := rfl
@[simp] theorem State.setCh_ports (s : State) (key v : Nat) : (s.setCh key v).ports = s.ports := rfl
@[simp] theorem State.setCh_window (s : State) (key v : Nat) : (s.setCh key v).window = s.window := rfl
@[simp] theorem State.setCh_sets (s : State) (key v : Nat) : (s.setCh key v).sets = s.sets := rfl
@[simp] theorem State.setCh_comparisons (s : State) (key v : Nat) : (s.setCh key v).comparisons = s.comparisons := rfl
@[simp] theorem State.setCh_cascade (s : State) (key v : Nat) : (s.setCh key v).cascade = s.cascade := rfl
@[simp] theorem State.setCh_causeways (s : State) (key v : Nat) : (s.setCh key v).causeways = s.causeways := rfl
@[simp] theorem State.setCh_rails (s : State) (key v : Nat) : (s.setCh key v).rails = s.rails := rfl
@[simp] theorem State.setCh_microcode (s : State) (key v : Nat) : (s.setCh key v).microcode = s.microcode := rfl
@[simp] theorem State.setCh_allocs (s : State) (key v : Nat) : (s.setCh key v).allocs = s.allocs := rfl

@[simp] theorem State.out_pending (s : State) (o : Output) : (s.out o).pending = s.pending := rfl
@[simp] theorem State.out_mem (s : State) (o : Output) : (s.out o).mem = s.mem := rfl
@[simp] theorem State.out_checkWords (s : State) (o : Output) : (s.out o).checkWords = s.checkWords := rfl
@[simp] theorem State.out_chart (s : State) (o : Output) : (s.out o).chart = s.chart := rfl
@[simp] theorem State.out_entryGen (s : State) (o : Output) : (s.out o).entryGen = s.entryGen := rfl
@[simp] theorem State.out_select (s : State) (o : Output) : (s.out o).select = s.select := rfl
@[simp] theorem State.out_freeCount (s : State) (o : Output) : (s.out o).freeCount = s.freeCount := rfl
@[simp] theorem State.out_clock (s : State) (o : Output) : (s.out o).clock = s.clock := rfl
@[simp] theorem State.out_events (s : State) (o : Output) : (s.out o).events = s.events := rfl
@[simp] theorem State.out_wakePending (s : State) (o : Output) : (s.out o).wakePending = s.wakePending := rfl
@[simp] theorem State.out_contexts (s : State) (o : Output) : (s.out o).contexts = s.contexts := rfl
@[simp] theorem State.out_heldAccesses (s : State) (o : Output) : (s.out o).heldAccesses = s.heldAccesses := rfl
@[simp] theorem State.out_closing (s : State) (o : Output) : (s.out o).closing = s.closing := rfl
@[simp] theorem State.out_dispatched (s : State) (o : Output) : (s.out o).dispatched = s.dispatched := rfl
@[simp] theorem State.out_nextTag (s : State) (o : Output) : (s.out o).nextTag = s.nextTag := rfl
@[simp] theorem State.out_roundRobin (s : State) (o : Output) : (s.out o).roundRobin = s.roundRobin := rfl
@[simp] theorem State.out_cqWaiting (s : State) (o : Output) : (s.out o).cqWaiting = s.cqWaiting := rfl
@[simp] theorem State.out_buoys (s : State) (o : Output) : (s.out o).buoys = s.buoys := rfl
@[simp] theorem State.out_plan (s : State) (o : Output) : (s.out o).plan = s.plan := rfl
@[simp] theorem State.out_streams (s : State) (o : Output) : (s.out o).streams = s.streams := rfl
@[simp] theorem State.out_shards (s : State) (o : Output) : (s.out o).shards = s.shards := rfl
@[simp] theorem State.out_ferry (s : State) (o : Output) : (s.out o).ferry = s.ferry := rfl
@[simp] theorem State.out_quays (s : State) (o : Output) : (s.out o).quays = s.quays := rfl
@[simp] theorem State.out_skerry (s : State) (o : Output) : (s.out o).skerry = s.skerry := rfl
@[simp] theorem State.out_engines (s : State) (o : Output) : (s.out o).engines = s.engines := rfl
@[simp] theorem State.out_ports (s : State) (o : Output) : (s.out o).ports = s.ports := rfl
@[simp] theorem State.out_window (s : State) (o : Output) : (s.out o).window = s.window := rfl
@[simp] theorem State.out_sets (s : State) (o : Output) : (s.out o).sets = s.sets := rfl
@[simp] theorem State.out_comparisons (s : State) (o : Output) : (s.out o).comparisons = s.comparisons := rfl
@[simp] theorem State.out_cascade (s : State) (o : Output) : (s.out o).cascade = s.cascade := rfl
@[simp] theorem State.out_causeways (s : State) (o : Output) : (s.out o).causeways = s.causeways := rfl
@[simp] theorem State.out_rails (s : State) (o : Output) : (s.out o).rails = s.rails := rfl
@[simp] theorem State.out_microcode (s : State) (o : Output) : (s.out o).microcode = s.microcode := rfl
@[simp] theorem State.out_allocs (s : State) (o : Output) : (s.out o).allocs = s.allocs := rfl

@[simp] theorem State.drew_pending (s : State) (n : Nat) : (s.drew n).pending = s.pending := rfl
@[simp] theorem State.drew_mem (s : State) (n : Nat) : (s.drew n).mem = s.mem := rfl
@[simp] theorem State.drew_checkWords (s : State) (n : Nat) : (s.drew n).checkWords = s.checkWords := rfl
@[simp] theorem State.drew_chart (s : State) (n : Nat) : (s.drew n).chart = s.chart := rfl
@[simp] theorem State.drew_entryGen (s : State) (n : Nat) : (s.drew n).entryGen = s.entryGen := rfl
@[simp] theorem State.drew_select (s : State) (n : Nat) : (s.drew n).select = s.select := rfl
@[simp] theorem State.drew_outbox (s : State) (n : Nat) : (s.drew n).outbox = s.outbox := rfl
@[simp] theorem State.drew_clock (s : State) (n : Nat) : (s.drew n).clock = s.clock := rfl
@[simp] theorem State.drew_events (s : State) (n : Nat) : (s.drew n).events = s.events := rfl
@[simp] theorem State.drew_wakePending (s : State) (n : Nat) : (s.drew n).wakePending = s.wakePending := rfl
@[simp] theorem State.drew_contexts (s : State) (n : Nat) : (s.drew n).contexts = s.contexts := rfl
@[simp] theorem State.drew_heldAccesses (s : State) (n : Nat) : (s.drew n).heldAccesses = s.heldAccesses := rfl
@[simp] theorem State.drew_closing (s : State) (n : Nat) : (s.drew n).closing = s.closing := rfl
@[simp] theorem State.drew_dispatched (s : State) (n : Nat) : (s.drew n).dispatched = s.dispatched := rfl
@[simp] theorem State.drew_nextTag (s : State) (n : Nat) : (s.drew n).nextTag = s.nextTag := rfl
@[simp] theorem State.drew_roundRobin (s : State) (n : Nat) : (s.drew n).roundRobin = s.roundRobin := rfl
@[simp] theorem State.drew_cqWaiting (s : State) (n : Nat) : (s.drew n).cqWaiting = s.cqWaiting := rfl
@[simp] theorem State.drew_buoys (s : State) (n : Nat) : (s.drew n).buoys = s.buoys := rfl
@[simp] theorem State.drew_plan (s : State) (n : Nat) : (s.drew n).plan = s.plan := rfl
@[simp] theorem State.drew_streams (s : State) (n : Nat) : (s.drew n).streams = s.streams := rfl
@[simp] theorem State.drew_shards (s : State) (n : Nat) : (s.drew n).shards = s.shards := rfl
@[simp] theorem State.drew_ferry (s : State) (n : Nat) : (s.drew n).ferry = s.ferry := rfl
@[simp] theorem State.drew_quays (s : State) (n : Nat) : (s.drew n).quays = s.quays := rfl
@[simp] theorem State.drew_skerry (s : State) (n : Nat) : (s.drew n).skerry = s.skerry := rfl
@[simp] theorem State.drew_engines (s : State) (n : Nat) : (s.drew n).engines = s.engines := rfl
@[simp] theorem State.drew_ports (s : State) (n : Nat) : (s.drew n).ports = s.ports := rfl
@[simp] theorem State.drew_window (s : State) (n : Nat) : (s.drew n).window = s.window := rfl
@[simp] theorem State.drew_sets (s : State) (n : Nat) : (s.drew n).sets = s.sets := rfl
@[simp] theorem State.drew_comparisons (s : State) (n : Nat) : (s.drew n).comparisons = s.comparisons := rfl
@[simp] theorem State.drew_cascade (s : State) (n : Nat) : (s.drew n).cascade = s.cascade := rfl
@[simp] theorem State.drew_causeways (s : State) (n : Nat) : (s.drew n).causeways = s.causeways := rfl
@[simp] theorem State.drew_rails (s : State) (n : Nat) : (s.drew n).rails = s.rails := rfl
@[simp] theorem State.drew_microcode (s : State) (n : Nat) : (s.drew n).microcode = s.microcode := rfl
@[simp] theorem State.drew_allocs (s : State) (n : Nat) : (s.drew n).allocs = s.allocs := rfl

@[simp] theorem State.setBuoy_pending (s : State) (k : Nat) (b : Buoy) : (s.setBuoy k b).pending = s.pending := rfl
@[simp] theorem State.setBuoy_mem (s : State) (k : Nat) (b : Buoy) : (s.setBuoy k b).mem = s.mem := rfl
@[simp] theorem State.setBuoy_checkWords (s : State) (k : Nat) (b : Buoy) : (s.setBuoy k b).checkWords = s.checkWords := rfl
@[simp] theorem State.setBuoy_chart (s : State) (k : Nat) (b : Buoy) : (s.setBuoy k b).chart = s.chart := rfl
@[simp] theorem State.setBuoy_entryGen (s : State) (k : Nat) (b : Buoy) : (s.setBuoy k b).entryGen = s.entryGen := rfl
@[simp] theorem State.setBuoy_select (s : State) (k : Nat) (b : Buoy) : (s.setBuoy k b).select = s.select := rfl
@[simp] theorem State.setBuoy_outbox (s : State) (k : Nat) (b : Buoy) : (s.setBuoy k b).outbox = s.outbox := rfl
@[simp] theorem State.setBuoy_freeCount (s : State) (k : Nat) (b : Buoy) : (s.setBuoy k b).freeCount = s.freeCount := rfl
@[simp] theorem State.setBuoy_clock (s : State) (k : Nat) (b : Buoy) : (s.setBuoy k b).clock = s.clock := rfl
@[simp] theorem State.setBuoy_events (s : State) (k : Nat) (b : Buoy) : (s.setBuoy k b).events = s.events := rfl
@[simp] theorem State.setBuoy_wakePending (s : State) (k : Nat) (b : Buoy) : (s.setBuoy k b).wakePending = s.wakePending := rfl
@[simp] theorem State.setBuoy_contexts (s : State) (k : Nat) (b : Buoy) : (s.setBuoy k b).contexts = s.contexts := rfl
@[simp] theorem State.setBuoy_heldAccesses (s : State) (k : Nat) (b : Buoy) : (s.setBuoy k b).heldAccesses = s.heldAccesses := rfl
@[simp] theorem State.setBuoy_closing (s : State) (k : Nat) (b : Buoy) : (s.setBuoy k b).closing = s.closing := rfl
@[simp] theorem State.setBuoy_dispatched (s : State) (k : Nat) (b : Buoy) : (s.setBuoy k b).dispatched = s.dispatched := rfl
@[simp] theorem State.setBuoy_nextTag (s : State) (k : Nat) (b : Buoy) : (s.setBuoy k b).nextTag = s.nextTag := rfl
@[simp] theorem State.setBuoy_roundRobin (s : State) (k : Nat) (b : Buoy) : (s.setBuoy k b).roundRobin = s.roundRobin := rfl
@[simp] theorem State.setBuoy_cqWaiting (s : State) (k : Nat) (b : Buoy) : (s.setBuoy k b).cqWaiting = s.cqWaiting := rfl
@[simp] theorem State.setBuoy_plan (s : State) (k : Nat) (b : Buoy) : (s.setBuoy k b).plan = s.plan := rfl
@[simp] theorem State.setBuoy_streams (s : State) (k : Nat) (b : Buoy) : (s.setBuoy k b).streams = s.streams := rfl
@[simp] theorem State.setBuoy_shards (s : State) (k : Nat) (b : Buoy) : (s.setBuoy k b).shards = s.shards := rfl
@[simp] theorem State.setBuoy_ferry (s : State) (k : Nat) (b : Buoy) : (s.setBuoy k b).ferry = s.ferry := rfl
@[simp] theorem State.setBuoy_quays (s : State) (k : Nat) (b : Buoy) : (s.setBuoy k b).quays = s.quays := rfl
@[simp] theorem State.setBuoy_skerry (s : State) (k : Nat) (b : Buoy) : (s.setBuoy k b).skerry = s.skerry := rfl
@[simp] theorem State.setBuoy_engines (s : State) (k : Nat) (b : Buoy) : (s.setBuoy k b).engines = s.engines := rfl
@[simp] theorem State.setBuoy_ports (s : State) (k : Nat) (b : Buoy) : (s.setBuoy k b).ports = s.ports := rfl
@[simp] theorem State.setBuoy_window (s : State) (k : Nat) (b : Buoy) : (s.setBuoy k b).window = s.window := rfl
@[simp] theorem State.setBuoy_sets (s : State) (k : Nat) (b : Buoy) : (s.setBuoy k b).sets = s.sets := rfl
@[simp] theorem State.setBuoy_comparisons (s : State) (k : Nat) (b : Buoy) : (s.setBuoy k b).comparisons = s.comparisons := rfl
@[simp] theorem State.setBuoy_cascade (s : State) (k : Nat) (b : Buoy) : (s.setBuoy k b).cascade = s.cascade := rfl
@[simp] theorem State.setBuoy_causeways (s : State) (k : Nat) (b : Buoy) : (s.setBuoy k b).causeways = s.causeways := rfl
@[simp] theorem State.setBuoy_rails (s : State) (k : Nat) (b : Buoy) : (s.setBuoy k b).rails = s.rails := rfl
@[simp] theorem State.setBuoy_microcode (s : State) (k : Nat) (b : Buoy) : (s.setBuoy k b).microcode = s.microcode := rfl
@[simp] theorem State.setBuoy_allocs (s : State) (k : Nat) (b : Buoy) : (s.setBuoy k b).allocs = s.allocs := rfl

@[simp] theorem State.setStage_pending (s : State) (tag : Nat) (st : CmdStage) (d : Nat) : (s.setStage tag st d).pending = s.pending := rfl
@[simp] theorem State.setStage_mem (s : State) (tag : Nat) (st : CmdStage) (d : Nat) : (s.setStage tag st d).mem = s.mem := rfl
@[simp] theorem State.setStage_checkWords (s : State) (tag : Nat) (st : CmdStage) (d : Nat) : (s.setStage tag st d).checkWords = s.checkWords := rfl
@[simp] theorem State.setStage_chart (s : State) (tag : Nat) (st : CmdStage) (d : Nat) : (s.setStage tag st d).chart = s.chart := rfl
@[simp] theorem State.setStage_entryGen (s : State) (tag : Nat) (st : CmdStage) (d : Nat) : (s.setStage tag st d).entryGen = s.entryGen := rfl
@[simp] theorem State.setStage_select (s : State) (tag : Nat) (st : CmdStage) (d : Nat) : (s.setStage tag st d).select = s.select := rfl
@[simp] theorem State.setStage_outbox (s : State) (tag : Nat) (st : CmdStage) (d : Nat) : (s.setStage tag st d).outbox = s.outbox := rfl
@[simp] theorem State.setStage_freeCount (s : State) (tag : Nat) (st : CmdStage) (d : Nat) : (s.setStage tag st d).freeCount = s.freeCount := rfl
@[simp] theorem State.setStage_clock (s : State) (tag : Nat) (st : CmdStage) (d : Nat) : (s.setStage tag st d).clock = s.clock := rfl
@[simp] theorem State.setStage_events (s : State) (tag : Nat) (st : CmdStage) (d : Nat) : (s.setStage tag st d).events = s.events := rfl
@[simp] theorem State.setStage_wakePending (s : State) (tag : Nat) (st : CmdStage) (d : Nat) : (s.setStage tag st d).wakePending = s.wakePending := rfl
@[simp] theorem State.setStage_contexts (s : State) (tag : Nat) (st : CmdStage) (d : Nat) : (s.setStage tag st d).contexts = s.contexts := rfl
@[simp] theorem State.setStage_heldAccesses (s : State) (tag : Nat) (st : CmdStage) (d : Nat) : (s.setStage tag st d).heldAccesses = s.heldAccesses := rfl
@[simp] theorem State.setStage_closing (s : State) (tag : Nat) (st : CmdStage) (d : Nat) : (s.setStage tag st d).closing = s.closing := rfl
@[simp] theorem State.setStage_nextTag (s : State) (tag : Nat) (st : CmdStage) (d : Nat) : (s.setStage tag st d).nextTag = s.nextTag := rfl
@[simp] theorem State.setStage_roundRobin (s : State) (tag : Nat) (st : CmdStage) (d : Nat) : (s.setStage tag st d).roundRobin = s.roundRobin := rfl
@[simp] theorem State.setStage_cqWaiting (s : State) (tag : Nat) (st : CmdStage) (d : Nat) : (s.setStage tag st d).cqWaiting = s.cqWaiting := rfl
@[simp] theorem State.setStage_buoys (s : State) (tag : Nat) (st : CmdStage) (d : Nat) : (s.setStage tag st d).buoys = s.buoys := rfl
@[simp] theorem State.setStage_plan (s : State) (tag : Nat) (st : CmdStage) (d : Nat) : (s.setStage tag st d).plan = s.plan := rfl
@[simp] theorem State.setStage_streams (s : State) (tag : Nat) (st : CmdStage) (d : Nat) : (s.setStage tag st d).streams = s.streams := rfl
@[simp] theorem State.setStage_shards (s : State) (tag : Nat) (st : CmdStage) (d : Nat) : (s.setStage tag st d).shards = s.shards := rfl
@[simp] theorem State.setStage_ferry (s : State) (tag : Nat) (st : CmdStage) (d : Nat) : (s.setStage tag st d).ferry = s.ferry := rfl
@[simp] theorem State.setStage_quays (s : State) (tag : Nat) (st : CmdStage) (d : Nat) : (s.setStage tag st d).quays = s.quays := rfl
@[simp] theorem State.setStage_skerry (s : State) (tag : Nat) (st : CmdStage) (d : Nat) : (s.setStage tag st d).skerry = s.skerry := rfl
@[simp] theorem State.setStage_engines (s : State) (tag : Nat) (st : CmdStage) (d : Nat) : (s.setStage tag st d).engines = s.engines := rfl
@[simp] theorem State.setStage_ports (s : State) (tag : Nat) (st : CmdStage) (d : Nat) : (s.setStage tag st d).ports = s.ports := rfl
@[simp] theorem State.setStage_window (s : State) (tag : Nat) (st : CmdStage) (d : Nat) : (s.setStage tag st d).window = s.window := rfl
@[simp] theorem State.setStage_sets (s : State) (tag : Nat) (st : CmdStage) (d : Nat) : (s.setStage tag st d).sets = s.sets := rfl
@[simp] theorem State.setStage_comparisons (s : State) (tag : Nat) (st : CmdStage) (d : Nat) : (s.setStage tag st d).comparisons = s.comparisons := rfl
@[simp] theorem State.setStage_cascade (s : State) (tag : Nat) (st : CmdStage) (d : Nat) : (s.setStage tag st d).cascade = s.cascade := rfl
@[simp] theorem State.setStage_causeways (s : State) (tag : Nat) (st : CmdStage) (d : Nat) : (s.setStage tag st d).causeways = s.causeways := rfl
@[simp] theorem State.setStage_rails (s : State) (tag : Nat) (st : CmdStage) (d : Nat) : (s.setStage tag st d).rails = s.rails := rfl
@[simp] theorem State.setStage_microcode (s : State) (tag : Nat) (st : CmdStage) (d : Nat) : (s.setStage tag st d).microcode = s.microcode := rfl
@[simp] theorem State.setStage_allocs (s : State) (tag : Nat) (st : CmdStage) (d : Nat) : (s.setStage tag st d).allocs = s.allocs := rfl

@[simp] theorem State.setAux_pending (s : State) (n : Nat) (a : StreamAux) : (s.setAux n a).pending = s.pending := rfl
@[simp] theorem State.setAux_mem (s : State) (n : Nat) (a : StreamAux) : (s.setAux n a).mem = s.mem := rfl
@[simp] theorem State.setAux_checkWords (s : State) (n : Nat) (a : StreamAux) : (s.setAux n a).checkWords = s.checkWords := rfl
@[simp] theorem State.setAux_chart (s : State) (n : Nat) (a : StreamAux) : (s.setAux n a).chart = s.chart := rfl
@[simp] theorem State.setAux_entryGen (s : State) (n : Nat) (a : StreamAux) : (s.setAux n a).entryGen = s.entryGen := rfl
@[simp] theorem State.setAux_select (s : State) (n : Nat) (a : StreamAux) : (s.setAux n a).select = s.select := rfl
@[simp] theorem State.setAux_outbox (s : State) (n : Nat) (a : StreamAux) : (s.setAux n a).outbox = s.outbox := rfl
@[simp] theorem State.setAux_freeCount (s : State) (n : Nat) (a : StreamAux) : (s.setAux n a).freeCount = s.freeCount := rfl
@[simp] theorem State.setAux_clock (s : State) (n : Nat) (a : StreamAux) : (s.setAux n a).clock = s.clock := rfl
@[simp] theorem State.setAux_events (s : State) (n : Nat) (a : StreamAux) : (s.setAux n a).events = s.events := rfl
@[simp] theorem State.setAux_wakePending (s : State) (n : Nat) (a : StreamAux) : (s.setAux n a).wakePending = s.wakePending := rfl
@[simp] theorem State.setAux_contexts (s : State) (n : Nat) (a : StreamAux) : (s.setAux n a).contexts = s.contexts := rfl
@[simp] theorem State.setAux_heldAccesses (s : State) (n : Nat) (a : StreamAux) : (s.setAux n a).heldAccesses = s.heldAccesses := rfl
@[simp] theorem State.setAux_closing (s : State) (n : Nat) (a : StreamAux) : (s.setAux n a).closing = s.closing := rfl
@[simp] theorem State.setAux_dispatched (s : State) (n : Nat) (a : StreamAux) : (s.setAux n a).dispatched = s.dispatched := rfl
@[simp] theorem State.setAux_nextTag (s : State) (n : Nat) (a : StreamAux) : (s.setAux n a).nextTag = s.nextTag := rfl
@[simp] theorem State.setAux_roundRobin (s : State) (n : Nat) (a : StreamAux) : (s.setAux n a).roundRobin = s.roundRobin := rfl
@[simp] theorem State.setAux_cqWaiting (s : State) (n : Nat) (a : StreamAux) : (s.setAux n a).cqWaiting = s.cqWaiting := rfl
@[simp] theorem State.setAux_buoys (s : State) (n : Nat) (a : StreamAux) : (s.setAux n a).buoys = s.buoys := rfl
@[simp] theorem State.setAux_plan (s : State) (n : Nat) (a : StreamAux) : (s.setAux n a).plan = s.plan := rfl
@[simp] theorem State.setAux_shards (s : State) (n : Nat) (a : StreamAux) : (s.setAux n a).shards = s.shards := rfl
@[simp] theorem State.setAux_ferry (s : State) (n : Nat) (a : StreamAux) : (s.setAux n a).ferry = s.ferry := rfl
@[simp] theorem State.setAux_quays (s : State) (n : Nat) (a : StreamAux) : (s.setAux n a).quays = s.quays := rfl
@[simp] theorem State.setAux_skerry (s : State) (n : Nat) (a : StreamAux) : (s.setAux n a).skerry = s.skerry := rfl
@[simp] theorem State.setAux_engines (s : State) (n : Nat) (a : StreamAux) : (s.setAux n a).engines = s.engines := rfl
@[simp] theorem State.setAux_ports (s : State) (n : Nat) (a : StreamAux) : (s.setAux n a).ports = s.ports := rfl
@[simp] theorem State.setAux_window (s : State) (n : Nat) (a : StreamAux) : (s.setAux n a).window = s.window := rfl
@[simp] theorem State.setAux_sets (s : State) (n : Nat) (a : StreamAux) : (s.setAux n a).sets = s.sets := rfl
@[simp] theorem State.setAux_comparisons (s : State) (n : Nat) (a : StreamAux) : (s.setAux n a).comparisons = s.comparisons := rfl
@[simp] theorem State.setAux_cascade (s : State) (n : Nat) (a : StreamAux) : (s.setAux n a).cascade = s.cascade := rfl
@[simp] theorem State.setAux_causeways (s : State) (n : Nat) (a : StreamAux) : (s.setAux n a).causeways = s.causeways := rfl
@[simp] theorem State.setAux_rails (s : State) (n : Nat) (a : StreamAux) : (s.setAux n a).rails = s.rails := rfl
@[simp] theorem State.setAux_microcode (s : State) (n : Nat) (a : StreamAux) : (s.setAux n a).microcode = s.microcode := rfl
@[simp] theorem State.setAux_allocs (s : State) (n : Nat) (a : StreamAux) : (s.setAux n a).allocs = s.allocs := rfl

@[simp] theorem State.modShard_pending (s : State) (k : Nat) (f : ShardAux → ShardAux) : (s.modShard k f).pending = s.pending := rfl
@[simp] theorem State.modShard_mem (s : State) (k : Nat) (f : ShardAux → ShardAux) : (s.modShard k f).mem = s.mem := rfl
@[simp] theorem State.modShard_checkWords (s : State) (k : Nat) (f : ShardAux → ShardAux) : (s.modShard k f).checkWords = s.checkWords := rfl
@[simp] theorem State.modShard_chart (s : State) (k : Nat) (f : ShardAux → ShardAux) : (s.modShard k f).chart = s.chart := rfl
@[simp] theorem State.modShard_entryGen (s : State) (k : Nat) (f : ShardAux → ShardAux) : (s.modShard k f).entryGen = s.entryGen := rfl
@[simp] theorem State.modShard_select (s : State) (k : Nat) (f : ShardAux → ShardAux) : (s.modShard k f).select = s.select := rfl
@[simp] theorem State.modShard_outbox (s : State) (k : Nat) (f : ShardAux → ShardAux) : (s.modShard k f).outbox = s.outbox := rfl
@[simp] theorem State.modShard_freeCount (s : State) (k : Nat) (f : ShardAux → ShardAux) : (s.modShard k f).freeCount = s.freeCount := rfl
@[simp] theorem State.modShard_clock (s : State) (k : Nat) (f : ShardAux → ShardAux) : (s.modShard k f).clock = s.clock := rfl
@[simp] theorem State.modShard_events (s : State) (k : Nat) (f : ShardAux → ShardAux) : (s.modShard k f).events = s.events := rfl
@[simp] theorem State.modShard_wakePending (s : State) (k : Nat) (f : ShardAux → ShardAux) : (s.modShard k f).wakePending = s.wakePending := rfl
@[simp] theorem State.modShard_contexts (s : State) (k : Nat) (f : ShardAux → ShardAux) : (s.modShard k f).contexts = s.contexts := rfl
@[simp] theorem State.modShard_heldAccesses (s : State) (k : Nat) (f : ShardAux → ShardAux) : (s.modShard k f).heldAccesses = s.heldAccesses := rfl
@[simp] theorem State.modShard_closing (s : State) (k : Nat) (f : ShardAux → ShardAux) : (s.modShard k f).closing = s.closing := rfl
@[simp] theorem State.modShard_dispatched (s : State) (k : Nat) (f : ShardAux → ShardAux) : (s.modShard k f).dispatched = s.dispatched := rfl
@[simp] theorem State.modShard_nextTag (s : State) (k : Nat) (f : ShardAux → ShardAux) : (s.modShard k f).nextTag = s.nextTag := rfl
@[simp] theorem State.modShard_roundRobin (s : State) (k : Nat) (f : ShardAux → ShardAux) : (s.modShard k f).roundRobin = s.roundRobin := rfl
@[simp] theorem State.modShard_cqWaiting (s : State) (k : Nat) (f : ShardAux → ShardAux) : (s.modShard k f).cqWaiting = s.cqWaiting := rfl
@[simp] theorem State.modShard_buoys (s : State) (k : Nat) (f : ShardAux → ShardAux) : (s.modShard k f).buoys = s.buoys := rfl
@[simp] theorem State.modShard_plan (s : State) (k : Nat) (f : ShardAux → ShardAux) : (s.modShard k f).plan = s.plan := rfl
@[simp] theorem State.modShard_streams (s : State) (k : Nat) (f : ShardAux → ShardAux) : (s.modShard k f).streams = s.streams := rfl
@[simp] theorem State.modShard_ferry (s : State) (k : Nat) (f : ShardAux → ShardAux) : (s.modShard k f).ferry = s.ferry := rfl
@[simp] theorem State.modShard_quays (s : State) (k : Nat) (f : ShardAux → ShardAux) : (s.modShard k f).quays = s.quays := rfl
@[simp] theorem State.modShard_skerry (s : State) (k : Nat) (f : ShardAux → ShardAux) : (s.modShard k f).skerry = s.skerry := rfl
@[simp] theorem State.modShard_engines (s : State) (k : Nat) (f : ShardAux → ShardAux) : (s.modShard k f).engines = s.engines := rfl
@[simp] theorem State.modShard_ports (s : State) (k : Nat) (f : ShardAux → ShardAux) : (s.modShard k f).ports = s.ports := rfl
@[simp] theorem State.modShard_window (s : State) (k : Nat) (f : ShardAux → ShardAux) : (s.modShard k f).window = s.window := rfl
@[simp] theorem State.modShard_sets (s : State) (k : Nat) (f : ShardAux → ShardAux) : (s.modShard k f).sets = s.sets := rfl
@[simp] theorem State.modShard_comparisons (s : State) (k : Nat) (f : ShardAux → ShardAux) : (s.modShard k f).comparisons = s.comparisons := rfl
@[simp] theorem State.modShard_cascade (s : State) (k : Nat) (f : ShardAux → ShardAux) : (s.modShard k f).cascade = s.cascade := rfl
@[simp] theorem State.modShard_causeways (s : State) (k : Nat) (f : ShardAux → ShardAux) : (s.modShard k f).causeways = s.causeways := rfl
@[simp] theorem State.modShard_rails (s : State) (k : Nat) (f : ShardAux → ShardAux) : (s.modShard k f).rails = s.rails := rfl
@[simp] theorem State.modShard_microcode (s : State) (k : Nat) (f : ShardAux → ShardAux) : (s.modShard k f).microcode = s.microcode := rfl
@[simp] theorem State.modShard_allocs (s : State) (k : Nat) (f : ShardAux → ShardAux) : (s.modShard k f).allocs = s.allocs := rfl

@[simp] theorem State.modSet_pending (s : State) (k : Nat) (f : SetAux → SetAux) : (s.modSet k f).pending = s.pending := rfl
@[simp] theorem State.modSet_mem (s : State) (k : Nat) (f : SetAux → SetAux) : (s.modSet k f).mem = s.mem := rfl
@[simp] theorem State.modSet_checkWords (s : State) (k : Nat) (f : SetAux → SetAux) : (s.modSet k f).checkWords = s.checkWords := rfl
@[simp] theorem State.modSet_chart (s : State) (k : Nat) (f : SetAux → SetAux) : (s.modSet k f).chart = s.chart := rfl
@[simp] theorem State.modSet_entryGen (s : State) (k : Nat) (f : SetAux → SetAux) : (s.modSet k f).entryGen = s.entryGen := rfl
@[simp] theorem State.modSet_select (s : State) (k : Nat) (f : SetAux → SetAux) : (s.modSet k f).select = s.select := rfl
@[simp] theorem State.modSet_outbox (s : State) (k : Nat) (f : SetAux → SetAux) : (s.modSet k f).outbox = s.outbox := rfl
@[simp] theorem State.modSet_freeCount (s : State) (k : Nat) (f : SetAux → SetAux) : (s.modSet k f).freeCount = s.freeCount := rfl
@[simp] theorem State.modSet_clock (s : State) (k : Nat) (f : SetAux → SetAux) : (s.modSet k f).clock = s.clock := rfl
@[simp] theorem State.modSet_events (s : State) (k : Nat) (f : SetAux → SetAux) : (s.modSet k f).events = s.events := rfl
@[simp] theorem State.modSet_wakePending (s : State) (k : Nat) (f : SetAux → SetAux) : (s.modSet k f).wakePending = s.wakePending := rfl
@[simp] theorem State.modSet_contexts (s : State) (k : Nat) (f : SetAux → SetAux) : (s.modSet k f).contexts = s.contexts := rfl
@[simp] theorem State.modSet_heldAccesses (s : State) (k : Nat) (f : SetAux → SetAux) : (s.modSet k f).heldAccesses = s.heldAccesses := rfl
@[simp] theorem State.modSet_closing (s : State) (k : Nat) (f : SetAux → SetAux) : (s.modSet k f).closing = s.closing := rfl
@[simp] theorem State.modSet_dispatched (s : State) (k : Nat) (f : SetAux → SetAux) : (s.modSet k f).dispatched = s.dispatched := rfl
@[simp] theorem State.modSet_nextTag (s : State) (k : Nat) (f : SetAux → SetAux) : (s.modSet k f).nextTag = s.nextTag := rfl
@[simp] theorem State.modSet_roundRobin (s : State) (k : Nat) (f : SetAux → SetAux) : (s.modSet k f).roundRobin = s.roundRobin := rfl
@[simp] theorem State.modSet_cqWaiting (s : State) (k : Nat) (f : SetAux → SetAux) : (s.modSet k f).cqWaiting = s.cqWaiting := rfl
@[simp] theorem State.modSet_buoys (s : State) (k : Nat) (f : SetAux → SetAux) : (s.modSet k f).buoys = s.buoys := rfl
@[simp] theorem State.modSet_plan (s : State) (k : Nat) (f : SetAux → SetAux) : (s.modSet k f).plan = s.plan := rfl
@[simp] theorem State.modSet_streams (s : State) (k : Nat) (f : SetAux → SetAux) : (s.modSet k f).streams = s.streams := rfl
@[simp] theorem State.modSet_shards (s : State) (k : Nat) (f : SetAux → SetAux) : (s.modSet k f).shards = s.shards := rfl
@[simp] theorem State.modSet_ferry (s : State) (k : Nat) (f : SetAux → SetAux) : (s.modSet k f).ferry = s.ferry := rfl
@[simp] theorem State.modSet_quays (s : State) (k : Nat) (f : SetAux → SetAux) : (s.modSet k f).quays = s.quays := rfl
@[simp] theorem State.modSet_skerry (s : State) (k : Nat) (f : SetAux → SetAux) : (s.modSet k f).skerry = s.skerry := rfl
@[simp] theorem State.modSet_engines (s : State) (k : Nat) (f : SetAux → SetAux) : (s.modSet k f).engines = s.engines := rfl
@[simp] theorem State.modSet_ports (s : State) (k : Nat) (f : SetAux → SetAux) : (s.modSet k f).ports = s.ports := rfl
@[simp] theorem State.modSet_window (s : State) (k : Nat) (f : SetAux → SetAux) : (s.modSet k f).window = s.window := rfl
@[simp] theorem State.modSet_comparisons (s : State) (k : Nat) (f : SetAux → SetAux) : (s.modSet k f).comparisons = s.comparisons := rfl
@[simp] theorem State.modSet_cascade (s : State) (k : Nat) (f : SetAux → SetAux) : (s.modSet k f).cascade = s.cascade := rfl
@[simp] theorem State.modSet_causeways (s : State) (k : Nat) (f : SetAux → SetAux) : (s.modSet k f).causeways = s.causeways := rfl
@[simp] theorem State.modSet_rails (s : State) (k : Nat) (f : SetAux → SetAux) : (s.modSet k f).rails = s.rails := rfl
@[simp] theorem State.modSet_microcode (s : State) (k : Nat) (f : SetAux → SetAux) : (s.modSet k f).microcode = s.microcode := rfl
@[simp] theorem State.modSet_allocs (s : State) (k : Nat) (f : SetAux → SetAux) : (s.modSet k f).allocs = s.allocs := rfl

@[simp] theorem State.setEngine_pending (s : State) (e : Nat) (g : Engine) : (s.setEngine e g).pending = s.pending := rfl
@[simp] theorem State.setEngine_mem (s : State) (e : Nat) (g : Engine) : (s.setEngine e g).mem = s.mem := rfl
@[simp] theorem State.setEngine_checkWords (s : State) (e : Nat) (g : Engine) : (s.setEngine e g).checkWords = s.checkWords := rfl
@[simp] theorem State.setEngine_chart (s : State) (e : Nat) (g : Engine) : (s.setEngine e g).chart = s.chart := rfl
@[simp] theorem State.setEngine_entryGen (s : State) (e : Nat) (g : Engine) : (s.setEngine e g).entryGen = s.entryGen := rfl
@[simp] theorem State.setEngine_select (s : State) (e : Nat) (g : Engine) : (s.setEngine e g).select = s.select := rfl
@[simp] theorem State.setEngine_outbox (s : State) (e : Nat) (g : Engine) : (s.setEngine e g).outbox = s.outbox := rfl
@[simp] theorem State.setEngine_freeCount (s : State) (e : Nat) (g : Engine) : (s.setEngine e g).freeCount = s.freeCount := rfl
@[simp] theorem State.setEngine_clock (s : State) (e : Nat) (g : Engine) : (s.setEngine e g).clock = s.clock := rfl
@[simp] theorem State.setEngine_events (s : State) (e : Nat) (g : Engine) : (s.setEngine e g).events = s.events := rfl
@[simp] theorem State.setEngine_wakePending (s : State) (e : Nat) (g : Engine) : (s.setEngine e g).wakePending = s.wakePending := rfl
@[simp] theorem State.setEngine_contexts (s : State) (e : Nat) (g : Engine) : (s.setEngine e g).contexts = s.contexts := rfl
@[simp] theorem State.setEngine_heldAccesses (s : State) (e : Nat) (g : Engine) : (s.setEngine e g).heldAccesses = s.heldAccesses := rfl
@[simp] theorem State.setEngine_closing (s : State) (e : Nat) (g : Engine) : (s.setEngine e g).closing = s.closing := rfl
@[simp] theorem State.setEngine_dispatched (s : State) (e : Nat) (g : Engine) : (s.setEngine e g).dispatched = s.dispatched := rfl
@[simp] theorem State.setEngine_nextTag (s : State) (e : Nat) (g : Engine) : (s.setEngine e g).nextTag = s.nextTag := rfl
@[simp] theorem State.setEngine_roundRobin (s : State) (e : Nat) (g : Engine) : (s.setEngine e g).roundRobin = s.roundRobin := rfl
@[simp] theorem State.setEngine_cqWaiting (s : State) (e : Nat) (g : Engine) : (s.setEngine e g).cqWaiting = s.cqWaiting := rfl
@[simp] theorem State.setEngine_buoys (s : State) (e : Nat) (g : Engine) : (s.setEngine e g).buoys = s.buoys := rfl
@[simp] theorem State.setEngine_plan (s : State) (e : Nat) (g : Engine) : (s.setEngine e g).plan = s.plan := rfl
@[simp] theorem State.setEngine_streams (s : State) (e : Nat) (g : Engine) : (s.setEngine e g).streams = s.streams := rfl
@[simp] theorem State.setEngine_shards (s : State) (e : Nat) (g : Engine) : (s.setEngine e g).shards = s.shards := rfl
@[simp] theorem State.setEngine_ferry (s : State) (e : Nat) (g : Engine) : (s.setEngine e g).ferry = s.ferry := rfl
@[simp] theorem State.setEngine_quays (s : State) (e : Nat) (g : Engine) : (s.setEngine e g).quays = s.quays := rfl
@[simp] theorem State.setEngine_skerry (s : State) (e : Nat) (g : Engine) : (s.setEngine e g).skerry = s.skerry := rfl
@[simp] theorem State.setEngine_ports (s : State) (e : Nat) (g : Engine) : (s.setEngine e g).ports = s.ports := rfl
@[simp] theorem State.setEngine_window (s : State) (e : Nat) (g : Engine) : (s.setEngine e g).window = s.window := rfl
@[simp] theorem State.setEngine_sets (s : State) (e : Nat) (g : Engine) : (s.setEngine e g).sets = s.sets := rfl
@[simp] theorem State.setEngine_comparisons (s : State) (e : Nat) (g : Engine) : (s.setEngine e g).comparisons = s.comparisons := rfl
@[simp] theorem State.setEngine_cascade (s : State) (e : Nat) (g : Engine) : (s.setEngine e g).cascade = s.cascade := rfl
@[simp] theorem State.setEngine_causeways (s : State) (e : Nat) (g : Engine) : (s.setEngine e g).causeways = s.causeways := rfl
@[simp] theorem State.setEngine_rails (s : State) (e : Nat) (g : Engine) : (s.setEngine e g).rails = s.rails := rfl
@[simp] theorem State.setEngine_microcode (s : State) (e : Nat) (g : Engine) : (s.setEngine e g).microcode = s.microcode := rfl
@[simp] theorem State.setEngine_allocs (s : State) (e : Nat) (g : Engine) : (s.setEngine e g).allocs = s.allocs := rfl

@[simp] theorem State.modQuay_pending (s : State) (d : Nat) (f : Quay → Quay) : (s.modQuay d f).pending = s.pending := rfl
@[simp] theorem State.modQuay_mem (s : State) (d : Nat) (f : Quay → Quay) : (s.modQuay d f).mem = s.mem := rfl
@[simp] theorem State.modQuay_checkWords (s : State) (d : Nat) (f : Quay → Quay) : (s.modQuay d f).checkWords = s.checkWords := rfl
@[simp] theorem State.modQuay_chart (s : State) (d : Nat) (f : Quay → Quay) : (s.modQuay d f).chart = s.chart := rfl
@[simp] theorem State.modQuay_entryGen (s : State) (d : Nat) (f : Quay → Quay) : (s.modQuay d f).entryGen = s.entryGen := rfl
@[simp] theorem State.modQuay_select (s : State) (d : Nat) (f : Quay → Quay) : (s.modQuay d f).select = s.select := rfl
@[simp] theorem State.modQuay_outbox (s : State) (d : Nat) (f : Quay → Quay) : (s.modQuay d f).outbox = s.outbox := rfl
@[simp] theorem State.modQuay_freeCount (s : State) (d : Nat) (f : Quay → Quay) : (s.modQuay d f).freeCount = s.freeCount := rfl
@[simp] theorem State.modQuay_clock (s : State) (d : Nat) (f : Quay → Quay) : (s.modQuay d f).clock = s.clock := rfl
@[simp] theorem State.modQuay_events (s : State) (d : Nat) (f : Quay → Quay) : (s.modQuay d f).events = s.events := rfl
@[simp] theorem State.modQuay_wakePending (s : State) (d : Nat) (f : Quay → Quay) : (s.modQuay d f).wakePending = s.wakePending := rfl
@[simp] theorem State.modQuay_contexts (s : State) (d : Nat) (f : Quay → Quay) : (s.modQuay d f).contexts = s.contexts := rfl
@[simp] theorem State.modQuay_heldAccesses (s : State) (d : Nat) (f : Quay → Quay) : (s.modQuay d f).heldAccesses = s.heldAccesses := rfl
@[simp] theorem State.modQuay_closing (s : State) (d : Nat) (f : Quay → Quay) : (s.modQuay d f).closing = s.closing := rfl
@[simp] theorem State.modQuay_dispatched (s : State) (d : Nat) (f : Quay → Quay) : (s.modQuay d f).dispatched = s.dispatched := rfl
@[simp] theorem State.modQuay_nextTag (s : State) (d : Nat) (f : Quay → Quay) : (s.modQuay d f).nextTag = s.nextTag := rfl
@[simp] theorem State.modQuay_roundRobin (s : State) (d : Nat) (f : Quay → Quay) : (s.modQuay d f).roundRobin = s.roundRobin := rfl
@[simp] theorem State.modQuay_cqWaiting (s : State) (d : Nat) (f : Quay → Quay) : (s.modQuay d f).cqWaiting = s.cqWaiting := rfl
@[simp] theorem State.modQuay_buoys (s : State) (d : Nat) (f : Quay → Quay) : (s.modQuay d f).buoys = s.buoys := rfl
@[simp] theorem State.modQuay_plan (s : State) (d : Nat) (f : Quay → Quay) : (s.modQuay d f).plan = s.plan := rfl
@[simp] theorem State.modQuay_streams (s : State) (d : Nat) (f : Quay → Quay) : (s.modQuay d f).streams = s.streams := rfl
@[simp] theorem State.modQuay_shards (s : State) (d : Nat) (f : Quay → Quay) : (s.modQuay d f).shards = s.shards := rfl
@[simp] theorem State.modQuay_ferry (s : State) (d : Nat) (f : Quay → Quay) : (s.modQuay d f).ferry = s.ferry := rfl
@[simp] theorem State.modQuay_skerry (s : State) (d : Nat) (f : Quay → Quay) : (s.modQuay d f).skerry = s.skerry := rfl
@[simp] theorem State.modQuay_engines (s : State) (d : Nat) (f : Quay → Quay) : (s.modQuay d f).engines = s.engines := rfl
@[simp] theorem State.modQuay_ports (s : State) (d : Nat) (f : Quay → Quay) : (s.modQuay d f).ports = s.ports := rfl
@[simp] theorem State.modQuay_window (s : State) (d : Nat) (f : Quay → Quay) : (s.modQuay d f).window = s.window := rfl
@[simp] theorem State.modQuay_sets (s : State) (d : Nat) (f : Quay → Quay) : (s.modQuay d f).sets = s.sets := rfl
@[simp] theorem State.modQuay_comparisons (s : State) (d : Nat) (f : Quay → Quay) : (s.modQuay d f).comparisons = s.comparisons := rfl
@[simp] theorem State.modQuay_cascade (s : State) (d : Nat) (f : Quay → Quay) : (s.modQuay d f).cascade = s.cascade := rfl
@[simp] theorem State.modQuay_causeways (s : State) (d : Nat) (f : Quay → Quay) : (s.modQuay d f).causeways = s.causeways := rfl
@[simp] theorem State.modQuay_rails (s : State) (d : Nat) (f : Quay → Quay) : (s.modQuay d f).rails = s.rails := rfl
@[simp] theorem State.modQuay_microcode (s : State) (d : Nat) (f : Quay → Quay) : (s.modQuay d f).microcode = s.microcode := rfl
@[simp] theorem State.modQuay_allocs (s : State) (d : Nat) (f : Quay → Quay) : (s.modQuay d f).allocs = s.allocs := rfl

@[simp] theorem State.modPort_pending (s : State) (p : Nat) (f : Port → Port) : (s.modPort p f).pending = s.pending := by unfold State.modPort; dsimp only; split <;> rfl
@[simp] theorem State.modPort_mem (s : State) (p : Nat) (f : Port → Port) : (s.modPort p f).mem = s.mem := by unfold State.modPort; dsimp only; split <;> rfl
@[simp] theorem State.modPort_checkWords (s : State) (p : Nat) (f : Port → Port) : (s.modPort p f).checkWords = s.checkWords := by unfold State.modPort; dsimp only; split <;> rfl
@[simp] theorem State.modPort_chart (s : State) (p : Nat) (f : Port → Port) : (s.modPort p f).chart = s.chart := by unfold State.modPort; dsimp only; split <;> rfl
@[simp] theorem State.modPort_select (s : State) (p : Nat) (f : Port → Port) : (s.modPort p f).select = s.select := by unfold State.modPort; dsimp only; split <;> rfl
@[simp] theorem State.modPort_outbox (s : State) (p : Nat) (f : Port → Port) : (s.modPort p f).outbox = s.outbox := by unfold State.modPort; dsimp only; split <;> rfl
@[simp] theorem State.modPort_freeCount (s : State) (p : Nat) (f : Port → Port) : (s.modPort p f).freeCount = s.freeCount := by unfold State.modPort; dsimp only; split <;> rfl
@[simp] theorem State.modPort_clock (s : State) (p : Nat) (f : Port → Port) : (s.modPort p f).clock = s.clock := by unfold State.modPort; dsimp only; split <;> rfl
@[simp] theorem State.modPort_events (s : State) (p : Nat) (f : Port → Port) : (s.modPort p f).events = s.events := by unfold State.modPort; dsimp only; split <;> rfl
@[simp] theorem State.modPort_wakePending (s : State) (p : Nat) (f : Port → Port) : (s.modPort p f).wakePending = s.wakePending := by unfold State.modPort; dsimp only; split <;> rfl
@[simp] theorem State.modPort_contexts (s : State) (p : Nat) (f : Port → Port) : (s.modPort p f).contexts = s.contexts := by unfold State.modPort; dsimp only; split <;> rfl
@[simp] theorem State.modPort_heldAccesses (s : State) (p : Nat) (f : Port → Port) : (s.modPort p f).heldAccesses = s.heldAccesses := by unfold State.modPort; dsimp only; split <;> rfl
@[simp] theorem State.modPort_closing (s : State) (p : Nat) (f : Port → Port) : (s.modPort p f).closing = s.closing := by unfold State.modPort; dsimp only; split <;> rfl
@[simp] theorem State.modPort_dispatched (s : State) (p : Nat) (f : Port → Port) : (s.modPort p f).dispatched = s.dispatched := by unfold State.modPort; dsimp only; split <;> rfl
@[simp] theorem State.modPort_nextTag (s : State) (p : Nat) (f : Port → Port) : (s.modPort p f).nextTag = s.nextTag := by unfold State.modPort; dsimp only; split <;> rfl
@[simp] theorem State.modPort_roundRobin (s : State) (p : Nat) (f : Port → Port) : (s.modPort p f).roundRobin = s.roundRobin := by unfold State.modPort; dsimp only; split <;> rfl
@[simp] theorem State.modPort_cqWaiting (s : State) (p : Nat) (f : Port → Port) : (s.modPort p f).cqWaiting = s.cqWaiting := by unfold State.modPort; dsimp only; split <;> rfl
@[simp] theorem State.modPort_buoys (s : State) (p : Nat) (f : Port → Port) : (s.modPort p f).buoys = s.buoys := by unfold State.modPort; dsimp only; split <;> rfl
@[simp] theorem State.modPort_plan (s : State) (p : Nat) (f : Port → Port) : (s.modPort p f).plan = s.plan := by unfold State.modPort; dsimp only; split <;> rfl
@[simp] theorem State.modPort_streams (s : State) (p : Nat) (f : Port → Port) : (s.modPort p f).streams = s.streams := by unfold State.modPort; dsimp only; split <;> rfl
@[simp] theorem State.modPort_shards (s : State) (p : Nat) (f : Port → Port) : (s.modPort p f).shards = s.shards := by unfold State.modPort; dsimp only; split <;> rfl
@[simp] theorem State.modPort_ferry (s : State) (p : Nat) (f : Port → Port) : (s.modPort p f).ferry = s.ferry := by unfold State.modPort; dsimp only; split <;> rfl
@[simp] theorem State.modPort_quays (s : State) (p : Nat) (f : Port → Port) : (s.modPort p f).quays = s.quays := by unfold State.modPort; dsimp only; split <;> rfl
@[simp] theorem State.modPort_skerry (s : State) (p : Nat) (f : Port → Port) : (s.modPort p f).skerry = s.skerry := by unfold State.modPort; dsimp only; split <;> rfl
@[simp] theorem State.modPort_engines (s : State) (p : Nat) (f : Port → Port) : (s.modPort p f).engines = s.engines := by unfold State.modPort; dsimp only; split <;> rfl
@[simp] theorem State.modPort_window (s : State) (p : Nat) (f : Port → Port) : (s.modPort p f).window = s.window := by unfold State.modPort; dsimp only; split <;> rfl
@[simp] theorem State.modPort_sets (s : State) (p : Nat) (f : Port → Port) : (s.modPort p f).sets = s.sets := by unfold State.modPort; dsimp only; split <;> rfl
@[simp] theorem State.modPort_comparisons (s : State) (p : Nat) (f : Port → Port) : (s.modPort p f).comparisons = s.comparisons := by unfold State.modPort; dsimp only; split <;> rfl
@[simp] theorem State.modPort_cascade (s : State) (p : Nat) (f : Port → Port) : (s.modPort p f).cascade = s.cascade := by unfold State.modPort; dsimp only; split <;> rfl
@[simp] theorem State.modPort_causeways (s : State) (p : Nat) (f : Port → Port) : (s.modPort p f).causeways = s.causeways := by unfold State.modPort; dsimp only; split <;> rfl
@[simp] theorem State.modPort_rails (s : State) (p : Nat) (f : Port → Port) : (s.modPort p f).rails = s.rails := by unfold State.modPort; dsimp only; split <;> rfl
@[simp] theorem State.modPort_microcode (s : State) (p : Nat) (f : Port → Port) : (s.modPort p f).microcode = s.microcode := by unfold State.modPort; dsimp only; split <;> rfl
@[simp] theorem State.modPort_allocs (s : State) (p : Nat) (f : Port → Port) : (s.modPort p f).allocs = s.allocs := by unfold State.modPort; dsimp only; split <;> rfl

@[simp] theorem State.modContext_pending (s : State) (c : Nat) (f : Context → Context) : (s.modContext c f).pending = s.pending := rfl
@[simp] theorem State.modContext_mem (s : State) (c : Nat) (f : Context → Context) : (s.modContext c f).mem = s.mem := rfl
@[simp] theorem State.modContext_checkWords (s : State) (c : Nat) (f : Context → Context) : (s.modContext c f).checkWords = s.checkWords := rfl
@[simp] theorem State.modContext_chart (s : State) (c : Nat) (f : Context → Context) : (s.modContext c f).chart = s.chart := rfl
@[simp] theorem State.modContext_entryGen (s : State) (c : Nat) (f : Context → Context) : (s.modContext c f).entryGen = s.entryGen := rfl
@[simp] theorem State.modContext_select (s : State) (c : Nat) (f : Context → Context) : (s.modContext c f).select = s.select := rfl
@[simp] theorem State.modContext_outbox (s : State) (c : Nat) (f : Context → Context) : (s.modContext c f).outbox = s.outbox := rfl
@[simp] theorem State.modContext_freeCount (s : State) (c : Nat) (f : Context → Context) : (s.modContext c f).freeCount = s.freeCount := rfl
@[simp] theorem State.modContext_clock (s : State) (c : Nat) (f : Context → Context) : (s.modContext c f).clock = s.clock := rfl
@[simp] theorem State.modContext_events (s : State) (c : Nat) (f : Context → Context) : (s.modContext c f).events = s.events := rfl
@[simp] theorem State.modContext_wakePending (s : State) (c : Nat) (f : Context → Context) : (s.modContext c f).wakePending = s.wakePending := rfl
@[simp] theorem State.modContext_heldAccesses (s : State) (c : Nat) (f : Context → Context) : (s.modContext c f).heldAccesses = s.heldAccesses := rfl
@[simp] theorem State.modContext_closing (s : State) (c : Nat) (f : Context → Context) : (s.modContext c f).closing = s.closing := rfl
@[simp] theorem State.modContext_dispatched (s : State) (c : Nat) (f : Context → Context) : (s.modContext c f).dispatched = s.dispatched := rfl
@[simp] theorem State.modContext_nextTag (s : State) (c : Nat) (f : Context → Context) : (s.modContext c f).nextTag = s.nextTag := rfl
@[simp] theorem State.modContext_roundRobin (s : State) (c : Nat) (f : Context → Context) : (s.modContext c f).roundRobin = s.roundRobin := rfl
@[simp] theorem State.modContext_cqWaiting (s : State) (c : Nat) (f : Context → Context) : (s.modContext c f).cqWaiting = s.cqWaiting := rfl
@[simp] theorem State.modContext_buoys (s : State) (c : Nat) (f : Context → Context) : (s.modContext c f).buoys = s.buoys := rfl
@[simp] theorem State.modContext_plan (s : State) (c : Nat) (f : Context → Context) : (s.modContext c f).plan = s.plan := rfl
@[simp] theorem State.modContext_streams (s : State) (c : Nat) (f : Context → Context) : (s.modContext c f).streams = s.streams := rfl
@[simp] theorem State.modContext_shards (s : State) (c : Nat) (f : Context → Context) : (s.modContext c f).shards = s.shards := rfl
@[simp] theorem State.modContext_ferry (s : State) (c : Nat) (f : Context → Context) : (s.modContext c f).ferry = s.ferry := rfl
@[simp] theorem State.modContext_quays (s : State) (c : Nat) (f : Context → Context) : (s.modContext c f).quays = s.quays := rfl
@[simp] theorem State.modContext_skerry (s : State) (c : Nat) (f : Context → Context) : (s.modContext c f).skerry = s.skerry := rfl
@[simp] theorem State.modContext_engines (s : State) (c : Nat) (f : Context → Context) : (s.modContext c f).engines = s.engines := rfl
@[simp] theorem State.modContext_ports (s : State) (c : Nat) (f : Context → Context) : (s.modContext c f).ports = s.ports := rfl
@[simp] theorem State.modContext_window (s : State) (c : Nat) (f : Context → Context) : (s.modContext c f).window = s.window := rfl
@[simp] theorem State.modContext_sets (s : State) (c : Nat) (f : Context → Context) : (s.modContext c f).sets = s.sets := rfl
@[simp] theorem State.modContext_comparisons (s : State) (c : Nat) (f : Context → Context) : (s.modContext c f).comparisons = s.comparisons := rfl
@[simp] theorem State.modContext_cascade (s : State) (c : Nat) (f : Context → Context) : (s.modContext c f).cascade = s.cascade := rfl
@[simp] theorem State.modContext_causeways (s : State) (c : Nat) (f : Context → Context) : (s.modContext c f).causeways = s.causeways := rfl
@[simp] theorem State.modContext_rails (s : State) (c : Nat) (f : Context → Context) : (s.modContext c f).rails = s.rails := rfl
@[simp] theorem State.modContext_microcode (s : State) (c : Nat) (f : Context → Context) : (s.modContext c f).microcode = s.microcode := rfl
@[simp] theorem State.modContext_allocs (s : State) (c : Nat) (f : Context → Context) : (s.modContext c f).allocs = s.allocs := rfl

@[simp] theorem State.modCauseway_pending (s : State) (d : Nat) (f : Causeway → Causeway) : (s.modCauseway d f).pending = s.pending := rfl
@[simp] theorem State.modCauseway_mem (s : State) (d : Nat) (f : Causeway → Causeway) : (s.modCauseway d f).mem = s.mem := rfl
@[simp] theorem State.modCauseway_checkWords (s : State) (d : Nat) (f : Causeway → Causeway) : (s.modCauseway d f).checkWords = s.checkWords := rfl
@[simp] theorem State.modCauseway_chart (s : State) (d : Nat) (f : Causeway → Causeway) : (s.modCauseway d f).chart = s.chart := rfl
@[simp] theorem State.modCauseway_entryGen (s : State) (d : Nat) (f : Causeway → Causeway) : (s.modCauseway d f).entryGen = s.entryGen := rfl
@[simp] theorem State.modCauseway_select (s : State) (d : Nat) (f : Causeway → Causeway) : (s.modCauseway d f).select = s.select := rfl
@[simp] theorem State.modCauseway_outbox (s : State) (d : Nat) (f : Causeway → Causeway) : (s.modCauseway d f).outbox = s.outbox := rfl
@[simp] theorem State.modCauseway_freeCount (s : State) (d : Nat) (f : Causeway → Causeway) : (s.modCauseway d f).freeCount = s.freeCount := rfl
@[simp] theorem State.modCauseway_clock (s : State) (d : Nat) (f : Causeway → Causeway) : (s.modCauseway d f).clock = s.clock := rfl
@[simp] theorem State.modCauseway_events (s : State) (d : Nat) (f : Causeway → Causeway) : (s.modCauseway d f).events = s.events := rfl
@[simp] theorem State.modCauseway_wakePending (s : State) (d : Nat) (f : Causeway → Causeway) : (s.modCauseway d f).wakePending = s.wakePending := rfl
@[simp] theorem State.modCauseway_contexts (s : State) (d : Nat) (f : Causeway → Causeway) : (s.modCauseway d f).contexts = s.contexts := rfl
@[simp] theorem State.modCauseway_heldAccesses (s : State) (d : Nat) (f : Causeway → Causeway) : (s.modCauseway d f).heldAccesses = s.heldAccesses := rfl
@[simp] theorem State.modCauseway_closing (s : State) (d : Nat) (f : Causeway → Causeway) : (s.modCauseway d f).closing = s.closing := rfl
@[simp] theorem State.modCauseway_dispatched (s : State) (d : Nat) (f : Causeway → Causeway) : (s.modCauseway d f).dispatched = s.dispatched := rfl
@[simp] theorem State.modCauseway_nextTag (s : State) (d : Nat) (f : Causeway → Causeway) : (s.modCauseway d f).nextTag = s.nextTag := rfl
@[simp] theorem State.modCauseway_roundRobin (s : State) (d : Nat) (f : Causeway → Causeway) : (s.modCauseway d f).roundRobin = s.roundRobin := rfl
@[simp] theorem State.modCauseway_cqWaiting (s : State) (d : Nat) (f : Causeway → Causeway) : (s.modCauseway d f).cqWaiting = s.cqWaiting := rfl
@[simp] theorem State.modCauseway_buoys (s : State) (d : Nat) (f : Causeway → Causeway) : (s.modCauseway d f).buoys = s.buoys := rfl
@[simp] theorem State.modCauseway_plan (s : State) (d : Nat) (f : Causeway → Causeway) : (s.modCauseway d f).plan = s.plan := rfl
@[simp] theorem State.modCauseway_streams (s : State) (d : Nat) (f : Causeway → Causeway) : (s.modCauseway d f).streams = s.streams := rfl
@[simp] theorem State.modCauseway_shards (s : State) (d : Nat) (f : Causeway → Causeway) : (s.modCauseway d f).shards = s.shards := rfl
@[simp] theorem State.modCauseway_ferry (s : State) (d : Nat) (f : Causeway → Causeway) : (s.modCauseway d f).ferry = s.ferry := rfl
@[simp] theorem State.modCauseway_quays (s : State) (d : Nat) (f : Causeway → Causeway) : (s.modCauseway d f).quays = s.quays := rfl
@[simp] theorem State.modCauseway_skerry (s : State) (d : Nat) (f : Causeway → Causeway) : (s.modCauseway d f).skerry = s.skerry := rfl
@[simp] theorem State.modCauseway_engines (s : State) (d : Nat) (f : Causeway → Causeway) : (s.modCauseway d f).engines = s.engines := rfl
@[simp] theorem State.modCauseway_ports (s : State) (d : Nat) (f : Causeway → Causeway) : (s.modCauseway d f).ports = s.ports := rfl
@[simp] theorem State.modCauseway_window (s : State) (d : Nat) (f : Causeway → Causeway) : (s.modCauseway d f).window = s.window := rfl
@[simp] theorem State.modCauseway_sets (s : State) (d : Nat) (f : Causeway → Causeway) : (s.modCauseway d f).sets = s.sets := rfl
@[simp] theorem State.modCauseway_comparisons (s : State) (d : Nat) (f : Causeway → Causeway) : (s.modCauseway d f).comparisons = s.comparisons := rfl
@[simp] theorem State.modCauseway_cascade (s : State) (d : Nat) (f : Causeway → Causeway) : (s.modCauseway d f).cascade = s.cascade := rfl
@[simp] theorem State.modCauseway_rails (s : State) (d : Nat) (f : Causeway → Causeway) : (s.modCauseway d f).rails = s.rails := rfl
@[simp] theorem State.modCauseway_microcode (s : State) (d : Nat) (f : Causeway → Causeway) : (s.modCauseway d f).microcode = s.microcode := rfl
@[simp] theorem State.modCauseway_allocs (s : State) (d : Nat) (f : Causeway → Causeway) : (s.modCauseway d f).allocs = s.allocs := rfl

@[simp] theorem State.setPeer_pending (s : State) (p : Nat) (q : Peer) : (s.setPeer p q).pending = s.pending := rfl
@[simp] theorem State.setPeer_mem (s : State) (p : Nat) (q : Peer) : (s.setPeer p q).mem = s.mem := rfl
@[simp] theorem State.setPeer_checkWords (s : State) (p : Nat) (q : Peer) : (s.setPeer p q).checkWords = s.checkWords := rfl
@[simp] theorem State.setPeer_chart (s : State) (p : Nat) (q : Peer) : (s.setPeer p q).chart = s.chart := rfl
@[simp] theorem State.setPeer_entryGen (s : State) (p : Nat) (q : Peer) : (s.setPeer p q).entryGen = s.entryGen := rfl
@[simp] theorem State.setPeer_select (s : State) (p : Nat) (q : Peer) : (s.setPeer p q).select = s.select := rfl
@[simp] theorem State.setPeer_outbox (s : State) (p : Nat) (q : Peer) : (s.setPeer p q).outbox = s.outbox := rfl
@[simp] theorem State.setPeer_freeCount (s : State) (p : Nat) (q : Peer) : (s.setPeer p q).freeCount = s.freeCount := rfl
@[simp] theorem State.setPeer_clock (s : State) (p : Nat) (q : Peer) : (s.setPeer p q).clock = s.clock := rfl
@[simp] theorem State.setPeer_events (s : State) (p : Nat) (q : Peer) : (s.setPeer p q).events = s.events := rfl
@[simp] theorem State.setPeer_wakePending (s : State) (p : Nat) (q : Peer) : (s.setPeer p q).wakePending = s.wakePending := rfl
@[simp] theorem State.setPeer_contexts (s : State) (p : Nat) (q : Peer) : (s.setPeer p q).contexts = s.contexts := rfl
@[simp] theorem State.setPeer_heldAccesses (s : State) (p : Nat) (q : Peer) : (s.setPeer p q).heldAccesses = s.heldAccesses := rfl
@[simp] theorem State.setPeer_closing (s : State) (p : Nat) (q : Peer) : (s.setPeer p q).closing = s.closing := rfl
@[simp] theorem State.setPeer_dispatched (s : State) (p : Nat) (q : Peer) : (s.setPeer p q).dispatched = s.dispatched := rfl
@[simp] theorem State.setPeer_nextTag (s : State) (p : Nat) (q : Peer) : (s.setPeer p q).nextTag = s.nextTag := rfl
@[simp] theorem State.setPeer_roundRobin (s : State) (p : Nat) (q : Peer) : (s.setPeer p q).roundRobin = s.roundRobin := rfl
@[simp] theorem State.setPeer_cqWaiting (s : State) (p : Nat) (q : Peer) : (s.setPeer p q).cqWaiting = s.cqWaiting := rfl
@[simp] theorem State.setPeer_buoys (s : State) (p : Nat) (q : Peer) : (s.setPeer p q).buoys = s.buoys := rfl
@[simp] theorem State.setPeer_plan (s : State) (p : Nat) (q : Peer) : (s.setPeer p q).plan = s.plan := rfl
@[simp] theorem State.setPeer_streams (s : State) (p : Nat) (q : Peer) : (s.setPeer p q).streams = s.streams := rfl
@[simp] theorem State.setPeer_shards (s : State) (p : Nat) (q : Peer) : (s.setPeer p q).shards = s.shards := rfl
@[simp] theorem State.setPeer_ferry (s : State) (p : Nat) (q : Peer) : (s.setPeer p q).ferry = s.ferry := rfl
@[simp] theorem State.setPeer_quays (s : State) (p : Nat) (q : Peer) : (s.setPeer p q).quays = s.quays := rfl
@[simp] theorem State.setPeer_skerry (s : State) (p : Nat) (q : Peer) : (s.setPeer p q).skerry = s.skerry := rfl
@[simp] theorem State.setPeer_engines (s : State) (p : Nat) (q : Peer) : (s.setPeer p q).engines = s.engines := rfl
@[simp] theorem State.setPeer_ports (s : State) (p : Nat) (q : Peer) : (s.setPeer p q).ports = s.ports := rfl
@[simp] theorem State.setPeer_window (s : State) (p : Nat) (q : Peer) : (s.setPeer p q).window = s.window := rfl
@[simp] theorem State.setPeer_sets (s : State) (p : Nat) (q : Peer) : (s.setPeer p q).sets = s.sets := rfl
@[simp] theorem State.setPeer_comparisons (s : State) (p : Nat) (q : Peer) : (s.setPeer p q).comparisons = s.comparisons := rfl
@[simp] theorem State.setPeer_causeways (s : State) (p : Nat) (q : Peer) : (s.setPeer p q).causeways = s.causeways := rfl
@[simp] theorem State.setPeer_rails (s : State) (p : Nat) (q : Peer) : (s.setPeer p q).rails = s.rails := rfl
@[simp] theorem State.setPeer_microcode (s : State) (p : Nat) (q : Peer) : (s.setPeer p q).microcode = s.microcode := rfl
@[simp] theorem State.setPeer_allocs (s : State) (p : Nat) (q : Peer) : (s.setPeer p q).allocs = s.allocs := rfl

@[simp] theorem State.setSelected_pending (s : State) (p : Path) (key v : Nat) : (s.setSelected p key v).pending = s.pending := rfl
@[simp] theorem State.setSelected_mem (s : State) (p : Path) (key v : Nat) : (s.setSelected p key v).mem = s.mem := rfl
@[simp] theorem State.setSelected_checkWords (s : State) (p : Path) (key v : Nat) : (s.setSelected p key v).checkWords = s.checkWords := rfl
@[simp] theorem State.setSelected_chart (s : State) (p : Path) (key v : Nat) : (s.setSelected p key v).chart = s.chart := rfl
@[simp] theorem State.setSelected_entryGen (s : State) (p : Path) (key v : Nat) : (s.setSelected p key v).entryGen = s.entryGen := rfl
@[simp] theorem State.setSelected_outbox (s : State) (p : Path) (key v : Nat) : (s.setSelected p key v).outbox = s.outbox := rfl
@[simp] theorem State.setSelected_freeCount (s : State) (p : Path) (key v : Nat) : (s.setSelected p key v).freeCount = s.freeCount := rfl
@[simp] theorem State.setSelected_clock (s : State) (p : Path) (key v : Nat) : (s.setSelected p key v).clock = s.clock := rfl
@[simp] theorem State.setSelected_events (s : State) (p : Path) (key v : Nat) : (s.setSelected p key v).events = s.events := rfl
@[simp] theorem State.setSelected_wakePending (s : State) (p : Path) (key v : Nat) : (s.setSelected p key v).wakePending = s.wakePending := rfl
@[simp] theorem State.setSelected_contexts (s : State) (p : Path) (key v : Nat) : (s.setSelected p key v).contexts = s.contexts := rfl
@[simp] theorem State.setSelected_heldAccesses (s : State) (p : Path) (key v : Nat) : (s.setSelected p key v).heldAccesses = s.heldAccesses := rfl
@[simp] theorem State.setSelected_closing (s : State) (p : Path) (key v : Nat) : (s.setSelected p key v).closing = s.closing := rfl
@[simp] theorem State.setSelected_dispatched (s : State) (p : Path) (key v : Nat) : (s.setSelected p key v).dispatched = s.dispatched := rfl
@[simp] theorem State.setSelected_nextTag (s : State) (p : Path) (key v : Nat) : (s.setSelected p key v).nextTag = s.nextTag := rfl
@[simp] theorem State.setSelected_roundRobin (s : State) (p : Path) (key v : Nat) : (s.setSelected p key v).roundRobin = s.roundRobin := rfl
@[simp] theorem State.setSelected_cqWaiting (s : State) (p : Path) (key v : Nat) : (s.setSelected p key v).cqWaiting = s.cqWaiting := rfl
@[simp] theorem State.setSelected_buoys (s : State) (p : Path) (key v : Nat) : (s.setSelected p key v).buoys = s.buoys := rfl
@[simp] theorem State.setSelected_plan (s : State) (p : Path) (key v : Nat) : (s.setSelected p key v).plan = s.plan := rfl
@[simp] theorem State.setSelected_streams (s : State) (p : Path) (key v : Nat) : (s.setSelected p key v).streams = s.streams := rfl
@[simp] theorem State.setSelected_shards (s : State) (p : Path) (key v : Nat) : (s.setSelected p key v).shards = s.shards := rfl
@[simp] theorem State.setSelected_ferry (s : State) (p : Path) (key v : Nat) : (s.setSelected p key v).ferry = s.ferry := rfl
@[simp] theorem State.setSelected_quays (s : State) (p : Path) (key v : Nat) : (s.setSelected p key v).quays = s.quays := rfl
@[simp] theorem State.setSelected_skerry (s : State) (p : Path) (key v : Nat) : (s.setSelected p key v).skerry = s.skerry := rfl
@[simp] theorem State.setSelected_engines (s : State) (p : Path) (key v : Nat) : (s.setSelected p key v).engines = s.engines := rfl
@[simp] theorem State.setSelected_ports (s : State) (p : Path) (key v : Nat) : (s.setSelected p key v).ports = s.ports := rfl
@[simp] theorem State.setSelected_window (s : State) (p : Path) (key v : Nat) : (s.setSelected p key v).window = s.window := rfl
@[simp] theorem State.setSelected_sets (s : State) (p : Path) (key v : Nat) : (s.setSelected p key v).sets = s.sets := rfl
@[simp] theorem State.setSelected_comparisons (s : State) (p : Path) (key v : Nat) : (s.setSelected p key v).comparisons = s.comparisons := rfl
@[simp] theorem State.setSelected_cascade (s : State) (p : Path) (key v : Nat) : (s.setSelected p key v).cascade = s.cascade := rfl
@[simp] theorem State.setSelected_causeways (s : State) (p : Path) (key v : Nat) : (s.setSelected p key v).causeways = s.causeways := rfl
@[simp] theorem State.setSelected_rails (s : State) (p : Path) (key v : Nat) : (s.setSelected p key v).rails = s.rails := rfl
@[simp] theorem State.setSelected_microcode (s : State) (p : Path) (key v : Nat) : (s.setSelected p key v).microcode = s.microcode := rfl
@[simp] theorem State.setSelected_allocs (s : State) (p : Path) (key v : Nat) : (s.setSelected p key v).allocs = s.allocs := rfl

@[simp] theorem State.countSticky_pending (s : State) (key n : Nat) : (s.countSticky key n).pending = s.pending := rfl
@[simp] theorem State.countSticky_mem (s : State) (key n : Nat) : (s.countSticky key n).mem = s.mem := rfl
@[simp] theorem State.countSticky_checkWords (s : State) (key n : Nat) : (s.countSticky key n).checkWords = s.checkWords := rfl
@[simp] theorem State.countSticky_entryGen (s : State) (key n : Nat) : (s.countSticky key n).entryGen = s.entryGen := rfl
@[simp] theorem State.countSticky_select (s : State) (key n : Nat) : (s.countSticky key n).select = s.select := rfl
@[simp] theorem State.countSticky_outbox (s : State) (key n : Nat) : (s.countSticky key n).outbox = s.outbox := rfl
@[simp] theorem State.countSticky_freeCount (s : State) (key n : Nat) : (s.countSticky key n).freeCount = s.freeCount := rfl
@[simp] theorem State.countSticky_clock (s : State) (key n : Nat) : (s.countSticky key n).clock = s.clock := rfl
@[simp] theorem State.countSticky_events (s : State) (key n : Nat) : (s.countSticky key n).events = s.events := rfl
@[simp] theorem State.countSticky_wakePending (s : State) (key n : Nat) : (s.countSticky key n).wakePending = s.wakePending := rfl
@[simp] theorem State.countSticky_contexts (s : State) (key n : Nat) : (s.countSticky key n).contexts = s.contexts := rfl
@[simp] theorem State.countSticky_heldAccesses (s : State) (key n : Nat) : (s.countSticky key n).heldAccesses = s.heldAccesses := rfl
@[simp] theorem State.countSticky_closing (s : State) (key n : Nat) : (s.countSticky key n).closing = s.closing := rfl
@[simp] theorem State.countSticky_dispatched (s : State) (key n : Nat) : (s.countSticky key n).dispatched = s.dispatched := rfl
@[simp] theorem State.countSticky_nextTag (s : State) (key n : Nat) : (s.countSticky key n).nextTag = s.nextTag := rfl
@[simp] theorem State.countSticky_roundRobin (s : State) (key n : Nat) : (s.countSticky key n).roundRobin = s.roundRobin := rfl
@[simp] theorem State.countSticky_cqWaiting (s : State) (key n : Nat) : (s.countSticky key n).cqWaiting = s.cqWaiting := rfl
@[simp] theorem State.countSticky_buoys (s : State) (key n : Nat) : (s.countSticky key n).buoys = s.buoys := rfl
@[simp] theorem State.countSticky_plan (s : State) (key n : Nat) : (s.countSticky key n).plan = s.plan := rfl
@[simp] theorem State.countSticky_streams (s : State) (key n : Nat) : (s.countSticky key n).streams = s.streams := rfl
@[simp] theorem State.countSticky_shards (s : State) (key n : Nat) : (s.countSticky key n).shards = s.shards := rfl
@[simp] theorem State.countSticky_ferry (s : State) (key n : Nat) : (s.countSticky key n).ferry = s.ferry := rfl
@[simp] theorem State.countSticky_quays (s : State) (key n : Nat) : (s.countSticky key n).quays = s.quays := rfl
@[simp] theorem State.countSticky_skerry (s : State) (key n : Nat) : (s.countSticky key n).skerry = s.skerry := rfl
@[simp] theorem State.countSticky_engines (s : State) (key n : Nat) : (s.countSticky key n).engines = s.engines := rfl
@[simp] theorem State.countSticky_ports (s : State) (key n : Nat) : (s.countSticky key n).ports = s.ports := rfl
@[simp] theorem State.countSticky_window (s : State) (key n : Nat) : (s.countSticky key n).window = s.window := rfl
@[simp] theorem State.countSticky_sets (s : State) (key n : Nat) : (s.countSticky key n).sets = s.sets := rfl
@[simp] theorem State.countSticky_comparisons (s : State) (key n : Nat) : (s.countSticky key n).comparisons = s.comparisons := rfl
@[simp] theorem State.countSticky_cascade (s : State) (key n : Nat) : (s.countSticky key n).cascade = s.cascade := rfl
@[simp] theorem State.countSticky_causeways (s : State) (key n : Nat) : (s.countSticky key n).causeways = s.causeways := rfl
@[simp] theorem State.countSticky_rails (s : State) (key n : Nat) : (s.countSticky key n).rails = s.rails := rfl
@[simp] theorem State.countSticky_microcode (s : State) (key n : Nat) : (s.countSticky key n).microcode = s.microcode := rfl
@[simp] theorem State.countSticky_allocs (s : State) (key n : Nat) : (s.countSticky key n).allocs = s.allocs := rfl

@[simp] theorem State.count_pending (s : State) (key w n : Nat) : (s.count key w n).pending = s.pending := rfl
@[simp] theorem State.count_mem (s : State) (key w n : Nat) : (s.count key w n).mem = s.mem := rfl
@[simp] theorem State.count_checkWords (s : State) (key w n : Nat) : (s.count key w n).checkWords = s.checkWords := rfl
@[simp] theorem State.count_entryGen (s : State) (key w n : Nat) : (s.count key w n).entryGen = s.entryGen := rfl
@[simp] theorem State.count_select (s : State) (key w n : Nat) : (s.count key w n).select = s.select := rfl
@[simp] theorem State.count_outbox (s : State) (key w n : Nat) : (s.count key w n).outbox = s.outbox := rfl
@[simp] theorem State.count_freeCount (s : State) (key w n : Nat) : (s.count key w n).freeCount = s.freeCount := rfl
@[simp] theorem State.count_clock (s : State) (key w n : Nat) : (s.count key w n).clock = s.clock := rfl
@[simp] theorem State.count_events (s : State) (key w n : Nat) : (s.count key w n).events = s.events := rfl
@[simp] theorem State.count_wakePending (s : State) (key w n : Nat) : (s.count key w n).wakePending = s.wakePending := rfl
@[simp] theorem State.count_contexts (s : State) (key w n : Nat) : (s.count key w n).contexts = s.contexts := rfl
@[simp] theorem State.count_heldAccesses (s : State) (key w n : Nat) : (s.count key w n).heldAccesses = s.heldAccesses := rfl
@[simp] theorem State.count_closing (s : State) (key w n : Nat) : (s.count key w n).closing = s.closing := rfl
@[simp] theorem State.count_dispatched (s : State) (key w n : Nat) : (s.count key w n).dispatched = s.dispatched := rfl
@[simp] theorem State.count_nextTag (s : State) (key w n : Nat) : (s.count key w n).nextTag = s.nextTag := rfl
@[simp] theorem State.count_roundRobin (s : State) (key w n : Nat) : (s.count key w n).roundRobin = s.roundRobin := rfl
@[simp] theorem State.count_cqWaiting (s : State) (key w n : Nat) : (s.count key w n).cqWaiting = s.cqWaiting := rfl
@[simp] theorem State.count_buoys (s : State) (key w n : Nat) : (s.count key w n).buoys = s.buoys := rfl
@[simp] theorem State.count_plan (s : State) (key w n : Nat) : (s.count key w n).plan = s.plan := rfl
@[simp] theorem State.count_streams (s : State) (key w n : Nat) : (s.count key w n).streams = s.streams := rfl
@[simp] theorem State.count_shards (s : State) (key w n : Nat) : (s.count key w n).shards = s.shards := rfl
@[simp] theorem State.count_ferry (s : State) (key w n : Nat) : (s.count key w n).ferry = s.ferry := rfl
@[simp] theorem State.count_quays (s : State) (key w n : Nat) : (s.count key w n).quays = s.quays := rfl
@[simp] theorem State.count_skerry (s : State) (key w n : Nat) : (s.count key w n).skerry = s.skerry := rfl
@[simp] theorem State.count_engines (s : State) (key w n : Nat) : (s.count key w n).engines = s.engines := rfl
@[simp] theorem State.count_ports (s : State) (key w n : Nat) : (s.count key w n).ports = s.ports := rfl
@[simp] theorem State.count_window (s : State) (key w n : Nat) : (s.count key w n).window = s.window := rfl
@[simp] theorem State.count_sets (s : State) (key w n : Nat) : (s.count key w n).sets = s.sets := rfl
@[simp] theorem State.count_comparisons (s : State) (key w n : Nat) : (s.count key w n).comparisons = s.comparisons := rfl
@[simp] theorem State.count_cascade (s : State) (key w n : Nat) : (s.count key w n).cascade = s.cascade := rfl
@[simp] theorem State.count_causeways (s : State) (key w n : Nat) : (s.count key w n).causeways = s.causeways := rfl
@[simp] theorem State.count_rails (s : State) (key w n : Nat) : (s.count key w n).rails = s.rails := rfl
@[simp] theorem State.count_microcode (s : State) (key w n : Nat) : (s.count key w n).microcode = s.microcode := rfl
@[simp] theorem State.count_allocs (s : State) (key w n : Nat) : (s.count key w n).allocs = s.allocs := rfl

@[simp] theorem State.blobChanged_pending (s : State) (key : Nat) : (s.blobChanged key).pending = s.pending := rfl
@[simp] theorem State.blobChanged_mem (s : State) (key : Nat) : (s.blobChanged key).mem = s.mem := rfl
@[simp] theorem State.blobChanged_checkWords (s : State) (key : Nat) : (s.blobChanged key).checkWords = s.checkWords := rfl
@[simp] theorem State.blobChanged_chart (s : State) (key : Nat) : (s.blobChanged key).chart = s.chart := rfl
@[simp] theorem State.blobChanged_select (s : State) (key : Nat) : (s.blobChanged key).select = s.select := rfl
@[simp] theorem State.blobChanged_outbox (s : State) (key : Nat) : (s.blobChanged key).outbox = s.outbox := rfl
@[simp] theorem State.blobChanged_freeCount (s : State) (key : Nat) : (s.blobChanged key).freeCount = s.freeCount := rfl
@[simp] theorem State.blobChanged_clock (s : State) (key : Nat) : (s.blobChanged key).clock = s.clock := rfl
@[simp] theorem State.blobChanged_events (s : State) (key : Nat) : (s.blobChanged key).events = s.events := rfl
@[simp] theorem State.blobChanged_wakePending (s : State) (key : Nat) : (s.blobChanged key).wakePending = s.wakePending := rfl
@[simp] theorem State.blobChanged_contexts (s : State) (key : Nat) : (s.blobChanged key).contexts = s.contexts := rfl
@[simp] theorem State.blobChanged_heldAccesses (s : State) (key : Nat) : (s.blobChanged key).heldAccesses = s.heldAccesses := rfl
@[simp] theorem State.blobChanged_closing (s : State) (key : Nat) : (s.blobChanged key).closing = s.closing := rfl
@[simp] theorem State.blobChanged_dispatched (s : State) (key : Nat) : (s.blobChanged key).dispatched = s.dispatched := rfl
@[simp] theorem State.blobChanged_nextTag (s : State) (key : Nat) : (s.blobChanged key).nextTag = s.nextTag := rfl
@[simp] theorem State.blobChanged_roundRobin (s : State) (key : Nat) : (s.blobChanged key).roundRobin = s.roundRobin := rfl
@[simp] theorem State.blobChanged_cqWaiting (s : State) (key : Nat) : (s.blobChanged key).cqWaiting = s.cqWaiting := rfl
@[simp] theorem State.blobChanged_buoys (s : State) (key : Nat) : (s.blobChanged key).buoys = s.buoys := rfl
@[simp] theorem State.blobChanged_plan (s : State) (key : Nat) : (s.blobChanged key).plan = s.plan := rfl
@[simp] theorem State.blobChanged_streams (s : State) (key : Nat) : (s.blobChanged key).streams = s.streams := rfl
@[simp] theorem State.blobChanged_shards (s : State) (key : Nat) : (s.blobChanged key).shards = s.shards := rfl
@[simp] theorem State.blobChanged_ferry (s : State) (key : Nat) : (s.blobChanged key).ferry = s.ferry := rfl
@[simp] theorem State.blobChanged_quays (s : State) (key : Nat) : (s.blobChanged key).quays = s.quays := rfl
@[simp] theorem State.blobChanged_skerry (s : State) (key : Nat) : (s.blobChanged key).skerry = s.skerry := rfl
@[simp] theorem State.blobChanged_engines (s : State) (key : Nat) : (s.blobChanged key).engines = s.engines := rfl
@[simp] theorem State.blobChanged_ports (s : State) (key : Nat) : (s.blobChanged key).ports = s.ports := rfl
@[simp] theorem State.blobChanged_window (s : State) (key : Nat) : (s.blobChanged key).window = s.window := rfl
@[simp] theorem State.blobChanged_sets (s : State) (key : Nat) : (s.blobChanged key).sets = s.sets := rfl
@[simp] theorem State.blobChanged_comparisons (s : State) (key : Nat) : (s.blobChanged key).comparisons = s.comparisons := rfl
@[simp] theorem State.blobChanged_cascade (s : State) (key : Nat) : (s.blobChanged key).cascade = s.cascade := rfl
@[simp] theorem State.blobChanged_causeways (s : State) (key : Nat) : (s.blobChanged key).causeways = s.causeways := rfl
@[simp] theorem State.blobChanged_rails (s : State) (key : Nat) : (s.blobChanged key).rails = s.rails := rfl
@[simp] theorem State.blobChanged_microcode (s : State) (key : Nat) : (s.blobChanged key).microcode = s.microcode := rfl
@[simp] theorem State.blobChanged_allocs (s : State) (key : Nat) : (s.blobChanged key).allocs = s.allocs := rfl

@[simp] theorem State.modRun_pending (s : State) (x : TaskRef) (f : TaskRun → TaskRun) : (s.modRun x f).pending = s.pending := rfl
@[simp] theorem State.modRun_mem (s : State) (x : TaskRef) (f : TaskRun → TaskRun) : (s.modRun x f).mem = s.mem := rfl
@[simp] theorem State.modRun_checkWords (s : State) (x : TaskRef) (f : TaskRun → TaskRun) : (s.modRun x f).checkWords = s.checkWords := rfl
@[simp] theorem State.modRun_chart (s : State) (x : TaskRef) (f : TaskRun → TaskRun) : (s.modRun x f).chart = s.chart := rfl
@[simp] theorem State.modRun_entryGen (s : State) (x : TaskRef) (f : TaskRun → TaskRun) : (s.modRun x f).entryGen = s.entryGen := rfl
@[simp] theorem State.modRun_select (s : State) (x : TaskRef) (f : TaskRun → TaskRun) : (s.modRun x f).select = s.select := rfl
@[simp] theorem State.modRun_outbox (s : State) (x : TaskRef) (f : TaskRun → TaskRun) : (s.modRun x f).outbox = s.outbox := rfl
@[simp] theorem State.modRun_freeCount (s : State) (x : TaskRef) (f : TaskRun → TaskRun) : (s.modRun x f).freeCount = s.freeCount := rfl
@[simp] theorem State.modRun_clock (s : State) (x : TaskRef) (f : TaskRun → TaskRun) : (s.modRun x f).clock = s.clock := rfl
@[simp] theorem State.modRun_events (s : State) (x : TaskRef) (f : TaskRun → TaskRun) : (s.modRun x f).events = s.events := rfl
@[simp] theorem State.modRun_wakePending (s : State) (x : TaskRef) (f : TaskRun → TaskRun) : (s.modRun x f).wakePending = s.wakePending := rfl
@[simp] theorem State.modRun_contexts (s : State) (x : TaskRef) (f : TaskRun → TaskRun) : (s.modRun x f).contexts = s.contexts := rfl
@[simp] theorem State.modRun_heldAccesses (s : State) (x : TaskRef) (f : TaskRun → TaskRun) : (s.modRun x f).heldAccesses = s.heldAccesses := rfl
@[simp] theorem State.modRun_closing (s : State) (x : TaskRef) (f : TaskRun → TaskRun) : (s.modRun x f).closing = s.closing := rfl
@[simp] theorem State.modRun_dispatched (s : State) (x : TaskRef) (f : TaskRun → TaskRun) : (s.modRun x f).dispatched = s.dispatched := rfl
@[simp] theorem State.modRun_nextTag (s : State) (x : TaskRef) (f : TaskRun → TaskRun) : (s.modRun x f).nextTag = s.nextTag := rfl
@[simp] theorem State.modRun_roundRobin (s : State) (x : TaskRef) (f : TaskRun → TaskRun) : (s.modRun x f).roundRobin = s.roundRobin := rfl
@[simp] theorem State.modRun_cqWaiting (s : State) (x : TaskRef) (f : TaskRun → TaskRun) : (s.modRun x f).cqWaiting = s.cqWaiting := rfl
@[simp] theorem State.modRun_buoys (s : State) (x : TaskRef) (f : TaskRun → TaskRun) : (s.modRun x f).buoys = s.buoys := rfl
@[simp] theorem State.modRun_streams (s : State) (x : TaskRef) (f : TaskRun → TaskRun) : (s.modRun x f).streams = s.streams := rfl
@[simp] theorem State.modRun_shards (s : State) (x : TaskRef) (f : TaskRun → TaskRun) : (s.modRun x f).shards = s.shards := rfl
@[simp] theorem State.modRun_ferry (s : State) (x : TaskRef) (f : TaskRun → TaskRun) : (s.modRun x f).ferry = s.ferry := rfl
@[simp] theorem State.modRun_quays (s : State) (x : TaskRef) (f : TaskRun → TaskRun) : (s.modRun x f).quays = s.quays := rfl
@[simp] theorem State.modRun_skerry (s : State) (x : TaskRef) (f : TaskRun → TaskRun) : (s.modRun x f).skerry = s.skerry := rfl
@[simp] theorem State.modRun_engines (s : State) (x : TaskRef) (f : TaskRun → TaskRun) : (s.modRun x f).engines = s.engines := rfl
@[simp] theorem State.modRun_ports (s : State) (x : TaskRef) (f : TaskRun → TaskRun) : (s.modRun x f).ports = s.ports := rfl
@[simp] theorem State.modRun_window (s : State) (x : TaskRef) (f : TaskRun → TaskRun) : (s.modRun x f).window = s.window := rfl
@[simp] theorem State.modRun_sets (s : State) (x : TaskRef) (f : TaskRun → TaskRun) : (s.modRun x f).sets = s.sets := rfl
@[simp] theorem State.modRun_comparisons (s : State) (x : TaskRef) (f : TaskRun → TaskRun) : (s.modRun x f).comparisons = s.comparisons := rfl
@[simp] theorem State.modRun_cascade (s : State) (x : TaskRef) (f : TaskRun → TaskRun) : (s.modRun x f).cascade = s.cascade := rfl
@[simp] theorem State.modRun_causeways (s : State) (x : TaskRef) (f : TaskRun → TaskRun) : (s.modRun x f).causeways = s.causeways := rfl
@[simp] theorem State.modRun_rails (s : State) (x : TaskRef) (f : TaskRun → TaskRun) : (s.modRun x f).rails = s.rails := rfl
@[simp] theorem State.modRun_microcode (s : State) (x : TaskRef) (f : TaskRun → TaskRun) : (s.modRun x f).microcode = s.microcode := rfl
@[simp] theorem State.modRun_allocs (s : State) (x : TaskRef) (f : TaskRun → TaskRun) : (s.modRun x f).allocs = s.allocs := rfl

@[simp] theorem State.wake_pending (s : State) : s.wake.pending = s.pending := by unfold State.wake; split <;> rfl
@[simp] theorem State.wake_mem (s : State) : s.wake.mem = s.mem := by unfold State.wake; split <;> rfl
@[simp] theorem State.wake_checkWords (s : State) : s.wake.checkWords = s.checkWords := by unfold State.wake; split <;> rfl
@[simp] theorem State.wake_chart (s : State) : s.wake.chart = s.chart := by unfold State.wake; split <;> rfl
@[simp] theorem State.wake_entryGen (s : State) : s.wake.entryGen = s.entryGen := by unfold State.wake; split <;> rfl
@[simp] theorem State.wake_select (s : State) : s.wake.select = s.select := by unfold State.wake; split <;> rfl
@[simp] theorem State.wake_outbox (s : State) : s.wake.outbox = s.outbox := by unfold State.wake; split <;> rfl
@[simp] theorem State.wake_freeCount (s : State) : s.wake.freeCount = s.freeCount := by unfold State.wake; split <;> rfl
@[simp] theorem State.wake_clock (s : State) : s.wake.clock = s.clock := by unfold State.wake; split <;> rfl
@[simp] theorem State.wake_events (s : State) : s.wake.events = s.events := by unfold State.wake; split <;> rfl
@[simp] theorem State.wake_contexts (s : State) : s.wake.contexts = s.contexts := by unfold State.wake; split <;> rfl
@[simp] theorem State.wake_heldAccesses (s : State) : s.wake.heldAccesses = s.heldAccesses := by unfold State.wake; split <;> rfl
@[simp] theorem State.wake_closing (s : State) : s.wake.closing = s.closing := by unfold State.wake; split <;> rfl
@[simp] theorem State.wake_dispatched (s : State) : s.wake.dispatched = s.dispatched := by unfold State.wake; split <;> rfl
@[simp] theorem State.wake_nextTag (s : State) : s.wake.nextTag = s.nextTag := by unfold State.wake; split <;> rfl
@[simp] theorem State.wake_roundRobin (s : State) : s.wake.roundRobin = s.roundRobin := by unfold State.wake; split <;> rfl
@[simp] theorem State.wake_cqWaiting (s : State) : s.wake.cqWaiting = s.cqWaiting := by unfold State.wake; split <;> rfl
@[simp] theorem State.wake_buoys (s : State) : s.wake.buoys = s.buoys := by unfold State.wake; split <;> rfl
@[simp] theorem State.wake_plan (s : State) : s.wake.plan = s.plan := by unfold State.wake; split <;> rfl
@[simp] theorem State.wake_streams (s : State) : s.wake.streams = s.streams := by unfold State.wake; split <;> rfl
@[simp] theorem State.wake_shards (s : State) : s.wake.shards = s.shards := by unfold State.wake; split <;> rfl
@[simp] theorem State.wake_ferry (s : State) : s.wake.ferry = s.ferry := by unfold State.wake; split <;> rfl
@[simp] theorem State.wake_quays (s : State) : s.wake.quays = s.quays := by unfold State.wake; split <;> rfl
@[simp] theorem State.wake_skerry (s : State) : s.wake.skerry = s.skerry := by unfold State.wake; split <;> rfl
@[simp] theorem State.wake_engines (s : State) : s.wake.engines = s.engines := by unfold State.wake; split <;> rfl
@[simp] theorem State.wake_ports (s : State) : s.wake.ports = s.ports := by unfold State.wake; split <;> rfl
@[simp] theorem State.wake_window (s : State) : s.wake.window = s.window := by unfold State.wake; split <;> rfl
@[simp] theorem State.wake_sets (s : State) : s.wake.sets = s.sets := by unfold State.wake; split <;> rfl
@[simp] theorem State.wake_comparisons (s : State) : s.wake.comparisons = s.comparisons := by unfold State.wake; split <;> rfl
@[simp] theorem State.wake_cascade (s : State) : s.wake.cascade = s.cascade := by unfold State.wake; split <;> rfl
@[simp] theorem State.wake_causeways (s : State) : s.wake.causeways = s.causeways := by unfold State.wake; split <;> rfl
@[simp] theorem State.wake_rails (s : State) : s.wake.rails = s.rails := by unfold State.wake; split <;> rfl
@[simp] theorem State.wake_microcode (s : State) : s.wake.microcode = s.microcode := by unfold State.wake; split <;> rfl
@[simp] theorem State.wake_allocs (s : State) : s.wake.allocs = s.allocs := by unfold State.wake; split <;> rfl

end Sys2Proof.Machine
end

