-- ==== Sys2Proof/Laws/Shared.lean ====
section
/-! SUPPORT. What the shared operations come to, once for each: a write of the Chart accepted or refused, a cascade message, a link frame, a task that may start, an event raised. -/

namespace Sys2Proof.Machine

/-! ### Writes of the Chart -/

/-- The status of a write depends on an entry's own act through its three checks alone. -/
theorem State.writeStatus_effect (s : State) (index sub : Nat) (r : Req) (a b c : Bool) (f g : State → State) :
    s.writeStatus index sub r ⟨a, b, c, f⟩ = s.writeStatus index sub r ⟨a, b, c, g⟩ := rfl

/-- A write that passes the common checks and its entry's own has its effect and the reply OK. -/
theorem State.chartDo_ok {s : State} {index sub : Nat} {r : Req} (h : ChecksPass s index sub r) {act : ChAct}
    (h1 : act.range = true) (h2 : act.state = true) (h3 : act.params = true) :
    s.chartDo index sub r act = (act.effect s).okReply index sub r := by
  obtain ⟨a, b, c, f⟩ := act
  simp only at h1 h2 h3
  subst h1 h2 h3
  obtain ⟨hb, hs⟩ := h
  have hs' : s.writeStatus index sub r ⟨true, true, true, f⟩ = Cs.ok := hs
  unfold State.chartDo State.writeReply State.okReply
  simp only [hb, hs', Bool.false_eq_true, if_false, if_true]
  rfl

/-- A write that a check refuses has no effect but its reply, and the count of a path that may not write. -/
theorem State.chartDo_refused {s : State} {index sub : Nat} {r : Req} {act : ChAct} (hb : s.slotBusy r.path = false)
    (h : s.writeStatus index sub r act ≠ Cs.ok) :
    ∃ rep : ChReply, rep.status = s.writeStatus index sub r act ∧ s.chartDo index sub r act =
      (if s.writeStatus index sub r act = Cs.path then s.countSticky Ch.pathRefusals else s).reply 2 index sub r rep := by
  unfold State.chartDo State.writeReply
  simp only [hb, h, Bool.false_eq_true, if_false]
  exact ⟨_, rfl, rfl⟩

/-! ### Cascade messages -/

theorem SMap.find_put_self {α : Type} (m : SMap α) (i : Nat) (v : α) : (m.put i v).find i = some v := by
  induction m with
  | nil => simp [SMap.put, SMap.find]
  | cons e m ih =>
    obtain ⟨k, w⟩ := e
    unfold SMap.put
    split
    · simp [SMap.find]
    · split
      · simp [SMap.find]
      · rename_i h1 h2
        simp [SMap.find, h2, ih]

theorem SMap.find_put_other {α : Type} (m : SMap α) {i j : Nat} (v : α) (h : i ≠ j) : (m.put i v).find j = m.find j := by
  have h' : ¬ j = i := fun e => h e.symm
  induction m with
  | nil => simp [SMap.put, SMap.find, h']
  | cons e m ih =>
    obtain ⟨k, w⟩ := e
    unfold SMap.put
    split
    · simp [SMap.find, h']
    · split
      · rename_i h1 h2
        subst h2
        simp [SMap.find, h']
      · simp only [SMap.find, ih]

@[simp] theorem SMap.getD_put_self {α : Type} (m : SMap α) (i : Nat) (v d : α) : (m.put i v).getD i d = v := by
  simp [SMap.getD, SMap.find_put_self]

theorem SMap.getD_put_other {α : Type} (m : SMap α) {i j : Nat} (v d : α) (h : i ≠ j) : (m.put i v).getD j d = m.getD j d := by
  simp [SMap.getD, SMap.find_put_other m v h]

/-- A Chart entry that is written reads back; every other reads as before. -/
theorem State.ch_setCh (s : State) (k v j : Nat) : (s.setCh k v).ch j = if k = j then v else s.ch j := by
  unfold State.ch State.setCh
  by_cases h : k = j
  · subst h; simp [SMap.find_put_self]
  · simp [SMap.find_put_other _ _ h, h]

@[simp] theorem State.peer_wake (s : State) (p : Nat) : s.wake.peer p = s.peer p := by simp [State.peer]

/-- An ACK leaves the receive sequence as it is. -/
theorem State.takeAck_rxSeq (s : State) (p a q : Nat) : ((s.takeAck p a).peer q).rxSeq = (s.peer q).rxSeq := by
  unfold State.takeAck
  dsimp only
  split
  · by_cases h : p = q
    · subst h; simp [State.peer, State.setPeer]
    · simp [State.peer, State.setPeer, SMap.getD_put_other _ _ _ h]
  · rfl

/-- A message that is taken acts once, in the state that its header leaves. -/
theorem State.message_taken {s : State} {kind : Nat} {f : Frame} (h : MessageTaken s kind f) (take : State → Nat → Nat → State) :
    s.message kind f take = take (s.afterFrame f) (frameSrc f) (frameArg f) := by
  obtain ⟨hd, hk, hq⟩ := h
  have hq' : MsgHdr.seq.get f.header.toNat = (((s.takeAck (frameSrc f) (MsgHdr.ack.get f.header.toNat)).wake.peer (frameSrc f)).rxSeq + 1) % 65536 := by
    rw [State.peer_wake, State.takeAck_rxSeq]; exact hq
  unfold State.message
  simp only [hd, hk, Bool.false_eq_true, if_false, ne_eq, not_true_eq_false]
  rw [if_neg (by simpa [frameSrc] using hq')]
  rfl

/-! ### Frames of a Reef link -/

theorem State.modPort_port (s : State) (p : Nat) (f : Port → Port) (q : Nat) :
    (s.modPort p f).port q = if p = q then f (s.port p) else s.port q := by
  have key : ((s.modPort p f).ports) = s.ports.put p (f (s.port p)) := by unfold State.modPort; dsimp only; split <;> rfl
  unfold State.port at *
  rw [key]
  by_cases h : p = q
  · subst h; simp
  · simp [SMap.getD_put_other _ _ _ h, h]

theorem State.linkAck_rxSeq (s : State) (p a : Nat) : ((s.linkAck p a).port p).rxSeq = (s.port p).rxSeq := by
  unfold State.linkAck
  dsimp only
  split
  · rw [State.modPort_port]; simp
  · split
    · rw [State.modPort_port]; simp
    · rfl

/-- A link frame that is taken acts once, in the state that its header leaves. -/
theorem State.fromModule_taken {s : State} {p kind : Nat} {f : LinkFrame} (h : LinkTaken s p kind f) (take : State → State) :
    s.fromModule p kind f take = take (s.afterLink p f) := by
  obtain ⟨hm, hl, hk, hq⟩ := h
  have hq' : LinkHdr.seq.get f.header.toNat = (((s.linkAck p (LinkHdr.ack.get f.header.toNat)).port p).rxSeq + 1) % 4096 := by
    rw [State.linkAck_rxSeq]; exact hq
  unfold State.fromModule
  simp only [hm, hl, hk, Bool.not_true, Bool.false_eq_true, if_false, ne_eq, not_true_eq_false, or_false]
  rw [if_neg (by simpa using hq')]
  rfl

/-! ### Tasks -/

/-- A task that may start, and whose executor is ready, is dispatched and its work begins. -/
theorem State.dispatch_starts {s t : State} {x : TaskRef} {kind : Nat} (h : TaskMayStart s t x kind) {ready : State → Bool} (work : State → State)
    (hr : ready t = true) : s.dispatch x kind ready work = work (t.beginTask x none) := by
  obtain ⟨hk, hc, hrun, hh, hl, ha, h1, h2, h3, h4⟩ := h
  unfold State.dispatch
  simp [hk, Nat.not_le.mpr hc, hrun, hh, hl, ha, h1, h2, h3, h4, hr]

/-! ### Events -/

/-- An event that is raised takes the next number and the one after becomes next (R473). -/
theorem State.ringWrite_events (s : State) (r : Nat) : (s.ringWrite r).events = s.events := by
  unfold State.ringWrite
  dsimp only
  split
  · split <;> simp
  · obtain ⟨m, c, e, -, -⟩ := State.store_eq s (s.ch Ch.evringBase + 32 * (s.ch Ch.evringTail % 2 ^ s.ch Ch.evringLog2))
      (leBytes 32 (EventRec.phase.set r (if s.ch Ch.evringTail / 2 ^ s.ch Ch.evringLog2 % 2 = 0 then 1 else 0)))
    simp [e]

theorem State.ringWrites_events (rs : List Nat) (s : State) : (rs.foldl State.ringWrite s).events = s.events := by
  induction rs generalizing s with
  | nil => rfl
  | cons r rs ih => rw [List.foldl_cons, ih, State.ringWrite_events]

theorem State.raise_next (s : State) (e : Ev) : (s.raise e).events.next = (s.events.next + 1) % 2 ^ 48 := by
  unfold State.raise
  dsimp only
  split
  · unfold State.holdChain
    split
    · dsimp only
      repeat' split
      all_goals simp
    · simp
  · unfold State.ringChain
    dsimp only
    split
    · simp [State.ringWrites_events]
    · simp

/-! ### Stores with no copy in progress -/

/-- With no sector failing its check, no merge read fails. -/
theorem State.mergeFails_sound (s : State) (a n : Nat) (h : s.checkWords = []) : s.mergeFails a n = none := by
  simp [State.mergeFails, h]

/-- A write with no set in progress and every sector sound changes the bytes of memory alone. -/
theorem State.put_sound (s : State) (a : Nat) (bs : List Byte) (h : s.checkWords = []) (hs : s.sets = []) :
    s.put a bs = { s with mem := Memory.write s.mem a bs } := by
  have : s.cow a bs.length = s := by simp [State.cow, hs]
  rw [State.put, this]
  exact State.store_sound s a bs h

/-! ### Instructions of a Shoal program -/

/-- An instruction in the immediate form that the pc names and whose meaning answers registers leaves them, what it counted, and nothing else. -/
theorem State.shoalI_runs {s : State} {e op : Nat} {i : IForm} {v : Invocation} {sem : State → Sem} {b : Bench} {r : Regs}
    (hf : iFields (iWord op i) = i) (h : s.InsnAt e (iWord op i) v)
    (hs : sem s (s.engineEnv e v) s.reader (s.insnBench e v) (s.engine e).regs = .ok (b, r)) : s.shoalI e op i sem = s.afterInsn e v b r := by
  unfold State.insnBench at hs
  unfold State.shoalI State.shoal
  simp only [hf, h.1, h.2, if_true, ne_eq, not_true_eq_false, if_false, hs]
  rfl

/-- The same of the register form. -/
theorem State.shoalG_runs {s : State} {e op : Nat} {i : GForm} {v : Invocation} {sem : State → Sem} {b : Bench} {r : Regs}
    (hf : gFields (gWord op i) = i) (h : s.InsnAt e (gWord op i) v)
    (hs : sem s (s.engineEnv e v) s.reader (s.insnBench e v) (s.engine e).regs = .ok (b, r)) : s.shoalG e op i sem = s.afterInsn e v b r := by
  unfold State.insnBench at hs
  unfold State.shoalG State.shoal
  simp only [hf, h.1, h.2, if_true, ne_eq, not_true_eq_false, if_false, hs]
  rfl

end Sys2Proof.Machine
end

