-- ==== Sys2Proof/Tests/Slice0.lean ====
section
/-! SUPPORT. Tests: ill-formed commands are refused, and each statement's hypotheses are met by a concrete state and operands. -/

namespace Sys2Proof.Tests

open Sys2Proof.Machine

set_option Elab.async false

/-! ### Well-formedness -/

/-- A request of mailbox slot 0 that writes `v` in `n` bytes. -/
def wr (n v : Nat) : Req := ⟨.mailbox 0, 1, 0, leBytes n v⟩
def badReq : Req := ⟨.mailbox 4, 1, 0, []⟩
def gi : GForm := ⟨0, false, false, 1, 2, 3, 4, false, false⟩
def ii : IForm := ⟨0, false, false, 1, 2, 0, 5⟩

theorem test_wf_request : Instr.wf (.attach badReq) = false ∧ Instr.wf (.attach ⟨.mctp, 65536, 0, []⟩) = false ∧ Instr.wf (.attach ⟨.mctp, 0, 2 ^ 32, []⟩) = false
    ∧ Instr.wf (.attach (wr 8 0)) = true := by decide +kernel
theorem test_wf_length (l : List Byte) (h : 2 ^ 16 ≤ l.length) : Instr.wf (.attach ⟨.mctp, 0, 0, l⟩) = false := by
  show (true && decide (0 < 2 ^ 16 ∧ 0 < 2 ^ 32 ∧ l.length < 2 ^ 16)) = false
  simp
  omega
theorem test_wf_memory : Instr.wf (.planValidation (.pageFault (2 ^ 52))) = false ∧ Instr.wf (.planValidation (.busError (2 ^ 52))) = false := by decide
theorem test_wf_forms : Instr.wf (.sadd 0 { gi with pred := 8 }) = false ∧ Instr.wf (.sadd 0 { gi with d := 32 }) = false ∧ Instr.wf (.sadd 0 { gi with a := 32 }) = false
    ∧ Instr.wf (.sadd 0 { gi with b := 32 }) = false ∧ Instr.wf (.sadd 0 { gi with c := 32 }) = false ∧ Instr.wf (.sli 0 { ii with imm := 2 ^ 32 }) = false
    ∧ Instr.wf (.sli 0 { ii with pred := 8 }) = false ∧ Instr.wf (.sli 0 { ii with d := 32 }) = false ∧ Instr.wf (.sli 0 { ii with a := 32 }) = false
    ∧ Instr.wf (.sli 0 { ii with b := 32 }) = false ∧ Instr.wf (.sli 40 ii) = false ∧ Instr.wf (.sadd 40 gi) = false := by decide
theorem test_wf_payload (l : List Byte) (h : 2 ^ 16 ≤ l.length) : Instr.wf (.data ⟨0, 0, l⟩) = false := by
  show decide (l.length < 2 ^ 16) = false
  simp
  omega
theorem test_wf_frames : Instr.wf (.dataFrame 0 ⟨0, List.replicate 257 0, 0, 0⟩) = false
    ∧ Instr.wf (.dataSpan 0 0 ⟨1, List.replicate 1025 0, 0⟩) = false := by decide +kernel
theorem test_wf_handles : Instr.wf (.handlePass 0 0 0 ⟨0, 0, 16385, false, false, false, false⟩ []) = false ∧ Instr.wf (.handlePass 0 0 0 ⟨2 ^ 32, 0, 1, false, false, false, false⟩ []) = false
    ∧ Instr.wf (.handlePass 0 1024 0 ⟨0, 0, 1, false, false, false, false⟩ []) = false ∧ Instr.wf (.handlePass 2 0 0 ⟨0, 0, 1, false, false, false, false⟩ []) = false := by decide
theorem test_wf_causes : Instr.wf (.fastReset (.rail 5)) = false ∧ Instr.wf (.fullReset (.rail 5)) = false ∧ Instr.wf (.fastReset (.control badReq)) = false
    ∧ Instr.wf (.fullReset (.control badReq)) = false ∧ Instr.wf (.requestSlotGrant ⟨.lane 256, .ok⟩) = false ∧ Instr.wf (.requestSlotGrant ⟨.quay 2, .ok⟩) = false := by decide
theorem test_wf_instances : Instr.wf (.feedWrite 3 (wr 2 0)) = false ∧ Instr.wf (.feedWrite 0 (wr 2 0)) = false ∧ Instr.wf (.contextFreed 4096) = false
    ∧ Instr.wf (.regionFillComplete 256) = false ∧ Instr.wf (.chartWrite 65536 0 (wr 2 0)) = false ∧ Instr.wf (.chartWrite 0 256 (wr 2 0)) = false
    ∧ Instr.wf (.setEndpointId 256) = false ∧ Instr.wf (.deviceMemoryRead 65536 0 0) = false ∧ Instr.wf (.deviceMemoryWrite 65536 0 []) = false
    ∧ Instr.wf (.deviceAtomicOp 65536 0) = false ∧ Instr.wf (.computeComplete 2) = false ∧ Instr.wf (.drainRequest 2 0 0 0) = false
    ∧ Instr.wf (.laneTakesItem ⟨256, .ok⟩) = false ∧ Instr.wf (.pacingTick 16) = false ∧ Instr.wf (.shadowTakeover 65536) = false ∧ Instr.wf (.ingest 20) = false
    ∧ Instr.wf (.messageResend 4096) = false ∧ Instr.wf (.memberTimeout 8) = false ∧ Instr.wf (.moduleAbsent 16) = false ∧ Instr.wf (.train 2 (wr 4 1)) = false
    ∧ Instr.wf (.dataSpan 0 16 ⟨1, [], 0⟩) = false ∧ Instr.wf (.retryPulse 2 0) = false ∧ Instr.wf (.stackFailed 20) = false ∧ Instr.wf (.sleepEntry 3) = false
    ∧ Instr.wf (.supplyWarning 5 0) = false ∧ Instr.wf (.supplyWarning 0 65536) = false ∧ Instr.wf (.warningCleared 5 []) = false
    ∧ Instr.wf (.dynamicAddressAssignment 128) = false := by decide
/-- The table gives no command any bits, so no word spells one. -/
theorem test_no_word : decodeTableWord 64 0 = none ∧ State.withFetchWord State.reset 64 0 = State.reset := ⟨rfl, rfl⟩
/-- With no command waiting the block idles: the clock of the standby domain counts. -/
theorem test_idle : step State.reset = .next State.reset.tick ∧ ∃ s : State, s.pending = [.getEndpointId] ∧ step s = exec .getEndpointId { s with pending := [] } :=
  ⟨rfl, { State.reset with pending := [.getEndpointId] }, rfl, rfl⟩

/-! ### States to test on -/

/-- A value of the fields given. -/
def word (fs : List (Fld × Nat)) : Nat := fs.foldl (fun v p => p.1.set v p.2) 0
/-- The state after reset with regions 0 and 1 assigned in every stack, at 0 and 0x10000000, and context 0 ACTIVE. -/
def base : State :=
  let s := (State.reset.setCh Ch.stackBytes 0x10000000).setCh Ch.regionState 2
  let s := ((s.setCh (Ch.regionBase + 256) 0x10000000).setCh (Ch.stackBytes + 256) 0x10000000).setCh (Ch.regionState + 256) 2
  { s.setCh Ch.chargeLimit 0x10000000 with contexts := [(0, ⟨1, 5, 6, 3⟩)] }
/-- Command 1 of an opcode, handed to its executor. -/
def cmdOf (op : Nat) (fs : List (Fld × Nat)) : Dispatched := ⟨1, 0, word ((Cmd.opcode, op) :: fs), .ready, 0, .ok⟩
def withCmd (s : State) (d : Dispatched) : State := { s with dispatched := [d], nextTag := 2 }
def withBuoys (s : State) : State :=
  { s with buoys := [(0, Buoy.bind 0 5 Bk.semaphore 1 10 3 0), (1, Buoy.bind 0 6 Bk.barrier 1 0 0 2)] }
/-- A plan of one header, four streams, four tasks and one shard, its tables in memory. -/
def planned (s : State) : State :=
  let s := { s.setCh Ch.planState Pl.running with plan := { Plan.reset with tables := some ⟨0x10000, 0x11000, 0x12000, 0x13000, 0x14000, 0x15000⟩ } }
  s.setFlds 0x10000 [(PlanHdr.streamCount, 4), (PlanHdr.taskCount, 4), (PlanHdr.shardCount, 1), (PlanHdr.startBuoy, 5), (PlanHdr.endBuoy, 5)]
/-- Stream 0 in a state and class, two tiles long. -/
def stream (s : State) (st cls : Nat) : State :=
  s.setFlds 0x11000 [(StreamRec.byteLength, 8192), (StreamRec.elemType, 1), (StreamRec.classF, cls), (StreamRec.state, st), (StreamRec.dataBase, 0x200000),
    (StreamRec.sourceA, noRef), (StreamRec.sourceB, noRef)]

/-! ### Commands -/

def nopC : Dispatched := cmdOf Op.nop []
def fenceC : Dispatched := cmdOf Op.fence []
def discardC : Dispatched := cmdOf Op.discard [(CmdDiscard.stream, 0), (CmdDiscard.count, 2)]
def inlineC : Dispatched := cmdOf Op.inlineWrite [(CmdInline.address, 0x20010), (CmdInline.length, 8), (CmdInline.data, 0x1122334455667788)]
def inlineZ : Dispatched := cmdOf Op.inlineWrite []
theorem test_simple : (withCmd base nopC).readyCmd 1 Op.nop = some nopC
    ∧ (withCmd base fenceC).readyCmd 1 Op.fence = some fenceC ∧ (withCmd base fenceC).fenced fenceC = []
    ∧ (withCmd (planned base) discardC).readyCmd 1 Op.discard = some discardC
    ∧ (∀ i, i < cmdGet discardC.word CmdDiscard.count → (withCmd (planned base) discardC).stateOf (i + cmdGet discardC.word CmdDiscard.stream) ≠ Ss.filling)
    ∧ (withCmd base inlineC).readyCmd 1 Op.inlineWrite = some inlineC ∧ cmdGet inlineC.word CmdInline.length ≠ 0
    ∧ (withCmd base inlineC).filling 0x20010 8 = false ∧ (withCmd base inlineC).mergeFails 0x20010 8 = none
    ∧ (withCmd base inlineZ).readyCmd 1 Op.inlineWrite = some inlineZ ∧ cmdGet inlineZ.word CmdInline.length = 0 := by decide +kernel
/-- R135: the eight bytes of DATA stand at ADDRESS, the first in the lowest bits. -/
theorem test_inline_bytes : (match exec (.inlineWrite 1 .ok) (withCmd base inlineC) with | .next t => t.rd 0x20010 8 | _ => []) = [0x88, 0x77, 0x66, 0x55, 0x44, 0x33, 0x22, 0x11] := by
  decide +kernel

def signalC : Dispatched := cmdOf Op.signal [(CmdBuoy.buoy, 5), (CmdBuoy.count, 7)]
def waitC (n : Nat) : Dispatched := cmdOf Op.wait [(CmdBuoy.buoy, 5), (CmdBuoy.count, n)]
def entryC : Dispatched := cmdOf Op.wait [(CmdBuoy.buoy, 6), (CmdBuoy.count, 1), (CmdBuoy.barrier, 1), (CmdBuoy.round, 0)]
def sem5 : Buoy := Buoy.bind 0 5 Bk.semaphore 1 10 3 0
def bar6 : Buoy := Buoy.bind 0 6 Bk.barrier 1 0 0 2
def onBuoy (d : Dispatched) : State := withCmd (withBuoys base) d
/-- The state in which a command's name is translated. -/
def named (s : State) (d : Dispatched) : State := (s.meetsPlan d.queue (s.cmdContext d) (cmdGet d.word CmdBuoy.buoy)).translates
def parkedOn (d : Dispatched) : State := named ((onBuoy d).setStage 1 .waiting 0) d
theorem test_buoys : (onBuoy signalC).cmd 1 Op.signal = some signalC ∧ signalC.stage = .ready ∧ (onBuoy signalC).buoyAway signalC.word = false ∧ cmdGet signalC.word CmdBuoy.count ≠ 0
    ∧ (named (onBuoy signalC) signalC).findBuoy ((onBuoy signalC).cmdContext signalC) (cmdGet signalC.word CmdBuoy.buoy) = some (0, sem5) ∧ sem5.lost = false ∧ sem5.kind = Bk.semaphore
    ∧ sem5.count + cmdGet signalC.word CmdBuoy.count ≤ sem5.limit := by decide +kernel
theorem test_buoy_waits : (onBuoy (waitC 3)).cmd 1 Op.wait = some (waitC 3) ∧ (parkedOn (waitC 3)).findBuoy ((onBuoy (waitC 3)).cmdContext (waitC 3)) 5 = some (0, sem5)
    ∧ cmdGet (waitC 3).word CmdBuoy.barrier = 0 ∧ cmdGet (waitC 10).word CmdBuoy.count ≤ sem5.limit
    ∧ (onBuoy entryC).cmd 1 Op.wait = some entryC ∧ (parkedOn entryC).findBuoy ((onBuoy entryC).cmdContext entryC) 6 = some (1, bar6) ∧ cmdGet entryC.word CmdBuoy.barrier = 1 ∧ bar6.kind = Bk.barrier
    ∧ cmdGet entryC.word CmdBuoy.round % 2 ^ 32 = bar6.round % 2 ^ 32 ∧ bar6.round < 2 ^ 32 ∧ bar6.entries.length < bar6.participants := by decide +kernel
/-- R284: a SIGNAL of 7 brings 3 units to LIMIT; a WAIT for 3 leaves none, one for 4 waits. -/
theorem test_units : (match exec (.signal 1) (onBuoy signalC) with | .next t => t.buoys.map (fun e => e.2.count) | _ => []) = [10, 0]
    ∧ (match exec (.wait 1) (onBuoy (waitC 3)) with | .next t => (t.buoys.map (fun e => e.2.count), t.dispatched.length) | _ => ([], 9)) = ([0, 0], 0)
    ∧ (match exec (.wait 1) (onBuoy (waitC 4)) with | .next t => (t.buoys.map (fun e => (e.2.count, e.2.waiters.length)), t.dispatched.length) | _ => ([], 9)) = ([(3, 1), (0, 0)], 1) := by
  decide +kernel
def overC : Dispatched := cmdOf Op.signal [(CmdBuoy.buoy, 5), (CmdBuoy.count, 8)]
/-- R286, R287: one unit too many, and a WAIT above LIMIT. -/
theorem test_buoy_errors : (named (onBuoy overC) overC).nextEvent ≠ 0 ∧ (parkedOn (waitC 11)).nextEvent ≠ 0 ∧ sem5.limit < sem5.count + 8 ∧ sem5.limit < 11
    ∧ (onBuoy (waitC 11)).cmd 1 Op.wait = some (waitC 11) ∧ (waitC 11).stage = .ready := by decide +kernel

def fill0 (d : Dispatched) : State := withCmd (stream (planned base) Ss.filling Cl.raw) d
def stowC : Dispatched := cmdOf Op.stow [(CmdStow.stream, 0), (CmdStow.tileCount, 2), (CmdStow.channel, 1), (CmdStow.source, 0x300000)]
def fetchC (k : Nat) : Dispatched := cmdOf Op.fetch [(CmdFetch.stream, 0), (CmdFetch.tileCount, 2), (CmdFetch.dest, 2), (CmdFetch.destKind, k)]
def ringUp (s : State) (q : Nat) : State :=
  let s := ((s.setCh Ch.cwState Cw.up).setCh Ch.qringBase 0x18000).setCh Ch.qringCount 5
  s.setFlds (s.ringBase 0 q) [(RingRec.state, 1), (RingRec.stages, 2), (RingRec.entriesLog2, 1), (RingRec.cols, 64)]
theorem test_transfers : (fill0 stowC).readyCmd 1 Op.stow = some stowC ∧ (fill0 stowC).cmdTiles 0 0 (cmdGet stowC.word CmdStow.tileCount) ≠ 0
    ∧ (fill0 stowC).dispatched.all (fun e => !(decide (e.tag < 1) && e.stage == .ready && cmdGet e.word Cmd.opcode == Op.stow && cmdGet e.word CmdStow.stream == 0)) = true
    ∧ (fill0 stowC).cls 0 ≠ Cl.drop ∧ (fill0 stowC).cls 0 ≠ Cl.regen ∧ (fill0 stowC).stateOf 0 = Ss.filling := by decide +kernel
def held0 (d : Dispatched) (cls : Nat) : State := withCmd (ringUp (stream (planned base) Ss.held cls) 2) d
def recomputeC : Dispatched := cmdOf Op.recompute [(CmdFetch.stream, 0), (CmdFetch.tileCount, 2), (CmdFetch.engine, 3), (CmdFetch.dest, 2), (CmdFetch.destKind, 1)]
def moveC : Dispatched := cmdOf Op.move [(CmdMove.bytes, 100), (CmdMove.src, 0x20000), (CmdMove.dst, 0x30000), (CmdMove.channel, 1)]
theorem test_fetches : (held0 (fetchC 1) Cl.raw).readyCmd 1 Op.fetch = some (fetchC 1) ∧ (held0 (fetchC 1) Cl.raw).cmdTiles 0 0 2 ≠ 0 ∧ (held0 (fetchC 1) Cl.raw).fetchable 0 = true
    ∧ cmdGet (fetchC 1).word CmdFetch.destKind ≠ 0 ∧ (held0 (fetchC 1) Cl.raw).ringOn 0 (cmdGet (fetchC 1).word CmdFetch.dest % 65536) = true
    ∧ (held0 recomputeC Cl.regen).readyCmd 1 Op.recompute = some recomputeC ∧ (held0 recomputeC Cl.regen).cls 0 = Cl.regen ∧ (held0 recomputeC Cl.regen).fetchable 0 = true
    ∧ (held0 recomputeC Cl.regen).cmdTiles 0 0 2 ≠ 0 ∧ (held0 recomputeC Cl.regen).ringOn 0 2 = true ∧ (held0 recomputeC Cl.regen).engineFree 3 = true
    ∧ (held0 recomputeC Cl.regen).engineCmdReady recomputeC = true ∧ (held0 recomputeC Cl.regen).engineTurn 3 0 = true
    ∧ (withCmd base moveC).readyCmd 1 Op.move = some moveC ∧ cmdGet moveC.word CmdMove.bytes ≠ 0 := by decide +kernel

/-- A table of seven symbols that satisfies Kraft's equality. -/
def lens7 : List Nat := (List.range 513).map (fun s => if s = 0 then 1 else if s = 0x7f then 2 else if s = 0x7e then 3 else if s = 0x17e then 4 else if s = 0x80 then 5 else if s = 512 then 5 else 0)
def loadC : Dispatched := cmdOf Op.tableLoad [(CmdTable.stream, noRef), (CmdTable.bytes, (serialTable 1 1 lens7).length), (CmdTable.source, 0x300000)]
def loading : State := withCmd (base.store 0x300000 (serialTable 1 1 lens7)) loadC
set_option maxRecDepth 100000 in
theorem test_table_load : loading.cmd 1 Op.tableLoad = some loadC ∧ loadC.stage = .ready ∧ cmdGet loadC.word CmdTable.bytes ≠ 0 ∧ cmdGet loadC.word CmdTable.kind = 0
    ∧ loading.filling 0x300000 (cmdGet loadC.word CmdTable.bytes) = false ∧ loading.failing 0x300000 (cmdGet loadC.word CmdTable.bytes) = none ∧ loading.sourceTable loadC = .ok (1, 1, lens7) ∧ cmdGet loadC.word CmdTable.stream = noRef
    ∧ loading.cmdContext loadC = loading.ch Ch.planOwner ∧ loading.slotFor 1 1 = some 0 ∧ loading.skerry.slotWait = [] := by decide +kernel
def buildC (n : Nat) : Dispatched := cmdOf Op.tableBuild [(CmdTable.stream, 0), (CmdTable.bytes, 1), (CmdTable.samples, n)]
def built (n : Nat) : State := withCmd (stream (planned base) Ss.unborn Cl.exact) (buildC n)
def passed : State :=
  let s := stream (planned base) Ss.filling Cl.exact
  s.modAux 0 (fun a => { a with pass := some ⟨none, 0, 1, 0, true, some 0, [(0, List.replicate 4096 0)], 0, 0⟩ })
def awaiting (w : SlotWaiter) : State := { built 0x300000 with skerry := { Skerry.reset with slotWait := [w] } }
set_option maxRecDepth 100000 in
theorem test_table_build : (built 0).cmd 1 Op.tableBuild = some (buildC 0) ∧ cmdGet (buildC 0).word CmdTable.samples = 0
    ∧ (built 0x300000).cmd 1 Op.tableBuild = some (buildC 0x300000) ∧ cmdGet (buildC 0x300000).word CmdTable.samples ≠ 0 ∧ cmdGet (buildC 0x300000).word CmdTable.kind = 0
    ∧ (built 0x300000).filling 0x300000 4096 = false ∧ (built 0x300000).failing 0x300000 4096 = none ∧ (built 0x300000).slotFor 0 ((built 0x300000).streamKind 0) = some 0 ∧ (built 0x300000).skerry.slotWait = []
    ∧ (awaiting (.pass 0)).skerry.slotWait = [.pass 0] ∧ (awaiting (.pass 0)).slotFor 0 ((awaiting (.pass 0)).streamKind 0) = some 0
    ∧ (awaiting (.cmd 1)).skerry.slotWait = [.cmd 1] ∧ (awaiting (.cmd 1)).dispatched.find? (fun e => e.tag == 1) = some (buildC 0x300000)
    ∧ (awaiting (.cmd 1)).slotFor 0 ((awaiting (.cmd 1)).streamKind (cmdGet (buildC 0x300000).word CmdTable.stream)) = some 0
    ∧ (passed.aux 0).pass = some ⟨none, 0, 1, 0, true, some 0, [(0, List.replicate 4096 0)], 0, 0⟩ ∧ min 1 (passed.tiles 0) ≤ 1 ∧ ¬ (passed.tiles 0 < 1 ∧ passed.stateOf 0 = Ss.filling) := by
  decide +kernel

/-! ### Plans and tasks -/

def planC (action : Nat) : Dispatched := cmdOf Op.planLoad [(CmdPlan.action, action), (CmdPlan.image, 0x100000)]
def inState (p action : Nat) : State := withCmd (base.setCh Ch.planState p) (planC action)
theorem test_plan_actions : (inState Pl.empty 1).planCmd 1 1 = some (planC 1) ∧ (inState Pl.empty 1).ch Ch.planState = Pl.empty ∧ (inState Pl.empty 1).ch Ch.replacePending = 0
    ∧ (inState Pl.running 2).planCmd 1 2 = some (planC 2) ∧ (inState Pl.running 2).ch Ch.planState = Pl.running ∧ (inState Pl.running 2).ch Ch.replacePending = 0
    ∧ (inState Pl.loaded 3).planCmd 1 3 = some (planC 3) ∧ (inState Pl.loaded 3).ch Ch.planState = Pl.loaded ∧ (inState Pl.loaded 3).ch Ch.replacePending = 0
    ∧ (inState Pl.stopped 4).planCmd 1 4 = some (planC 4) ∧ (inState Pl.stopped 4).ch Ch.planState = Pl.stopped ∧ (inState Pl.stopped 4).anyMarked = false
    ∧ (inState Pl.loaded 1).planCmd 1 1 = some (planC 1) ∧ (inState Pl.loaded 1).actionAllowed 1 = false
    ∧ (inState Pl.empty 2).actionAllowed 2 = false ∧ (inState Pl.running 3).actionAllowed 3 = false ∧ (inState Pl.loaded 4).actionAllowed 4 = false := by decide +kernel

/-- An image with a stream, a COMPUTE task that gates the STOW that produces it, and a FEED that waits for it. -/
def image : State :=
  let s := (base.setCh Ch.cwState Cw.up).setCh (Ch.cwState + 256) Cw.up
  let s := s.setFlds 0x100000 [(PlanHdr.planMagic, 0x4E414C50), (PlanHdr.formatGen, 3), (PlanHdr.headerBytes, 160), (PlanHdr.planEpoch, 1), (PlanHdr.groupPackages, 1),
    (PlanHdr.streamCount, 1), (PlanHdr.taskCount, 3), (PlanHdr.edgeCount, 2), (PlanHdr.imageBytes, 1024), (PlanHdr.streamOffset, 192), (PlanHdr.taskOffset, 256),
    (PlanHdr.edgeOffset, 512), (PlanHdr.startBuoy, 7), (PlanHdr.endBuoy, 8)]
  let s := s.setFlds 0x1000C0 [(StreamRec.byteLength, 8192), (StreamRec.consumers, 1), (StreamRec.sourceA, noRef), (StreamRec.sourceB, noRef), (StreamRec.classF, Cl.exact),
    (StreamRec.place, Pc.harbour), (StreamRec.elemType, 1), (StreamRec.need, 1)]
  let task := fun (s : State) (i kind exec : Nat) (l : List (Fld × Nat)) => s.setFlds (0x100100 + 64 * i) ([(TaskRec.taskKind, kind), (TaskRec.execKind, exec),
    (TaskRec.producer, noRef), (TaskRec.stream, noRef), (TaskRec.streamB, noRef), (TaskRec.shard, noRef), (TaskRec.slipSet, noRef), (TaskRec.tileCount, noRef)] ++ l)
  let s := task s 0 Tk.stow 2 [(TaskRec.stream, 0), (TaskRec.producer, 1), (TaskRec.tileCount, 2)]
  let s := task s 1 Tk.compute 1 [(TaskRec.signalCount, 1)]
  let s := task s 2 Tk.feed 2 [(TaskRec.stream, 0), (TaskRec.lookahead, 4), (TaskRec.waitCount, 1), (TaskRec.waitFirst, 1)]
  (s.setFlds 0x100200 [(EdgeRec.buoy, 100), (EdgeRec.count, 1), (EdgeRec.edgeKind, 2)]).setFlds 0x100210 [(EdgeRec.buoy, 100), (EdgeRec.count, 1), (EdgeRec.edgeKind, 1)]
def sealed (s : State) : State := s.store 0x100050 (imageDigest (s.rd 0x100000 160) (s.rd 0x1000A0 864))
def validating (s : State) : State := { withCmd (s.setCh Ch.planState Pl.loading) { planC 1 with stage := .underway } with plan := { Plan.reset with validating := some ⟨1, 0x100000, false⟩ } }
set_option maxRecDepth 100000 in
/-- A sound image passes; one whose digest does not match fails in its header. -/
theorem test_plan_images : (validating (sealed image)).cmd 1 Op.planLoad = some { planC 1 with stage := .underway } ∧ (validating (sealed image)).checkWords = []
    ∧ (validating (sealed image)).filling 0x100000 (max 160 ((validating (sealed image)).fld 0x100000 PlanHdr.imageBytes)) = false
    ∧ (validating (sealed image)).planFail 0x100000 false = none ∧ ((validating image).planFail 0x100000 false).isSome = true := by decide +kernel

def stepping (n : Nat) (st : Nat) : State := { withBuoys (planned base) with plan := { (planned base).plan with steps := (List.range n).map (fun k => ⟨k, [(0, st), (1, st), (2, st), (3, st)]⟩), stepsBegun := n } }
def allIn (n st : Nat) : Step := ⟨n, [(0, st), (1, st), (2, st), (3, st)]⟩
theorem test_steps : (stepping 1 Ts.done).ch Ch.planState = Pl.running ∧ (stepping 1 Ts.done).plan.steps.length < 2 ∧ (stepping 1 Ts.done).plan.stopping = false
    ∧ (stepping 1 Ts.done).plan.next = none ∧ (stepping 1 Ts.done).startUnit = some (0, sem5) ∧ (stepping 1 Ts.done).plan.steps = allIn 0 Ts.done :: []
    ∧ (List.range (stepping 1 Ts.done).taskCount).all (fun t => (allIn 0 Ts.done).tasks.getD t Ts.pending == Ts.done) = true
    ∧ 2 ≤ (stepping 2 Ts.pending).plan.steps.length ∧ (stepping 2 Ts.pending).plan.steps = allIn 0 Ts.pending :: [allIn 1 Ts.pending]
    ∧ 3 < (stepping 2 Ts.pending).taskCount ∧ (allIn 0 Ts.pending).tasks.getD 3 Ts.pending ≠ Ts.done := by decide +kernel
/-- R83: STEP_START takes one unit and begins step 1; STEP_END gives it back through END_BUOY and counts the step. -/
theorem test_step_rows : (match exec .stepStart (stepping 1 Ts.done) with | .next t => (t.plan.steps.map Step.num, t.buoys.map (fun e => e.2.count)) | _ => ([], [])) = ([0, 1], [2, 0])
    ∧ (match exec (.stepEnd 0) (stepping 1 Ts.done) with | .next t => (t.plan.steps.length, t.plan.stepCount, t.planHdr PlanHdr.stepCount, t.buoys.map (fun e => e.2.count)) | _ => (9, 0, 0, [])) = (0, 1, 1, [4, 0]) := by
  decide +kernel

/-- Task 0 of step 0 of a plan, with a kind and fields of its own. -/
def tasked (kind exec : Nat) (l : List (Fld × Nat)) (s : State) : State :=
  let s := { s with plan := { s.plan with steps := [⟨0, []⟩], stepsBegun := 1 } }
  [1, 2, 3].foldl (fun (s : State) k => s.setFlds (0x12000 + 64 * k) [(TaskRec.producer, noRef), (TaskRec.execKind, 15), (TaskRec.stream, noRef), (TaskRec.shard, noRef)])
    (s.setFlds 0x12000 ([(TaskRec.taskKind, kind), (TaskRec.execKind, exec), (TaskRec.producer, noRef), (TaskRec.slipSet, noRef), (TaskRec.shard, noRef), (TaskRec.stream, noRef),
      (TaskRec.tileCount, noRef)] ++ l))
def x0 : TaskRef := ⟨0, 0⟩
def there (s : State) : State := (s.arrive x0).1
def computeT : State := tasked Tk.compute 1 [] (planned base)
def reefT : State := tasked Tk.reefWrite 2 [(TaskRec.stream, 0)] (stream (planned base) Ss.held Cl.raw)
def prefetchT : State := tasked Tk.prefetch 2 [(TaskRec.stream, 0)] (stream (planned base) Ss.held Cl.raw)
def barrierT : State := tasked Tk.barrier 2 [] (planned base)
def stowT : State := tasked Tk.stow 2 [(TaskRec.stream, 0)] (stream (planned base) Ss.unborn Cl.raw)
def reduceT : State := tasked Tk.reduce 3 [(TaskRec.stream, 0)] (stream (planned base) Ss.unborn Cl.raw)
def feedT : State := tasked Tk.feed 2 [(TaskRec.stream, 0)] (ringUp (stream (planned base) Ss.held Cl.raw) 2)
def discardT : State := tasked Tk.discard 2 [(TaskRec.stream, 0)] (stream (planned base) Ss.held Cl.raw)
def digestT : State := tasked Tk.digest 2 [(TaskRec.shard, 0)] (planned base)
theorem test_task_compute : TaskMayStart computeT (there computeT) x0 Tk.compute
    ∧ ∀ y, y < (there computeT).taskCount → (there computeT).tf y TaskRec.producer = x0.task → (there computeT).taskState ⟨x0.step, y⟩ ≠ Ts.pending := by
  unfold TaskMayStart; decide +kernel
theorem test_task_reef : TaskMayStart reefT (there reefT) x0 Tk.reefWrite ∧ TaskMayStart prefetchT (there prefetchT) x0 Tk.prefetch ∧ TaskMayStart barrierT (there barrierT) x0 Tk.barrier := by
  unfold TaskMayStart; decide +kernel
theorem test_task_stow : stowT.tf 0 TaskRec.taskKind = Tk.stow ∧ 0 < stowT.taskCount ∧ TaskMayStart (stowT.reportWait x0 0) (there (stowT.reportWait x0 0)) x0 Tk.stow
    ∧ stowT.tf 0 TaskRec.stream = 0 ∧ State.mayProduce x0 0 (there (stowT.reportWait x0 0)) = true := by unfold TaskMayStart; decide +kernel
theorem test_task_reduce : reduceT.tf 0 TaskRec.taskKind = Tk.reduce ∧ 0 < reduceT.taskCount ∧ TaskMayStart (reduceT.reportWait x0 0) (there (reduceT.reportWait x0 0)) x0 Tk.reduce
    ∧ reduceT.tf 0 TaskRec.stream = 0 ∧ (there (reduceT.reportWait x0 0)).reduceReady x0 0 = true
    ∧ (there (reduceT.reportWait x0 0)).ch (Ch.engineState + 256 * (there (reduceT.reportWait x0 0)).execIndex 0) = 0 ∧ (there (reduceT.reportWait x0 0)).taskTurn x0 = true := by unfold TaskMayStart; decide +kernel
theorem test_task_feed : TaskMayStart feedT (there feedT) x0 Tk.feed ∧ (there feedT).ringFree ((there feedT).execIndex 0) ((there feedT).feedRing 0) = true
    ∧ TaskMayStart discardT (there discardT) x0 Tk.discard ∧ (there discardT).stateOf (discardT.tf 0 TaskRec.stream) ≠ Ss.filling
    ∧ TaskMayStart digestT (there digestT) x0 Tk.digest ∧ (there digestT).cascade.trees.contains ((there digestT).shf ((there digestT).tf 0 TaskRec.shard) ShardRec.shardId) = false := by
  unfold TaskMayStart; decide +kernel

def recomputeT : State := tasked Tk.recompute 3 [(TaskRec.stream, 0), (TaskRec.execIndex, 3)] (ringUp (stream (planned base) Ss.held Cl.regen) 1)
theorem test_task_recompute : recomputeT.feedAB (recomputeT.sf (recomputeT.tf 0 TaskRec.stream) StreamRec.die) = 1 ∧ recomputeT.tf 0 TaskRec.stream = 0 ∧ TaskMayStart recomputeT (there recomputeT) x0 Tk.recompute
    ∧ (there recomputeT).recomputeReady 0 = true ∧ (there recomputeT).engineFree (recomputeT.execIndex 0) = true ∧ (there recomputeT).taskTurn x0 = true
    ∧ ((there recomputeT).beginTask x0 none).ringOn (recomputeT.sf 0 StreamRec.die) 1 = true ∧ ((there recomputeT).beginTask x0 none).fetchable 0 = true := by
  unfold TaskMayStart; decide +kernel

/-- A table of sets, with a descriptor of no items at 0x400000 for set 1. -/
def withSets (s : State) : State :=
  let s := (s.setCh Ch.setsBase 0x40000).setCh Ch.setsCount 4
  let s := s.setFlds 0x40080 [(SetRec.descAddr, 0x400000)]
  s.setFlds 0x400000 [(SetDesc.setMagic, 0x54455352), (SetDesc.formatGen, 3), (SetDesc.destBytes, 65536), (SetDesc.destBase, 0x10500000), (SetDesc.treeBase, 0x10600000)]
def snapshotT : State := tasked Tk.snapshot 2 [(TaskRec.tileFirst, 1)] (withSets (planned base))
def begun : State := (there snapshotT).beginTask x0 none
theorem test_task_snapshot : snapshotT.tf 0 TaskRec.tileFirst = 1 ∧ begun.stf 1 SetRec.descAddr = 0x400000 ∧ TaskMayStart snapshotT (there snapshotT) x0 Tk.snapshot
    ∧ (there snapshotT).inOrder = [⟨0, 0⟩, ⟨0, 1⟩, ⟨0, 2⟩, ⟨0, 3⟩] ∧ (there snapshotT).stf 1 SetRec.state ≠ Sst.taking ∧ 1 < begun.ch Ch.setsCount ∧ begun.descInRegion 0x400000 = true
    ∧ begun.failing 0x400000 64 = none ∧ begun.setFault 1 0x400000 (begun.tf 0 TaskRec.context) 0 = none ∧ begun.setFault 1 0x400000 (begun.tf 0 TaskRec.context) 1 = none := by
  unfold TaskMayStart; decide +kernel
/-- No task stands before task 0 of step 0, and SET_KIND, a free value, is 0 or 1: the conditions of a SNAPSHOT task hold for either. -/
theorem test_task_snapshot_kind : (∀ y ∈ (there snapshotT).inOrder, (y.step < 0 ∨ (y.step = 0 ∧ y.task < 0)) → (there snapshotT).taskState y = Ts.done ∨ (there snapshotT).taskState y = Ts.notRun)
    ∧ begun.setFault 1 0x400000 (begun.tf 0 TaskRec.context) ((Config.freeByte begun.freeCount).toNat % 2) = none := by
  refine ⟨fun y _ h => absurd h (by omega), ?_⟩
  rcases Nat.mod_two_eq_zero_or_one (Config.freeByte begun.freeCount).toNat with h | h <;> rw [h]
  · exact test_task_snapshot.2.2.2.2.2.2.2.2.1
  · exact test_task_snapshot.2.2.2.2.2.2.2.2.2

def sendT : State := tasked Tk.exchange 2 [(TaskRec.stream, 0)] (stream (planned base) Ss.held Cl.raw)
/-- The state record of shard 0: 32 parameters in binary32, its buffers and its argument block. -/
def withShard (s : State) (l : List (Fld × Nat)) : State :=
  let s := (s.setCh Ch.ostateBase 0x50000).setCh Ch.ostateCount 1
  let s := s.setFlds 0x15000 [(ShardRec.slots, 4), (ShardRec.slotBytes, 4096), (ShardRec.base, 0x700000), (ShardRec.currentVersion, 0)]
  s.setFlds 0x50000 ([(OptRec.rows, 1), (OptRec.cols, 32), (OptRec.gradType, 3), (OptRec.weightType, 3), (OptRec.landSlots, 2), (OptRec.landBase, 0x710000), (OptRec.accBase, 0x720000),
    (OptRec.args, 0x730000), (OptRec.stateBase, 0x740000), (OptRec.stageBase, 0x750000), (OptRec.statePlace, 2)] ++ l)
def gradientT : State := (tasked Tk.exchange 2 [(TaskRec.shard, 0), (TaskRec.phase, 1)] (withShard (planned base) [])).setFlds 0x12040 [(TaskRec.taskKind, Tk.update), (TaskRec.shard, 0)]
theorem test_task_exchange : TaskMayStart sendT (there sendT) x0 Tk.exchange ∧ sendT.exStream 0 ≠ noRef ∧ sendT.exReceives 0 = false ∧ ((there sendT).beginTask x0 none).stateOf (sendT.exStream 0) = Ss.held := by
  unfold TaskMayStart; decide +kernel
theorem test_task_gradient : TaskMayStart gradientT (there gradientT) x0 Tk.exchange ∧ gradientT.exStream 0 = noRef ∧ gradientT.shardOpt (gradientT.tf 0 TaskRec.shard) = some 0x50000
    ∧ gradientT.exGradient 0 = true ∧ (there gradientT).windowReady x0 0 0x50000 = true := by unfold TaskMayStart; decide +kernel
def updateT : State := tasked Tk.update 3 [(TaskRec.shard, 0), (TaskRec.execIndex, 2), (TaskRec.phase, 2)] (withShard (planned base) [])
def updating : State := State.updateWork x0 0 0x50000 ((there updateT).beginTask x0 none)
theorem test_task_update : updateT.tf 0 TaskRec.shard = 0 ∧ updateT.shardOpt 0 = some 0x50000 ∧ TaskMayStart updateT (there updateT) x0 Tk.update ∧ (there updateT).engineFree ((there updateT).execIndex 0) = true
    ∧ (there updateT).updateReady x0 0 0x50000 = true ∧ (there updateT).taskTurn x0 = true
    ∧ (there updateT).slotUnpinned 0 (updateT.newVersion x0) (some x0) = true ∧ updating.run x0 ≠ none := by unfold TaskMayStart; decide +kernel

/-! The ends of tasks. -/

def running (x : TaskRef) (fin : Bool) (s : State) : State := { s with plan := { s.plan with runs := [⟨x, fin, none, false, none, true⟩] } }
theorem test_task_ends : ((running x0 true barrierT).run x0).any TaskRun.finished = true ∧ barrierT.tf 0 TaskRec.taskKind ≠ Tk.compute ∧ barrierT.tf 0 TaskRec.taskKind ≠ Tk.update
    ∧ barrierT.writesVersion 0 = false ∧ (running x0 true barrierT).cls (barrierT.tf 0 TaskRec.stream) ≠ Cl.regen
    ∧ ((running x0 true updateT).run x0).any TaskRun.finished = true ∧ (running x0 true updateT).tf 0 TaskRec.taskKind = Tk.update
    ∧ (running x0 false computeT).computing 0 = some x0 ∧ ((running x0 false computeT).run x0).any TaskRun.finished = false := by decide +kernel
def feeding (src : ItemFrom) : Consumer := ⟨7, src, 0, false, 0, 2, 4, 1, 1, 1, 0, some 1, 0, false, false, 1, true, 0, 0, false, false, []⟩
def starved : State := { running x0 false computeT with skerry := { Skerry.reset with consumers := [feeding (.task ⟨0, 1⟩)] } }
theorem test_task_suspend : starved.computing 0 = some x0 ∧ (starved.run x0).any TaskRun.finished = false ∧ feeding (.task ⟨0, 1⟩) ∈ starved.skerry.consumers
    ∧ (feeding (.task ⟨0, 1⟩)).die = 0 ∧ (feeding (.task ⟨0, 1⟩)).ring.isSome = true ∧ (feeding (.task ⟨0, 1⟩)).shard = false
    ∧ (feeding (.task ⟨0, 1⟩)).taken = (feeding (.task ⟨0, 1⟩)).filled ∧ (feeding (.task ⟨0, 1⟩)).filled < (feeding (.task ⟨0, 1⟩)).count ∧ ∃ y : TaskRef, (feeding (.task ⟨0, 1⟩)).source = .task y ∧ y.step = x0.step := by
  refine ⟨?_, ?_, ?_, ?_, ?_, ?_, ?_, ?_, ⟨0, 1⟩, rfl, rfl⟩ <;> decide +kernel
def lateT : State := tasked Tk.feed 2 [(TaskRec.stream, 0)] (stream (planned base) Ss.filling Cl.raw)
theorem test_task_late : lateT.atHead x0 = true ∧ 0 < lateT.taskCount ∧ lateT.arrive x0 = (there lateT, none) ∧ (there lateT).stillLate x0 = true := by decide +kernel
/-- The first contribution of a window has landed, in the buffer or (of a peer, in binary32, the gradients being BF16) beside it. -/
def landed (et : Nat) (wide : List Byte) : State := (tasked Tk.compute 1 [(TaskRec.shard, 0), (TaskRec.phase, 1)] (withShard (planned base) [(OptRec.delay, 1), (OptRec.gradType, et)])).modShard 0
  (fun z => { z with landings := [⟨0, 0, 128, wide⟩] })
def staging : State := (withShard (planned base) [(OptRec.statePlace, 3), (OptRec.delay, 1), (OptRec.secFmt1, 0)]).modShard 0 (fun z => { z with complete := [(0, 0)] })
theorem test_state_staged : 0 < staging.shardCount ∧ staging.shardOpt 0 = some 0x50000 ∧ staging.planLoaded = true ∧ staging.mayStage 0 0x50000 = true
    ∧ (staging.reefRead (staging.fld 0x50000 OptRec.stateBase) (staging.stateSize 0x50000)).2 = .ok [] := by decide +kernel
theorem test_contribution : ∀ p ∈ [(3, []), (1, List.replicate 128 0)], 0 < (landed p.1 p.2).shardCount ∧ (landed p.1 p.2).shardOpt 0 = some 0x50000 ∧ (landed p.1 p.2).landRemote 0 0x50000 = landed p.1 p.2
    ∧ ((landed p.1 p.2).shard 0).open_ = 0 ∧ (landed p.1 p.2).fld 0x50000 OptRec.added = 0 ∧ (landed p.1 p.2).gradBytes 0x50000 ≤ 128
    ∧ (∀ m ∈ ((landed p.1 p.2).shard 0).landings, (landed p.1 p.2).gradBytes 0x50000 ≤ m.filled → 0 < m.window ∨ (m.window = 0 ∧ 0 ≤ m.index))
    ∧ ((landed p.1 p.2).shard 0).landings.find? (fun n => n.window == 0 && n.index == 0 && decide ((landed p.1 p.2).gradBytes 0x50000 ≤ n.filled)) = some ⟨0, 0, 128, p.2⟩
    ∧ (landed p.1 p.2).bufferHeld 0 0x50000 0 = false ∧ (p.2 = [] → (landed p.1 p.2).failingSectors ((landed p.1 p.2).landBuf 0x50000 0) ((landed p.1 p.2).gradBytes 0x50000) = []) := by decide +kernel

/-! ### Sets, shards -/

def snapC : Dispatched := cmdOf Op.snapshot [(CmdSet.set, 1)]
def inSet (st : Nat) (d : Dispatched) : State := withCmd ((withSets (planned base)).setFlds 0x40080 [(SetRec.state, st), (SetRec.destBase, 0x10500000), (SetRec.copyBytes, 65536)]) d
theorem test_snapshot : (inSet Sst.empty snapC).readyCmd 1 Op.snapshot = some snapC ∧ (inSet Sst.empty snapC).stf (cmdGet snapC.word CmdSet.set) SetRec.descAddr = 0x400000
    ∧ cmdGet snapC.word CmdSet.descriptor = 0 ∧ 1 < (inSet Sst.empty snapC).ch Ch.setsCount ∧ (inSet Sst.empty snapC).descInRegion 0x400000 = true
    ∧ (inSet Sst.empty snapC).filling 0x400000 (64 + 32 * min ((inSet Sst.empty snapC).fld 0x400000 SetDesc.itemCount) 2040) = false
    ∧ (inSet Sst.empty snapC).failing 0x400000 (64 + 32 * min ((inSet Sst.empty snapC).fld 0x400000 SetDesc.itemCount) 2040) = none
    ∧ (inSet Sst.empty snapC).setFault 1 0x400000 ((inSet Sst.empty snapC).cmdContext snapC) 0 = none := by decide +kernel
def restoreC : Dispatched := cmdOf Op.restore [(CmdSet.set, 1)]
def restoring : State := (inSet Sst.complete restoreC).setCh Ch.planState Pl.loaded
theorem test_restore : restoring.readyCmd 1 Op.restore = some restoreC ∧ 1 < restoring.ch Ch.setsCount ∧ restoring.stf 1 SetRec.state = Sst.complete
    ∧ restoring.stf 1 SetRec.context = restoring.cmdContext restoreC ∧ cmdGet restoreC.word CmdSet.setKind ≠ 1 ∧ restoring.ch Ch.planState ≠ Pl.loading ∧ restoring.ch Ch.planState ≠ Pl.running
    ∧ (restoring.setStf 1 SetRec.state Sst.restoring).stf 1 SetRec.destKind = 0 ∧ (restoring.setStf 1 SetRec.state Sst.restoring).failing 0x10500000 65536 = none := by decide +kernel
def digestC : Dispatched := cmdOf Op.digest [(CmdDigest.base, 0x10500000), (CmdDigest.bytes, 65536), (CmdDigest.result, 0x10600000)]
def compareC : Dispatched := cmdOf Op.compare [(CmdCompare.bytes, 8), (CmdCompare.a, 0x20000), (CmdCompare.b, 0x30000)]
theorem test_digest_compare : (withCmd base digestC).readyCmd 1 Op.digest = some digestC ∧ cmdGet digestC.word CmdDigest.bytes ≠ 0 ∧ (withCmd base digestC).firstOutside 0x10500000 65536 = none
    ∧ (withCmd base digestC).firstOutside 0x10600000 32 = none ∧ (withCmd base digestC).offending 0x10600000 32 true = none ∧ (withCmd base digestC).filling 0x10500000 65536 = false ∧ (withCmd base digestC).failing 0x10500000 65536 = none
    ∧ (withCmd base digestC).mergeFails 0x10600000 32 = none
    ∧ (withCmd base compareC).readyCmd 1 Op.compare = some compareC ∧ cmdGet compareC.word CmdCompare.bytes ≠ 0 ∧ cmdGet compareC.word CmdCompare.mode ≠ 1
    ∧ (withCmd base compareC).filling 0x20000 8 = false ∧ (withCmd base compareC).filling 0x30000 8 = false ∧ (withCmd base compareC).failing 0x20000 8 = none ∧ (withCmd base compareC).failing 0x30000 8 = none := by decide +kernel
/-- COMPARE: the eighth byte is the first that differs. -/
theorem test_compare_offset : firstDifference [1, 2, 3, 4] [1, 2, 3, 4] = none ∧ firstDifference [1, 2, 3, 4] [1, 2, 9, 4] = some 2 := by decide +kernel
def copying : State := { inSet Sst.taking snapC with sets := [(1, { SetAux.fresh with pages := [0], content := [] })] }
def adoptR : Req := wr 48 (word [(⟨31, 0⟩, 1), (⟨127, 64⟩, 0x10500000)])
def adopting : State :=
  (inSet Sst.empty snapC).setFlds 0x10500080 [(SetDesc.setMagic, 0x54455352), (SetDesc.formatGen, 3)]
theorem test_page_copy : copying.stf 1 SetRec.state = Sst.taking ∧ 1 < copying.ch Ch.setsCount ∧ (copying.setAt 1).pages = 0 :: [] := by decide +kernel
set_option maxRecDepth 200000 in
theorem test_adopt : adoptR.value % 2 ^ 32 = 1 ∧ Fld.get ⟨127, 64⟩ adoptR.value = 0x10500000 ∧ ChecksPass adopting 0x8000 4 adoptR ∧ Fld.get ⟨39, 32⟩ adoptR.value = 0
    ∧ Fld.get ⟨63, 40⟩ adoptR.value = 0 ∧ 1 < adopting.ch Ch.setsCount ∧ adopting.stf 1 SetRec.state = Sst.empty ∧ adopting.failing 0x10500000 65536 = none
    ∧ adopting.firstOutside 0x10500000 65536 = none ∧ adoptable (adopting.rd 0x10500000 65536) = true ∧ SetRec.copyBytes.get (adopting.rdNat 0x10500000 128) = 0
    ∧ (adopting.adoptBegins 1 0 0x10500000 0 0 (adopting.rd 0x10500000 65536)).failing 0x10500000 0 = none
    ∧ (adopting.adoptBegins 1 0 0x10500000 0 0 (adopting.rd 0x10500000 65536)).firstOutside 0x10500000 0 = none := by unfold ChecksPass; decide +kernel
def dropR : Req := wr 8 (word [(⟨43, 32⟩, 1), (actF, 1)])
theorem test_drop : Fld.get ⟨43, 32⟩ dropR.value = 1 ∧ ChecksPass (inSet Sst.broken snapC) 0x8000 5 dropR ∧ actionIs dropR actF 1 = true ∧ onlyBits dropR.value [⟨43, 32⟩, actF] = true
    ∧ 1 < (inSet Sst.broken snapC).ch Ch.setsCount ∧ (inSet Sst.broken snapC).stf 1 SetRec.state = Sst.broken := by unfold ChecksPass; decide +kernel

def exportC : Dispatched := cmdOf Op.exportC [(CmdExport.object, 0), (CmdExport.channel, 1), (CmdExport.objectKind, 1), (CmdExport.bytes, 8192), (CmdExport.address, 0x800000)]
def importC : Dispatched := cmdOf Op.importC [(CmdExport.object, 0), (CmdExport.channel, 1), (CmdExport.objectKind, 1), (CmdExport.bytes, 8192), (CmdExport.address, 0x800000)]
def channels (s : State) (st : Nat) (l : List (Fld × Nat)) : State :=
  ((s.setCh Ch.chtableBase 0x60000).setCh Ch.chtableCount 8).setFlds 0x60040 ((ChanRec.state, st) :: l)
def shards (d : Dispatched) : State := withCmd ((channels (withShard (planned base) []) Cn.idle []).setCh Ch.planState Pl.loaded) d
set_option maxRecDepth 100000 in
theorem test_export : (shards exportC).readyCmd 1 Op.exportC = some exportC ∧ cmdGet exportC.word CmdExport.bytes ≠ 0 ∧ (shards exportC).replicaRefused exportC.word = none := by decide +kernel
set_option maxRecDepth 100000 in
theorem test_import : (shards importC).readyCmd 1 Op.importC = some importC ∧ cmdGet importC.word CmdExport.bytes ≠ 0 ∧ (shards importC).replicaRefused importC.word = none
    ∧ cmdGet importC.word CmdExport.objectKind ≠ 0 := by decide +kernel
/-- IMPORT of stream 0, UNBORN and of 8,192 bytes. -/
def importS : Dispatched := cmdOf Op.importC [(CmdExport.object, 0), (CmdExport.channel, 1), (CmdExport.objectKind, 0), (CmdExport.bytes, 8192), (CmdExport.address, 0x800000)]
def importing : State := withCmd ((channels (stream (planned base) Ss.unborn Cl.raw) Cn.idle []).setCh Ch.planState Pl.loaded) importS
set_option maxRecDepth 100000 in
theorem test_import_stream : importing.readyCmd 1 Op.importC = some importS ∧ importing.replicaRefused importS.word = none ∧ cmdGet importS.word CmdExport.objectKind = 0
    ∧ cmdGet importS.word CmdExport.bytes ≠ 0 ∧ cmdGet importS.word CmdExport.remote = 0 ∧ importing.cls 0 ≠ Cl.drop ∧ importing.cls 0 ≠ Cl.regen
    ∧ (match importing.fillWhole 0 with | .filling _ => true | _ => false) = true := by decide +kernel
/-- Channel 1 is READY with the item of the command, and its lane is free. -/
def carryItem : WorkItem := ⟨5, 1, .cmd 1, .carry 1, 0, 0, none⟩
def carrying (d : Dispatched) : State := let s := withCmd ((channels (withShard (planned base) []) Cn.ready []).setCh Ch.planState Pl.loaded) d; { s with ferry := { s.ferry with items := [carryItem] } }
set_option maxRecDepth 100000 in
theorem test_carry_export : (carrying exportC).lane 0 = none ∧ (carrying exportC).nextItem 0 = some carryItem
    ∧ ((carrying exportC).runItem 0 carryItem .done).dispatched.find? (fun e => e.tag == 1) = some exportC ∧ ((carrying exportC).runItem 0 carryItem .done).replicaRefused exportC.word = none
    ∧ cmdGet exportC.word CmdExport.objectKind = 1 ∧ ((carrying exportC).runItem 0 carryItem .done).shardOpt (cmdGet exportC.word CmdExport.object) = some 0x50000
    ∧ ((((carrying exportC).runItem 0 carryItem .done).setStage 1 .underway (((carrying exportC).runItem 0 carryItem .done).exportedVersion exportC.word)).exportPayload 0 0x50000).2.2 = none ∧ ((((carrying exportC).runItem 0 carryItem .done).setStage 1 .underway (((carrying exportC).runItem 0 carryItem .done).exportedVersion exportC.word)).exportPayload 0 0x50000).1.checkWords = [] := by decide +kernel
set_option maxRecDepth 100000 in
theorem test_carry_import : (carrying importC).lane 0 = none ∧ (carrying importC).nextItem 0 = some carryItem ∧ ((carrying importC).runItem 0 carryItem .done).dispatched.find? (fun e => e.tag == 1) = some importC
    ∧ cmdGet importC.word CmdExport.remote = 0 ∧ ((carrying importC).runItem 0 carryItem .done).failing 0x800000 (cmdGet importC.word CmdExport.bytes) = none := by decide +kernel
def updateC : Dispatched := cmdOf Op.update [(CmdUpdate.shard, 0), (CmdUpdate.engine, 3), (CmdUpdate.grad, 0x760000)]
theorem test_update : (shards updateC).readyCmd 1 Op.update = some updateC ∧ (shards updateC).shardOpt 0 = some 0x50000 ∧ ((shards updateC).shf 0 ShardRec.currentVersion + 1) % 65536 = 1
    ∧ cmdGet updateC.word CmdUpdate.args = 0 ∧ (shards updateC).fld 0x50000 OptRec.args = 0x730000 ∧ (shards updateC).reefState 0x50000 = false ∧ (shards updateC).engineFree 3 = true ∧ (shards updateC).engineTurn 3 0 = true
    ∧ (shards updateC).slotUnpinned 0 1 none = true ∧ ((shards updateC).shard 0).abortNext = false ∧ (shards updateC).updateFailing 0 0x50000 1 0x760000 0x730000 = none := by decide +kernel

/-! ### Queues, channels, rings -/

/-- Queue 0 of two in a state, its rings at 0x81000 and 0x82000, with a command at its head. -/
def queued (st : Nat) : State :=
  let s := (((base.setCh Ch.qtableBase 0x80000).setCh Ch.qtableCount 2).setCh Ch.powerState 7).setCh Ch.mcState 2
  let s := s.setFlds 0x80000 [(QueueDesc.sqBase, 0x81000), (QueueDesc.cqBase, 0x82000), (QueueDesc.entriesLog2, 4), (QueueDesc.state, st), (QueueDesc.sqTail, if st = Qs.enabled then 1 else 0)]
  s.setFlds 0x81000 [(Cmd.opcode, Op.nop), (Cmd.version, 3)]
def bell (kind index : Nat) : BitVec 64 := BitVec.ofNat 64 (word [(DoorbellWord.kind, kind), (DoorbellWord.index, index)])
theorem test_doorbells : DoorbellWord.kind.get (bell 0 2).toNat = 0 ∧ (queued Qs.enabled).doorbellFault .serverCores (bell 0 2).toNat 8 true = 0
    ∧ DoorbellWord.kind.get (bell 1 0).toNat = 1 ∧ (queued Qs.enabled).doorbellFault .serverCores (bell 1 0).toNat 8 true = 0
    ∧ (queued Qs.enabled).doorbellFault .serverCores (bell 0 2).toNat 4 true ≠ 0 ∧ (queued Qs.disabled).doorbellFault .serverCores (bell 1 0).toNat 8 true ≠ 0 := by decide +kernel
/-- R118: sixteen slots hold commands up to index 16 and no further. -/
theorem test_doorbell_bounds : (match exec (.submissionDoorbell .serverCores (bell 0 16) 8 true) (queued Qs.enabled) with | .next t => (t.q 0 QueueDesc.sqTail, t.queueState 0) | _ => (0, 0)) = (16, Qs.enabled)
    ∧ (match exec (.submissionDoorbell .serverCores (bell 0 17) 8 true) (queued Qs.enabled) with | .next t => (t.queueState 0, t.q 0 QueueDesc.errorCause) | _ => (0, 0)) = (Qs.error, 1) := by decide +kernel
def queueR (a : Nat) : Req := wr 8 (word [(QueueCtl.queue, 0), (actF, a)])
theorem test_dispatch : (queued Qs.enabled).pilotRuns = true ∧ (queued Qs.enabled).ch Ch.powerState = 7 ∧ (∀ p ∈ (queued Qs.enabled).offering, (queued Qs.enabled).slotFree p = true)
    ∧ State.nextQueue { (queued Qs.enabled).countSticky Ch.cqWaits 0 with cqWaiting := [] } (queued Qs.enabled).offering = some (0, 0) ∧ (queued Qs.enabled).checkWords = []
    ∧ (match exec (.commandDispatch ⟨.ok, .ok⟩) (queued Qs.enabled) with | .next t => (t.dispatched.map Dispatched.tag, t.q 0 QueueDesc.sqHead) | _ => ([], 0)) = ([State.reset.nextTag], 1) := by decide +kernel
/-- R131: the version is checked before the opcode, the opcode before the context, the context before the class. -/
theorem test_check_order : cmdFormat 3 0 0 (word [(Cmd.version, 2), (Cmd.opcode, 0x3E), (Cmd.context, 1)]) = some (St.badVersion, 2)
    ∧ cmdFormat 3 0 0 (word [(Cmd.version, 3), (Cmd.opcode, 0x3E), (Cmd.context, 1)]) = some (St.badOpcode, 0)
    ∧ cmdFormat 3 0 2 (word [(Cmd.version, 3), (Cmd.opcode, Op.nop), (Cmd.context, 1)]) = some (St.contextMismatch, 0)
    ∧ cmdFormat 3 0 2 (word [(Cmd.version, 3), (Cmd.opcode, Op.nop), (Cmd.urgency, 1)]) = some (St.urgencyDenied, 2)
    ∧ cmdFormat 3 0 2 (word [(Cmd.version, 3), (Cmd.opcode, Op.nop), (Cmd.urgency, 2)]) = none := by decide +kernel
theorem test_checked : cmdGet ((queued Qs.enabled).headCommand 0) Cmd.version = 3 ∧ (bodyFields (cmdGet ((queued Qs.enabled).headCommand 0) Cmd.opcode)).isSome = true
    ∧ cmdFormat 3 0 0 (((queued Qs.enabled).setFlds 0x81000 [(Cmd.context, 1)]).headCommand 0) = some (St.contextMismatch, 0)
    ∧ cmdGet ((queued Qs.enabled).headCommand 0) Cmd.context = 0 ∧ cmdGet ((queued Qs.enabled).headCommand 0) Cmd.urgency ≠ 3 := by decide +kernel
theorem test_queue_controls : ChecksPass (queued Qs.disabled) 0x1121 1 (queueR 1) ∧ actionIs (queueR 1) actF 1 = true ∧ onlyBits (queueR 1).value [QueueCtl.queue, actF] = true
    ∧ 0 < (queued Qs.disabled).ch Ch.qtableCount ∧ (queued Qs.disabled).queueState 0 = Qs.disabled ∧ (queued Qs.disabled).failing ((queued Qs.disabled).queueBase 0) 64 = none
    ∧ (queued Qs.disabled).queueValid 0 = true
    ∧ ChecksPass (queued Qs.enabled) 0x1121 1 (queueR 2) ∧ actionIs (queueR 2) actF 2 = true ∧ onlyBits (queueR 2).value [QueueCtl.queue, actF] = true ∧ (queued Qs.enabled).queueState 0 = Qs.enabled := by
  unfold ChecksPass; decide +kernel
def recording : State := withCmd (queued Qs.enabled) nopC
theorem test_record_place : recording.readyCmd 1 Op.nop = some nopC ∧ recording.memWf = true ∧ recording.checkWords = [] ∧ recording.plan.lateSeen = [] ∧ cmdGet nopC.word Cmd.signal = 0
    ∧ cmdGet nopC.word Cmd.noRecord = 0 ∧ recording.queueState 0 = Qs.enabled ∧ recording.q 0 QueueDesc.cqBase + 16 * (recording.q 0 QueueDesc.cqTail % recording.ringSize 0) = 0x82000
    ∧ recording.queueBase 0 + 64 ≤ 0x82000 := by decide +kernel
/-- R138: PHASE is the lowest bit of the record, 1 in the first round of the ring. -/
theorem test_record : (match exec (.nop 1) recording with | .next t => (t.rdNat 0x82000 16 == complRecord 1 0 0 0 St.success Op.nop 0, t.q 0 QueueDesc.cqTail, t.dispatched) | _ => (false, 0, [])) = (true, 1, []) := by
  decide +kernel

def chanR (a : Nat) : Req := wr 8 (word [(ChanCtl.channel, 1), (actF, a)])
theorem test_channel_enable : ChanCtl.channel.get (chanR 1).value = 1 ∧ ChecksPass (channels base Cn.disabled []) 0x5001 0 (chanR 1) ∧ onlyBits (chanR 1).value [ChanCtl.channel, actF] = true
    ∧ 1 < (channels base Cn.disabled []).ch Ch.chtableCount ∧ actionIs (chanR 1) actF 1 = true ∧ (channels base Cn.disabled []).chf 1 ChanRec.state = Cn.disabled
    ∧ (channels base Cn.disabled []).failing ((channels base Cn.disabled []).chan 1) 64 = none
    ∧ (channels base Cn.disabled []).contextExists (ChanRec.context.get ((channels base Cn.disabled []).rdNat ((channels base Cn.disabled []).chan 1) 64)) = true
    ∧ (∀ f ∈ ChanRec.rsvd ++ ChanRec.cFields, f.get ((channels base Cn.disabled []).rdNat ((channels base Cn.disabled []).chan 1) 64) = 0) := by unfold ChecksPass; decide +kernel
theorem test_channel_controls : (∀ p ∈ [(2, Cn.idle), (3, Cn.running), (3, Cn.ready), (4, Cn.stopped), (4, Cn.halted), (5, Cn.stopped), (5, Cn.halted), (6, Cn.idle)],
      (channels base p.2 []).slotBusy (chanR p.1).path = false ∧ (channels base p.2 []).writeStatus 0x5001 0 (chanR p.1) ⟨true, true, true, id⟩ = Cs.ok
      ∧ onlyBits (chanR p.1).value [ChanCtl.channel, actF] = true ∧ actionIs (chanR p.1) actF p.1 = true ∧ (channels base p.2 []).chf 1 ChanRec.state = p.2)
    ∧ (channels base Cn.idle []).planUsesChannel 1 = false := by decide +kernel
def armR : Req := wr 8 0x90000
def armed (st : Nat) : State := (channels base st []).setSelected (.mailbox 0) Ch.armChannel 1
/-- ARM joins in every state but HALTED, DISABLED among them (R165). -/
theorem test_arm : ∀ st ∈ [Cn.disabled, Cn.idle, Cn.running, Cn.stopping, Cn.stopped], (armed st).selected armR.path Ch.armChannel = 1 ∧ (armed st).slotBusy armR.path = false
    ∧ (armed st).writeStatus 0x5002 2 armR ⟨true, true, true, id⟩ = Cs.ok ∧ armR.value % 64 = 0 ∧ inHarbour armR.value = true ∧ 1 < (armed st).ch Ch.chtableCount ∧ (armed st).chf 1 ChanRec.state ≠ Cn.halted := by
  decide +kernel

/-- A chain of one descriptor that moves 512 bytes, at 0x90000, on channel 1. -/
def chained (st : Nat) (l : List (Fld × Nat)) : State :=
  let s := { channels base st l with ferry := { Ferry.reset with items := [⟨3, 1, .armed, .chain 0x90000, 1, 0, none⟩], nextId := 4 } }
  (s.setCh Ch.stageSlots 8).setFlds 0x90000 [(Desc.src, 0x20000), (Desc.dst, 0x30000), (Desc.len0, 512), (Desc.count1, 1), (Desc.count2, 1)]
def runsLane (issued : List IssuedDesc) (next : NextDesc) : LaneRun := ⟨3, issued, next, none, 0, 0, 0, 0, 0, 0, false⟩
def laned (st : Nat) (l : List (Fld × Nat)) (issued : List IssuedDesc) (next : NextDesc) : State :=
  { chained st l with ferry := { (chained st l).ferry with lanes := [(0, runsLane issued next)] } }
def desc0 : IssuedDesc := IssuedDesc.begin_ 0x90000 ((chained Cn.running []).rdNat 0x90000 64) .copy
theorem test_lane_takes : (chained Cn.ready []).lane 0 = none ∧ (chained Cn.ready []).nextItem 0 = some ⟨3, 1, .armed, .chain 0x90000, 1, 0, none⟩
    ∧ WorkItem.messages ⟨3, 1, .armed, .chain 0x90000, 1, 0, none⟩ = false ∧ (chained Cn.ready []).slotsReserved + (chained Cn.ready []).slotsFor ⟨3, 1, .armed, .chain 0x90000, 1, 0, none⟩ ≤ (chained Cn.ready []).ch Ch.stageSlots := by decide +kernel
def going : State := laned Cn.running [] [desc0] .done
def resting : State := laned Cn.running [] [] (.at 0x90000)
theorem test_request : going.lane 0 = some (runsLane [desc0] .done) ∧ (runsLane [desc0] .done).failing = none ∧ going.item 3 = some ⟨3, 1, .armed, .chain 0x90000, 1, 0, none⟩
    ∧ going.nextRequest 0 (runsLane [desc0] .done) = some (0, false)
    ∧ resting.lane 0 = some (runsLane [] (.at 0x90000)) ∧ (runsLane [] (.at 0x90000)).failing = none ∧ resting.item 3 = some ⟨3, 1, .armed, .chain 0x90000, 1, 0, none⟩
    ∧ resting.nextRequest 0 (runsLane [] (.at 0x90000)) = none := by decide +kernel
def weight : Consumer := { feeding (.task x0) with shard := true, ring := some 4, stream := 0, asked := 0, filled := 0, taken := 0, look := 4 }
def weighing : State := { withShard (ringUp (planned base) 4) [] with skerry := { Skerry.reset with consumers := [weight] } }
theorem test_quay_reads : weighing.skerry.consumers.find? (fun c => c.shard && c.die == 0 && decide (c.asked < c.count)) = some weight ∧ weighing.skips weight weight.asked = false
    ∧ weighing.weightPiece 0 = some (weight, 0) ∧ weighing.poolRoom 256 false = true ∧ weighing.mustWait (.quay 0) false = false ∧ weighing.filling (weighing.slotBase weight.stream weight.version + 4096 * weight.first + 256 * 0) 256 = false ∧ 0 % 16 ≠ 15 := by decide +kernel
theorem test_pacing : (going.setCh (Ch.timerPeriod + 2) 100).ch (Ch.timerPeriod + 2) ≠ 0 := by decide +kernel
def asked : Request := ⟨9, 0, 0, false, 0x20000, 256, 0, 0, false, [], false⟩
def answering : State := { going with ferry := { going.ferry with requests := [asked], nextReq := 10 } }
theorem test_response : answering.request 9 = some asked ∧ asked.lane < 256 ∧ answering.lane asked.lane = some (runsLane [desc0] .done) ∧ answering.onLink asked = false := by decide +kernel
def shadowing : State := laned Cn.running [(ChanRec.shadowValid, 1), (ChanRec.shadow, 0x91000)] [] .done
def stopping : State := laned Cn.stopping [] [] (.at 0x90040)
theorem test_boundaries : shadowing.headItem 1 = some ⟨3, 1, .armed, .chain 0x90000, 1, 0, none⟩ ∧ shadowing.laneOf 1 = some (0, runsLane [] .done)
    ∧ WorkItem.armedChain ⟨3, 1, .armed, .chain 0x90000, 1, 0, none⟩ = true ∧ shadowing.chf 1 ChanRec.state = Cn.running ∧ shadowing.chf 1 ChanRec.shadowValid ≠ 0
    ∧ stopping.headItem 1 = some ⟨3, 1, .armed, .chain 0x90000, 1, 0, none⟩ ∧ stopping.laneOf 1 = some (0, runsLane [] (.at 0x90040)) ∧ stopping.chf 1 ChanRec.state = Cn.stopping
    ∧ WorkItem.messages ⟨3, 1, .armed, .chain 0x90000, 1, 0, none⟩ = false ∧ (runsLane [] (.at 0x90040)).next = .at 0x90040 := by decide +kernel

/-! ### Rings, tiles, programs, modules, the window, pairing, the host -/

/-- A ring of die 0 in a state, its agents and indices as given. -/
def ringAs (q : Nat) (l : List (Fld × Nat)) : State := let s := ringUp (planned base) q; s.setFlds (s.ringBase 0 q) l
def offRing : State := (ringAs 2 [(RingRec.state, 0), (RingRec.agent0, Ag.feed), (RingRec.agent1, Ag.matrix)]).setFlds 0 [(PlanHdr.quayAllow0, 0)]
def ringR (a : Nat) : Req := wr 8 (word [(RingCtl.ring, 2), (actF, a)])
def idleRing : State := (ringAs 2 []).setCh Ch.planState Pl.empty
theorem test_ring_controls : 0 = RingCtl.die.get (ringR 1).value ∧ 2 = RingCtl.ring.get (ringR 1).value ∧ ChecksPass offRing 0x5042 0 (ringR 1) ∧ onlyBits (ringR 1).value [RingCtl.die, RingCtl.ring, actF] = true
    ∧ 2 < offRing.ringCount 0 ∧ actionIs (ringR 1) actF 1 = true ∧ offRing.rgf 0 2 RingRec.state = 0 ∧ offRing.cwState 0 = Cw.up ∧ offRing.ringValid 0 2 = true
    ∧ ChecksPass idleRing 0x5042 0 (ringR 2) ∧ 2 < idleRing.ringCount 0 ∧ actionIs (ringR 2) actF 2 = true ∧ idleRing.rgf 0 2 RingRec.state = 1
    ∧ (∀ i, i < idleRing.stages 0 2 → idleRing.idx 0 2 i = idleRing.idx 0 2 0) ∧ idleRing.planLoaded = false := by unfold ChecksPass; decide +kernel
def filled2 : State := ringAs 2 [(RingRec.agent0, Ag.feed), (RingRec.agent1, Ag.matrix), (RingRec.idx0, 1)]
def draining : State := ringAs 3 [(RingRec.agent0, Ag.feed), (RingRec.agent1, Ag.drain), (RingRec.idx0, 1)]
theorem test_handles : (ringAs 0 [(RingRec.agent0, Ag.matrix), (RingRec.agent1, Ag.stow)]).ringOn 0 0 = true ∧ 0 < (ringAs 0 [(RingRec.agent0, Ag.matrix)]).stages 0 0
    ∧ (ringAs 0 [(RingRec.agent0, Ag.matrix), (RingRec.agent1, Ag.stow)]).rgf 0 0 (agentFld 0) = Ag.matrix
    ∧ filled2.ringOn 0 2 = true ∧ 1 < filled2.stages 0 2 ∧ filled2.rgf 0 2 (agentFld 1) = Ag.matrix ∧ filled2.canTake 0 2 1 = true ∧ filled2.rgf 0 2 (agentFld 1) ≠ Ag.drain
    ∧ draining.ringOn 0 3 = true ∧ 1 < draining.stages 0 3 ∧ draining.rgf 0 3 (agentFld 1) = Ag.drain ∧ draining.canTake 0 3 1 = true ∧ draining.tagOf 0 3 (draining.idx 0 3 1) = none := by decide +kernel
/-- R170: a stage that passes its handle adds 1 to its index. -/
theorem test_pass : (match exec (.handlePass 0 2 1 ⟨0, 0, 1, false, false, false, false⟩ []) filled2 with | .next t => (t.idx 0 2 0, t.idx 0 2 1) | _ => (9, 9)) = (1, 1) := by decide +kernel
def drainer : Consumer := { feeding (.task x0) with drain := true, ring := some 3, stream := 0 }
def asking (w : List (Nat × Nat × Nat)) : State :=
  { stream draining Ss.held Cl.raw with skerry := { Skerry.reset with consumers := [drainer] }, quays := [{ Quay.reset with drainWait := w }, Quay.reset] }
theorem test_drain : (asking []).drainConsumer 0 = some drainer ∧ 1 < (asking []).drainTiles drainer.stream ∧ (∀ w ∈ ((asking []).quay 0).drainWait, w.1 ≠ 1)
    ∧ (asking [(1, 0x11, 0)]).drainConsumer 0 = some drainer ∧ (asking [(1, 0x11, 0)]).hasForm drainer.stream = false ∧ (asking [(1, 0x11, 0)]).atUnit (2 * (2048 * 1 * elemBytes 1 / 4096 % 20)) = true
    ∧ (asking [(1, 0x11, 0)]).sf 0 StreamRec.elemType = 1 ∧ (asking [(1, 0x11, 0)]).sf 0 StreamRec.die = 0 := by decide +kernel
/-- The dropout form needs no elements: its factors are there at once. -/
theorem test_drain_form : ∃ fs, (asking [(1, 0x11, 0)]).madeFactors 0 3 0 1 0x11 0 = some fs := ⟨_, rfl⟩

def expanding (res : Nat) : State :=
  { (ringUp (stream (planned base) Ss.held Cl.raw) 2).setFlds 0x11000 [(StreamRec.residence, res)] with
    skerry := { Skerry.reset with consumers := [{ feeding (.task x0) with channel := noRef, granted := true, entries := 4, taken := 1, filled := 1, asked := 1, look := 8 }] } }
def expander : Consumer := { feeding (.task x0) with channel := noRef, granted := true, entries := 4, taken := 1, filled := 1, asked := 1, look := 8 }
set_option maxRecDepth 100000 in
theorem test_egress : (∀ r ∈ [Rs.quay, Rs.harbour], (expanding r).consumer 7 = some expander ∧ (expanding r).canExpand expander = true ∧ (expanding r).firstInLine expander = true
      ∧ (match (expanding r).egressTile expander with | (t, .ok _) => t.residence 0 | _ => 99) = r) := by decide +kernel
def granting : State := { expanding Rs.harbour with skerry := { Skerry.reset with consumers := [{ expander with granted := false }] } }
theorem test_grant : (granting.skerry.consumers.filter (fun c => !c.granted && granting.started c)).mergeSort (fun a b => granting.sourceUrgency a.source ≤ granting.sourceUrgency b.source)
    = { expander with granted := false } :: [] ∧ granting.entriesUsed + 4 ≤ 2048 := by
  refine ⟨?_, by decide +kernel⟩
  have h : granting.skerry.consumers.filter (fun c => !c.granted && granting.started c) = [{ expander with granted := false }] := by decide +kernel
  rw [h, List.mergeSort_singleton]

def tile0 : IngestTile := ⟨0, 0, List.replicate 4096 0x41⟩
def coding : State := { stream (planned base) Ss.filling Cl.raw with skerry := { Skerry.reset with ingest := [tile0], blocks := [⟨0, 1, 0, 0, 128, 0⟩] } }
set_option maxRecDepth 100000 in
theorem test_ingest : coding.skerry.ingest.find? (fun i => i.tile % 20 == 0 && coding.canCode i) = some tile0 ∧ (coding.codeBlock tile0).isSome = true
    ∧ coding.skerry.blocks.find? (fun b => b.stream == 0 && b.tile == 1) = some ⟨0, 1, 0, 0, 128, 0⟩ ∧ coding.stateOf 0 = Ss.filling ∧ coding.filling (coding.segment 0 (1 % 20)) 32 = false := by decide +kernel
/-- Every granule of memory is sound, so no merge fails. -/
theorem test_ingest_sound (a n : Nat) : coding.mergeFails a n = none := State.mergeFails_sound _ _ _ rfl

def registry (st : Nat) : State := (((base.setCh Ch.progBase 0xA0000).setCh Ch.progCount 4)).setFlds 0xA0020 [(ProgRec.state, st)]
def progR (a : Nat) : Req := wr 8 (word [(ProgCtl.index, 1), (actF, a)])
theorem test_programs : ChecksPass (registry 0) 0x7400 3 (progR 1) ∧ onlyBits (progR 1).value [ProgCtl.index, actF] = true ∧ 1 < (registry 0).ch Ch.progCount ∧ actionIs (progR 1) actF 1 = true
    ∧ (registry 0).progValid 1 = false ∧ ChecksPass (registry 1) 0x7400 3 (progR 2) ∧ onlyBits (progR 2).value [ProgCtl.index, actF] = true ∧ actionIs (progR 2) actF 2 = true
    ∧ (registry 1).progValid 1 = true ∧ (registry 1).planNamesProgram 1 = false ∧ (registry 1).programInUse 1 = false := by unfold ChecksPass; decide +kernel
def bindR (k owner limit init parts : Nat) : Req :=
  wr 16 (word [(BindRec.kind, k), (BindRec.owner, owner), (BindRec.limit, limit), (BindRec.initial, init), (BindRec.participants, parts), (BindRec.name, 9), (BindRec.context, 0)])
def ctlR (n a : Nat) : Req := wr 8 (word [(BuoyCtl.name, n), (BuoyCtl.context, 0), (BuoyCtl.action, a)])
theorem test_buoy_bind : (∀ p ∈ [(bindR Bk.semaphore 1 10 3 0, Bk.semaphore), (bindR Bk.barrier 1 0 0 2, Bk.barrier)], base.slotBusy p.1.path = false
      ∧ base.writeStatus 0x6001 0 p.1 ⟨true, true, true, id⟩ = Cs.ok ∧ BindRec.kind.get p.1.value = p.2 ∧ BindRec.owner.get p.1.value ≠ 0
      ∧ (base.contexts.getD (BindRec.context.get p.1.value) ⟨0, 0, 0, 0⟩).state ≠ 0 ∧ base.findBuoy (BindRec.context.get p.1.value) (BindRec.name.get p.1.value) = none ∧ base.freeBuoy = some 0)
    ∧ BindRec.limit.get (bindR Bk.semaphore 1 10 3 0).value ≠ 0 ∧ BindRec.initial.get (bindR Bk.semaphore 1 10 3 0).value ≤ BindRec.limit.get (bindR Bk.semaphore 1 10 3 0).value
    ∧ BindRec.participants.get (bindR Bk.semaphore 1 10 3 0).value = 0 ∧ BindRec.limit.get (bindR Bk.barrier 1 0 0 2).value = 0 ∧ BindRec.participants.get (bindR Bk.barrier 1 0 0 2).value ≠ 0 := by
  decide +kernel
theorem test_buoy_controls : (∀ p ∈ [(5, 1, 0, sem5), (5, 2, 0, sem5), (6, 2, 1, bar6)], (withBuoys base).slotBusy (ctlR p.1 p.2.1).path = false
      ∧ (withBuoys base).writeStatus 0x6002 0 (ctlR p.1 p.2.1) ⟨true, true, true, id⟩ = Cs.ok ∧ onlyBits (ctlR p.1 p.2.1).value [BuoyCtl.name, BuoyCtl.context, BuoyCtl.action] = true
      ∧ (withBuoys base).findBuoy (BuoyCtl.context.get (ctlR p.1 p.2.1).value) (BuoyCtl.name.get (ctlR p.1 p.2.1).value) = some (p.2.2.1, p.2.2.2) ∧ actionIs (ctlR p.1 p.2.1) BuoyCtl.action p.2.1 = true)
    ∧ sem5.waiters = [] ∧ sem5.parked = [] ∧ bar6.waiters = [] ∧ bar6.parked = [] ∧ sem5.owner ≠ Bo.plan ∧ bar6.owner ≠ Bo.plan ∧ (withBuoys base).planLoaded = false
    ∧ sem5.kind = Bk.semaphore ∧ bar6.kind ≠ Bk.semaphore := by decide +kernel

/-- Module 3 of the port in a state. -/
def module (st : Nat) : State := (base.setCh (Ch.modState + 768) st).setCh (Ch.modId + 768) (word [(⟨11, 9⟩, 1), (⟨8, 6⟩, 1), (⟨5, 4⟩, 1)])
def modR (a : Nat) : Req := wr 8 a
theorem test_modules : (∀ p ∈ [(Ms.present, 1), (Ms.trainFault, 2), (Ms.admitted, 3), (Ms.idFault, 4)], (module p.1).slotBusy (modR p.2).path = false
      ∧ (module p.1).writeStatus 0x4103 3 (modR p.2) ⟨true, true, true, id⟩ = Cs.ok ∧ onlyBits (modR p.2).value [actF] = true ∧ onlyBits (modR p.2).value [actF, ModCtl.hours] = true
      ∧ (module p.1).modState 3 = p.1 ∧ actionIs (modR p.2) actF p.2 = true ∧ ModCtl.hours.get (modR p.2).value = 0)
    ∧ identityOk ((module Ms.present).ch (Ch.modId + 256 * 3)) = true ∧ bit ((module Ms.admitted).ch Ch.reefSet) 3 = false := by decide +kernel
theorem test_window : ChecksPass base 0x1130 2 (wr 8 0x5000) ∧ (wr 8 0x5000).value % 4096 = 0 ∧ (wr 8 0x5000).value < 2 ^ 52 ∧ ChecksPass base 0x1130 3 (wr 8 1) ∧ actionIs (wr 8 1) actF 1 = true
    ∧ onlyBits (wr 8 1).value [actF] = true ∧ (base.setCh Ch.powerState 7).ch Ch.powerState = 7 ∧ (base.setCh Ch.powerState 0).ch Ch.powerState ≠ 7 := by unfold ChecksPass; decide +kernel
/-- A package map at 0xB0000: package `i` VALID, in group 0, at position `i`. -/
def mapped (n : Nat) (s : State) : State :=
  (List.range n).foldl (fun (s : State) i => s.setFlds (0xB0000 + 16 * i) [(⟨0, 0⟩, 1), (⟨66, 64⟩, i), (⟨127, 80⟩, 0x020000000000 + i)]) ((s.setCh Ch.pkgMapBase 0xB0000).setCh Ch.pkgMapCount n)
theorem test_pairing : ChecksPass base 0x9181 1 (wr 4 noRef) ∧ (wr 4 noRef).value = noRef ∧ base.cascade.pairAsk = none
    ∧ ChecksPass (mapped 4 base) 0x9181 1 (wr 4 3) ∧ (wr 4 3).value < 4096 ∧ (mapped 4 base).pkgValid 3 = true ∧ 3 ≠ (mapped 4 base).self ∧ ((mapped 4 base).peer 3).lost = false
    ∧ (mapped 4 base).cascade.pairAsk = none ∧ ChecksPass base 0x9180 1 (wr 4 5) ∧ ChecksPass base 0x9180 2 (wr 4 5) ∧ ChecksPass base 0x9181 4 (wr 1 1) := by unfold ChecksPass; decide +kernel
def registered (st : Nat) : State := ((base.setCh Ch.regBase 0xC0000).setCh Ch.regCount 2).setFlds 0xC0020 [(DevRegion.base, 0x300000), (DevRegion.bytes, 0x1000), (DevRegion.access, 3), (DevRegion.state, st)]
def regR (a : Nat) : Req := wr 8 (word [(RegCtl.index, 1), (actF, a)])
theorem test_regions : (∀ p ∈ [(1, 0), (2, 1)], (registered p.2).slotBusy (regR p.1).path = false ∧ (registered p.2).writeStatus 0x2010 3 (regR p.1) ⟨true, true, true, id⟩ = Cs.ok
      ∧ RegCtl.index.get (regR p.1).value = 1 ∧ onlyBits (regR p.1).value [RegCtl.index, actF] = true ∧ actionIs (regR p.1) actF p.1 = true ∧ 1 < (registered p.2).ch Ch.regCount
      ∧ (registered p.2).fld ((registered p.2).regBase 1) DevRegion.state = p.2) ∧ (registered 0).failing ((registered 0).regBase 1) 32 = none ∧ (registered 0).regionValid 1 = true
    ∧ (registered 1).regionBusy 1 = false := by decide +kernel
def sessR (a : Nat) : Req := wr 16 (word [(Attach.nonce, 77), (Attach.action, a)])
def session (st : Nat) : State := ((base.setCh Ch.sessionState st).setCh Ch.sessionId (if st = 0 then 0 else 77)).setCh Ch.heartbeatLimit 100
theorem test_sessions : (∀ p ∈ [(1, Sn.detached), (2, Sn.orphaned), (3, Sn.attached)], (session p.2).slotBusy (sessR p.1).path = false ∧ (session p.2).writeStatus 0x1100 3 (sessR p.1) ⟨true, true, true, id⟩ = Cs.ok
      ∧ onlyBits (sessR p.1).value [Attach.nonce, Attach.action] = true ∧ Attach.nonce.get (sessR p.1).value = 77 ∧ actionIs (sessR p.1) Attach.action p.1 = true ∧ (session p.2).ch Ch.sessionState = p.2)
    ∧ (session Sn.attached).ch Ch.sessionId = 77 ∧ (session Sn.attached).ch Ch.heartbeatLimit ≠ 0 := by decide +kernel

/-! ### The Causeway, resets and power, contexts, regions, the Chart, accesses -/

/-- The Causeway of die 1 in a state, its word valid at the full width. -/
def fullWord : Nat := trainedWord [] 3
def cw (st : Nat) : State := ((base.setCh (Ch.cwState + 256) st).setCh (Ch.cwMinWidth) 128).modCauseway 1 (fun c => { c with wordBase := fullWord })
def soundSpan (k : Nat) : Span := let data := List.replicate 1024 0; ⟨BitVec.ofNat 8 k, data, BitVec.ofNat 32 (crc32c (BitVec.ofNat 8 k :: data))⟩
theorem test_causeway_controls : (∀ p ∈ [(Cw.idle, 1), (Cw.hold, 1), (Cw.trainFault, 1), (Cw.idle, 2), (Cw.hold, 2), (Cw.up, 3)], (cw p.1).slotBusy (wr 8 p.2).path = false
      ∧ (cw p.1).writeStatus 0xC011 2 (wr 8 p.2) ⟨true, true, true, id⟩ = Cs.ok ∧ onlyBits (wr 8 p.2).value [actF] = true ∧ actionIs (wr 8 p.2) actF p.2 = true ∧ (cw p.1).cwState 1 = p.1)
    ∧ (cw Cw.up).rings 1 = [] ∧ (cw Cw.up).dieNamed 1 = false := by decide +kernel
/-- Wire 64 of bay 0, of strand 1, has an eye too small; and the same of the clock wires of bays 7 to 15, down. -/
def trained : TrainResult := ⟨false, [(64, 3), (65, 32)]⟩
def untrained : TrainResult := ⟨false, (List.range 9).map (fun b => (1094 * (b + 7) + 1088, 0))⟩
theorem test_training : (cw Cw.training).cwState 1 = Cw.training ∧ failingWires trained ((cw Cw.training).ch Ch.eyeMin) = [64] ∧ trained.timedOut = false
    ∧ (cw Cw.training).ch Ch.cwMinWidth ≤ CwWord.widthDown.get (trainedWord [64] 1) ∧ (cw Cw.training).ch Ch.cwMinWidth ≤ CwWord.widthUp.get (trainedWord [64] 1)
    ∧ CwWord.widthDown.get (trainedWord (failingWires untrained ((cw Cw.training).ch Ch.eyeMin)) 1) < (cw Cw.training).ch Ch.cwMinWidth := by decide +kernel
/-- R415, R416: a bay with one strand failing is used, its spare in the strand's place; one with its clock wires failing is not. -/
theorem test_trained_word : CwWord.baysDown.get (trainedWord [64, 1094 + 1088] 1) = 0xFFFD ∧ CwWord.repairedDown.get (trainedWord [64, 1094 + 1088] 1) = 1
    ∧ CwWord.repairDown.get (trainedWord [64, 1094 + 1088] 1) = 1 := by decide +kernel
theorem test_straps : (cw 0).cwState 1 = 0 ∧ (cw Cw.down).cwState 1 = Cw.down ∧ strapOk (0x0301 * (1 + 2 ^ 16 + 2 ^ 32 + 2 ^ 48)) = true ∧ strapOk 0x0301 = false
    ∧ (cw Cw.strapFault).cwState 1 = Cw.strapFault ∧ (cw Cw.up).cwState 1 ≠ 0 ∧ (cw Cw.up).cwState 1 ≠ Cw.down ∧ (cw Cw.up).cwState 1 ≠ Cw.strapFault ∧ (cw Cw.up).cwState 1 ≠ Cw.trainFault ∧ (cw Cw.up).cwState 1 ≠ Cw.sleep ∧ (cw Cw.sleep).cwState 1 = Cw.sleep
    ∧ (cw Cw.trainFault).cwState 1 = Cw.trainFault := by decide +kernel
set_option maxRecDepth 100000 in
theorem test_spans : bit (CwWord.baysUp.get ((cw Cw.up).causeway 1).wordBase) 5 = true ∧ spanSound (soundSpan 1) = true ∧ spanSound (soundSpan 2) = true ∧ spanSound ⟨1, [], 0⟩ = false
    ∧ (cw Cw.exchange).cwState 1 = Cw.exchange := by decide +kernel
set_option maxRecDepth 100000 in
/-- R418: the same word on both sides brings the Causeway UP. -/
theorem test_exchange : (match exec (.controlSpan 1 0 (wordSpan fullWord)) (cw Cw.exchange) with | .next t => t.cwState 1 | _ => 0) = Cw.up := by decide +kernel

def awake : State := { base.setCh Ch.powerState 7 with wakePending := false }
def imageHdr : Nat := word [(McHdr.magic, 0x544F4C50), (McHdr.formatGen, 3), (McHdr.imageBytes, 64), (McHdr.steppingMax, 0xFF)]
def microcoded (st want : Nat) : State := (((awake.store 0x100000 (leBytes 64 imageHdr)).setCh Ch.mcSrc 0x100000).setCh Ch.mcBytes 64).setBlob Ch.mcDigest want |>.setCh Ch.mcState st
def microcode : State := { microcoded 1 1 with microcode := { (microcoded 1 1).microcode with loading := some (0x100000, 64, leNat (sha256 (leBytes 64 imageHdr))) } }
theorem test_resets : (∀ p ∈ [1, 2], awake.slotBusy (wr 8 p).path = false ∧ awake.writeStatus 0xB010 1 (wr 8 p) ⟨true, true, true, id⟩ = Cs.ok ∧ onlyBits (wr 8 p).value [actF] = true ∧ actionIs (wr 8 p) actF p = true)
    ∧ awake.monitored 2 = true ∧ awake.asleep = false := by decide +kernel
theorem test_microcode : ChecksPass (microcoded 2 0) 0xB020 4 (wr 8 1) ∧ actionIs (wr 8 1) actF 1 = true ∧ onlyBits (wr 8 1).value [actF] = true ∧ (microcoded 2 0).ch Ch.mcState = 2
    ∧ (microcoded 2 0).ch Ch.mcDigest = (microcoded 2 0).ch Ch.mcRunningDigest ∧ ChecksPass (microcoded 2 1) 0xB020 4 (wr 8 1) ∧ (microcoded 2 1).ch Ch.mcDigest ≠ (microcoded 2 1).ch Ch.mcRunningDigest
    ∧ (microcoded 2 1).busy437 = false ∧ (microcoded 2 1).ch Ch.mcSrc % 64 = 0 ∧ (microcoded 2 1).ch Ch.mcBytes = 64 ∧ (microcoded 2 1).ch Ch.mcState ≠ 1 := by unfold ChecksPass; decide +kernel
set_option maxRecDepth 100000 in
theorem test_microcode_load : microcode.microcode.loading = some (0x100000, 64, leNat (sha256 (leBytes 64 imageHdr))) ∧ microcode.asleep = false ∧ microcode.failing 0x100000 64 = none
    ∧ microcode.rd 0x100000 64 = leBytes 64 imageHdr ∧ microcode.imageHeaderOk (leNat ((leBytes 64 imageHdr).take 64)) 64 = true := by decide +kernel
theorem test_sleep : ChecksPass awake 0xB000 3 (wr 8 5) ∧ (wr 8 5).value < 8 ∧ (∀ dom, dom < 3 → awake.awake dom = true ∧ awake.domainBusy dom = false) ∧ awake.wakePending = false
    ∧ State.wakePending { awake.setCh Ch.powerState 0 with wakePending := true } = true ∧ (awake.setCh Ch.powerState 0).ch Ch.powerState ≠ 7 := by unfold ChecksPass; decide +kernel
def warned : State := { awake with rails := updateAt awake.rails 1 (fun _ => ⟨true, 700, 0⟩) }
theorem test_supply : awake.monitored 1 = true ∧ (awake.rails.getD 1 Rail.reset).active = false ∧ awake.ch (Ch.warnAction + 256) ≠ 3 ∧ (awake.setCh (Ch.warnAction + 256) 3).ch (Ch.warnAction + 256 * 1) = 3
    ∧ awake.ch (Ch.warnMv + 256 * 1) ≠ 0 ∧ (warned.rails.getD 1 Rail.reset).active = true
    ∧ clearsAt (warned.ch (Ch.warnMv + 256 * 1) + 10) 0 (List.replicate 13 (warned.ch (Ch.warnMv + 256 * 1) + 10)) = true := by decide +kernel

def ctxR (c a : Nat) : Req := wr 8 (word [(CtxCtl.context, c), (⟨3, 0⟩, a)])
def ctxAs (c st : Nat) : State := { base with contexts := base.contexts.put c ⟨st, 0, 0, 0⟩ }
theorem test_contexts : (∀ p ∈ [(0, 1), (1, 2), (1, 3), (2, 4)], (ctxAs 9 p.1).slotBusy (ctxR 9 p.2).path = false ∧ (ctxAs 9 p.1).writeStatus 0x1200 2 (ctxR 9 p.2) ⟨true, true, true, id⟩ = Cs.ok
      ∧ CtxCtl.context.get (ctxR 9 p.2).value = 9 ∧ onlyBits (ctxR 9 p.2).value [CtxCtl.context, ⟨3, 0⟩] = true ∧ actionIs (ctxR 9 p.2) actF p.2 = true ∧ (ctxAs 9 p.1).contextState 9 = p.1)
    ∧ (ctxAs 9 1).contextExists 9 = true ∧ (ctxAs 9 1).ch Ch.planOwner ≠ 9 ∧ (ctxAs 9 1).planNamesContext 9 = false ∧ (ctxAs 9 3).contextState 9 = 3 ∧ ((ctxAs 9 3).tearRegions 9).contextEmpty 9 = true := by
  decide +kernel
def keyR (n v : Nat) : Req := wr n v
theorem test_keys : (base.setSelected (.mailbox 0) Ch.ctxSelect 0).selected (keyR 64 1).path Ch.ctxSelect = 0 ∧ (base.setSelected (.mailbox 0) Ch.ctxSelect 0).contextState 0 = 1
    ∧ (base.setSelected (.mailbox 0) Ch.ctxSelect 0).keyFree 0 = true ∧ ChecksPass (base.setSelected (.mailbox 0) Ch.ctxSelect 0) 0x1201 2 (keyR 64 1) ∧ (keyR 64 1).value % 2 ^ 256 ≠ (keyR 64 1).value / 2 ^ 256
    ∧ ChecksPass (base.setSelected (.mailbox 0) Ch.ctxSelect 0) 0x1201 3 (keyR 8 1) := by unfold ChecksPass; decide +kernel
def rgnR (g a : Nat) : Req := wr 8 (word [(RgnCtl.region, g), (actF, a)])
def rgnAs (st : Nat) : State := ((base.setCh (Ch.stackBytes + 512) 0x1000000).setCh (Ch.regionBase + 512) 0x20000000).setCh (Ch.regionState + 512) st
theorem test_assign : (∀ p ∈ [(0, 1), (2, 2)], (rgnAs p.1).slotBusy (rgnR 2 p.2).path = false ∧ (rgnAs p.1).writeStatus 0x2000 1 (rgnR 2 p.2) ⟨true, true, true, id⟩ = Cs.ok
      ∧ RgnCtl.region.get (rgnR 2 p.2).value = 2 ∧ onlyBits (rgnR 2 p.2).value [RgnCtl.region, actF] = true ∧ actionIs (rgnR 2 p.2) actF p.2 = true ∧ (rgnAs p.1).regionState 2 = p.1)
    ∧ (rgnAs 0).assignOk 2 = true ∧ (rgnAs 2).planNamesRegion 2 = false ∧ (∀ k ∈ addressEntries, (rgnAs 2).ch k = 0 ∨ (rgnAs 2).regionByte 2 ((rgnAs 2).ch k) = false) ∧ (rgnAs 1).regionState 2 = 1 := by
  decide +kernel
theorem test_chart : ChecksPass base 0x1001 2 (wr 1 3) ∧ (wr 1 3).value < 64 ∧ bit (base.ch Ch.genSupported) (wr 1 3).value = true ∧ lockedOpen 0x1000 = false := by
  unfold ChecksPass; decide +kernel
/-- A region of memory that requester 5 may read and write. -/
def shared : State := (registered 1).setFlds 0xC0020 [(DevRegion.requester, 5)]
theorem test_accesses : 0x20000 + 4 ≤ 2 ^ 52 ∧ overlap 0x20000 4 windowStart windowBytes = false ∧ overlap 0x20000 4 (base.ch Ch.doorbellAddr) 8 = false ∧ headTouched 0x20000 4 = none
    ∧ base.protects 0x20000 4 = false ∧ base.filling 0x20000 4 = false ∧ base.mergeFails 0x20000 4 = none ∧ base.failing 0x20000 4 = none
    ∧ shared.deviceRegion false 5 0x300FF8 8 true = some 0xC0020 ∧ shared.deviceRegion false 5 0x300FF8 8 false = some 0xC0020 ∧ shared.filling 0x300FF8 8 = false ∧ shared.mergeFails 0x300FF8 8 = none
    ∧ shared.failing 0x300FF8 8 = none := by decide +kernel

/-! ### The cascade -/

/-- A group of eight packages with the master at position `m`; package `i` has position `i` and this package is package 0 of the map. -/
def grouped (m : Nat) : State :=
  let s := (List.range 8).foldl (fun (s : State) i => s.setFlds (0xB0000 + 16 * i) [(⟨63, 32⟩, 0xAA)]) (mapped 8 (withBuoys (planned base)))
  (((s.setCh Ch.groupId 0xAA).setCh Ch.members 0xFF).setCh Ch.membersUp 0xFF).setCh Ch.masterOverride m
/-- The first message of package 1. -/
def msg (kind arg : Nat) (payload : List Byte) : Frame :=
  let h := word [(MsgHdr.length, payload.length), (MsgHdr.seq, 1), (MsgHdr.dstPackage, 0), (MsgHdr.srcPackage, 1), (MsgHdr.kind, kind), (MsgHdr.formatGen, 3), (MsgHdr.arg, arg)]
  ⟨0x020000000001, BitVec.ofNat 256 (MsgHdr.msgCrc.set h (msgCrc h payload)), payload⟩
def buoyMsg (name n op : Nat) : Frame := msg Mk.buoyOp 4 (leBytes 4 name ++ leBytes 4 n ++ leBytes 2 0 ++ leBytes 2 op)
theorem test_heartbeat : MessageTaken (grouped 0) Mk.heartbeat (msg Mk.heartbeat 0xFF00 []) ∧ ((grouped 0).afterFrame (msg Mk.heartbeat 0xFF00 [])).memberAt (frameSrc (msg Mk.heartbeat 0xFF00 [])) = some 1
    ∧ bit (((grouped 0).afterFrame (msg Mk.heartbeat 0xFF00 [])).ch Ch.members) 1 = true := by unfold MessageTaken; decide +kernel
theorem test_buoy_op : MessageTaken (grouped 0) Mk.buoyOp (buoyMsg 5 7 1) ∧ leNat ((buoyMsg 5 7 1).payload.take 4) = 5 ∧ leNat (((buoyMsg 5 7 1).payload.drop 4).take 4) = 7
    ∧ leNat (((buoyMsg 5 7 1).payload.drop 8).take 2) = 0 ∧ leNat (((buoyMsg 5 7 1).payload.drop 10).take 2) = 1
    ∧ ((grouped 0).afterFrame (buoyMsg 5 7 1)).findBuoy 0 5 = some (0, sem5) ∧ sem5.count + 7 ≤ sem5.limit
    ∧ MessageTaken (grouped 0) Mk.buoyOp (buoyMsg 5 4 2) ∧ leNat (((buoyMsg 5 4 2).payload.drop 10).take 2) = 2 ∧ ((grouped 0).afterFrame (buoyMsg 5 4 2)).findBuoy 0 5 = some (0, sem5) ∧ 4 ≤ sem5.limit ∧ sem5.count < 4
    ∧ MessageTaken (grouped 0) Mk.buoyOp (buoyMsg 6 0 3) ∧ leNat (((buoyMsg 6 0 3).payload.drop 10).take 2) = 3 ∧ ((grouped 0).afterFrame (buoyMsg 6 0 3)).findBuoy 0 6 = some (1, bar6) ∧ 0 = bar6.round := by
  unfold MessageTaken; decide +kernel
def issued : State := let s := withCmd (grouped 0) signalC; { s with cascade := { s.cascade with ops := [⟨4, 1, .cmd 1, 1, 0, 7⟩] } }
theorem test_buoy_reply : MessageTaken issued Mk.buoyReply (msg Mk.buoyReply 4 []) ∧ frameArg (msg Mk.buoyReply 4 []) / 2 ^ 32 % 256 = St.success
    ∧ (issued.afterFrame (msg Mk.buoyReply 4 [])).cascade.ops.find? (fun o => o.id == frameArg (msg Mk.buoyReply 4 []) % 2 ^ 32 && o.pkg == frameSrc (msg Mk.buoyReply 4 [])) = some ⟨4, 1, .cmd 1, 1, 0, 7⟩
    ∧ (issued.afterFrame (msg Mk.buoyReply 4 [])).dispatched.find? (fun e => e.tag == signalC.tag) = some signalC := by unfold MessageTaken; decide +kernel

def dataMsg (kind place : Nat) (bs : List Byte) : Frame := msg Mk.data (kind * 2 ^ 56 + place) bs
/-- A contribution for shard 77, which the plan does not name, and one for shard 0, which it does. -/
def contributing : State := withShard (grouped 0) []
set_option maxRecDepth 100000 in
theorem test_data_gradient : (∀ k ∈ List.range ((grouped 0).afterFrame (dataMsg Dk.gradient 77 [1])).shardCount, ((grouped 0).afterFrame (dataMsg Dk.gradient 77 [1])).shf k ShardRec.shardId ≠ 77)
    ∧ MessageTaken (grouped 0) Mk.data (dataMsg Dk.gradient 77 [1]) ∧ frameArg (dataMsg Dk.gradient 77 [1]) / 2 ^ 56 = Dk.gradient ∧ frameArg (dataMsg Dk.gradient 77 [1]) % 2 ^ 56 % 2 ^ 32 = 77
    ∧ MessageTaken contributing Mk.data (dataMsg Dk.gradient 0 [1])
    ∧ (List.range ((contributing.afterFrame (dataMsg Dk.gradient 0 [1])).addInbox (.gradient 0 0 0) [1]).shardCount).find? (fun k => ((contributing.afterFrame (dataMsg Dk.gradient 0 [1])).addInbox (.gradient 0 0 0) [1]).shf k ShardRec.shardId == 0) = some 0
    ∧ ((contributing.afterFrame (dataMsg Dk.gradient 0 [1])).addInbox (.gradient 0 0 0) [1]).shardOpt 0 = some 0x50000 := by unfold MessageTaken; decide +kernel
/-- A Reef of one module, half of it lent to position 1. -/
def lending : State := ((((grouped 0).setCh (Ch.modState + 768) Ms.admitted).setCh Ch.reefSet 8).setCh (Ch.lendBytes + 256) 0x10000).setCh (Ch.lendBase + 256) 0x20000
theorem test_data : (∀ k ∈ [Dk.streamRec, Dk.streamGen, Dk.streamFixed, Dk.streamTile, Dk.gradient, Dk.version, Dk.importBytes],
      (grouped 0).discards (dataMsg k 0 [1]) = false ∧ MsgHdr.kind.get (dataMsg k 0 [1]).header.toNat = Mk.data ∧ frameArg (dataMsg k 0 [1]) / 2 ^ 56 = k
      ∧ MsgHdr.seq.get (dataMsg k 0 [1]).header.toNat = (((grouped 0).peer 1).rxSeq + 1) % 65536) := by decide +kernel
theorem test_data_lent : MessageTaken lending Mk.data (dataMsg Dk.reefWrite 64 (packBlock 64 [1, 2])) ∧ unpackBlock 64 (packBlock 64 [1, 2]) = some [1, 2] ∧ (lending.afterFrame (dataMsg Dk.reefWrite 64 (packBlock 64 [1, 2]))).memberAt 1 = some 1
    ∧ 64 + 2 ≤ (lending.afterFrame (dataMsg Dk.reefWrite 64 (packBlock 64 [1, 2]))).ch (Ch.lendBytes + 256 * 1)
    ∧ ((lending.afterFrame (dataMsg Dk.reefWrite 64 (packBlock 64 [1, 2]))).reefStore ((lending.afterFrame (dataMsg Dk.reefWrite 64 (packBlock 64 [1, 2]))).ch (Ch.lendBase + 256 * 1) + 64) [1, 2]).2 = none
    ∧ MessageTaken lending Mk.data (dataMsg Dk.reefAsk 64 (leBytes 8 7 ++ leBytes 4 2)) ∧ sliceNat (leBytes 8 7 ++ leBytes 4 2) 8 4 = 2
    ∧ ((lending.afterFrame (dataMsg Dk.reefAsk 64 (leBytes 8 7 ++ leBytes 4 2))).reefRead (0x20000 + 64) 2).2 = .ok [0, 0] := by unfold MessageTaken; decide +kernel
theorem test_data_done : (∀ b ∈ [[0, 1], [0, 0]], (grouped 0).discards (msg Mk.dataDone (Dk.version * 2 ^ 56) b) = false ∧ MsgHdr.kind.get (msg Mk.dataDone (Dk.version * 2 ^ 56) b).header.toNat = Mk.dataDone
      ∧ frameArg (msg Mk.dataDone (Dk.version * 2 ^ 56) b) / 2 ^ 56 = Dk.version ∧ MsgHdr.seq.get (msg Mk.dataDone (Dk.version * 2 ^ 56) b).header.toNat = (((grouped 0).peer 1).rxSeq + 1) % 65536)
    ∧ sliceNat [0, 1] 1 1 = 1 ∧ sliceNat [0, 0] 1 1 ≠ 1 := by decide +kernel

/-- A member that is not this package, whichever position the straps give. -/
theorem other_position : (6 : Nat) ≠ strapPos ∨ (7 : Nat) ≠ strapPos := by omega
theorem master_is (s : State) (h : s.ch Ch.masterOverride = strapPos) : s.isMaster = true := by
  have : strapPos < 8 := Config.strapPosition.isLt
  have h2 : ¬ strapPos = 255 := by omega
  simp [State.isMaster, State.masterPosition, h, h2]
theorem not_master (s : State) (m : Nat) (hm : m ≠ 255) (h : s.ch Ch.masterOverride = m) (n : m ≠ strapPos) : s.isMaster = false := by
  simp [State.isMaster, State.masterPosition, h, hm, n]
theorem grouped_master (m : Nat) : (grouped m).ch Ch.masterOverride = m := by
  unfold grouped
  rw [State.ch_setCh, if_pos rfl]
theorem after_frame_master (s : State) (f : Frame) : (s.afterFrame f).ch Ch.masterOverride = s.ch Ch.masterOverride := by
  have h1 : ∀ (s : State) p, (s.hear p).ch Ch.masterOverride = s.ch Ch.masterOverride := by
    intro s p
    unfold State.hear
    split
    · split
      · rw [State.ch_setCh, if_neg (by decide)]
      · rfl
    · rfl
  have h2 : ∀ (s : State) p a, (s.takeAck p a).chart = s.chart := by
    intro s p a
    unfold State.takeAck
    dsimp only
    split <;> rfl
  have h3 : ∀ s : State, s.wake.chart = s.chart := by
    intro s
    unfold State.wake
    split <;> rfl
  unfold State.afterFrame
  rw [h1]
  unfold State.ch
  rw [State.setPeer_chart, h3, h2]
def mastering : State := grouped strapPos
theorem test_epoch : MessageTaken (grouped 0) Mk.epochReport (msg Mk.epochReport 0 []) ∧ ((grouped 0).afterFrame (msg Mk.epochReport 0 [])).memberAt 1 = some 1 := by unfold MessageTaken; decide +kernel
/-- The same with this package as the master. -/
theorem test_epoch_master : MessageTaken mastering Mk.epochReport (msg Mk.epochReport 0 []) ∧ (mastering.afterFrame (msg Mk.epochReport 0 [])).memberAt 1 = some 1
    ∧ (mastering.afterFrame (msg Mk.epochReport 0 [])).isMaster = true := by
  refine ⟨by unfold MessageTaken; decide +kernel, by decide +kernel, master_is _ ?_⟩
  rw [after_frame_master]
  exact grouped_master _
/-- The roots of shard 9 of packages 1 and 2, one leaf each, which differ. -/
def root (n : Nat) : List Byte := leBytes 32 n ++ leBytes 4 0 ++ leBytes 2 1 ++ leBytes 2 3 ++ leBytes 4 0 ++ leBytes 4 0 ++ leBytes 4 0 ++ leBytes 4 1 ++ leBytes 4 32
def comparison : Comparison := ⟨9, 0, 2, 1, [(1, root 1), (2, root 2)], [(1, leBytes 32 1), (2, leBytes 32 2)]⟩
def comparing : State := { grouped 0 with comparisons := [{ comparison with leaves := [(1, []), (2, leBytes 32 2)] }] }
theorem test_trees : MessageTaken (grouped 0) Mk.digestRoot (msg Mk.digestRoot 9 (root 1)) ∧ MessageTaken (grouped 0) Mk.treeRequest (msg Mk.treeRequest (9 + 2 ^ 56) []) ∧ frameArg (msg Mk.treeRequest (9 + 2 ^ 56) []) / 2 ^ 56 ≠ 0
    ∧ MessageTaken (grouped 0) Mk.treeRequest (msg Mk.treeRequest 9 (leBytes 4 1)) ∧ frameArg (msg Mk.treeRequest 9 (leBytes 4 1)) / 2 ^ 56 = 0
    ∧ MessageTaken (grouped 0) Mk.treeData (msg Mk.treeData 9 (leBytes 32 1)) ∧ ((grouped 0).afterFrame (msg Mk.treeData 9 (leBytes 32 1))).comparisons = []
    ∧ MessageTaken comparing Mk.treeData (msg Mk.treeData 9 (leBytes 32 1)) := by unfold MessageTaken; decide +kernel
def compared : State := (comparing.afterFrame (msg Mk.treeData 9 (leBytes 32 1))).modComparison 9 0
  (fun c => if (c.leaves.find 1).isSome then { c with leaves := c.leaves.put 1 (c.leaves.getD 1 [] ++ leBytes 32 1) } else c)
theorem test_leaves : frameArg (msg Mk.treeData 9 (leBytes 32 1)) = 9 ∧ frameSrc (msg Mk.treeData 9 (leBytes 32 1)) = 1 ∧ compared.comparisons.find? (fun c => c.shard == 9 && c.version == 0) = some comparison
    ∧ comparison.leaves ≠ [] ∧ rootLeaves (root 1) = 1 ∧ ∀ p ∈ comparison.owner :: comparison.differing, 32 * rootLeaves (comparison.roots.getD comparison.owner []) ≤ (comparison.leaves.getD p []).length := by decide +kernel
def chartMsg (kind op index arg : Nat) : Frame := msg kind arg (leBytes 24 (word [(MailboxHdr.op, op), (MailboxHdr.index, index), (MailboxHdr.subindex, 1)]) ++ leBytes 4 8)
theorem test_chart_messages : MessageTaken (grouped 0) Mk.chartRequest (chartMsg Mk.chartRequest 1 0x9000 0) ∧ MailboxHdr.op.get (leNat ((chartMsg Mk.chartRequest 1 0x9000 0).payload.take 24)) = 1
    ∧ MailboxHdr.index.get (leNat ((chartMsg Mk.chartRequest 1 0x9000 0).payload.take 24)) = 0x9000 ∧ lockedOpen 0x9000 = false
    ∧ MessageTaken (grouped 0) Mk.chartRequest (chartMsg Mk.chartRequest 2 0x9000 0) ∧ MailboxHdr.op.get (leNat ((chartMsg Mk.chartRequest 2 0x9000 0).payload.take 24)) = 2
    ∧ MailboxHdr.index.get (leNat ((chartMsg Mk.chartRequest 2 0x9000 0).payload.take 24)) = 0x9000
    ∧ ((grouped 0).afterFrame (chartMsg Mk.chartRequest 2 0x9000 0)).pkgAt ((grouped 0).afterFrame (chartMsg Mk.chartRequest 2 0x9000 0)).masterPosition ≠ some 1
    ∧ MessageTaken (grouped 0) Mk.chartReply (chartMsg Mk.chartReply 1 0x9180 1) ∧ frameArg (chartMsg Mk.chartReply 1 0x9180 1) = 1
    ∧ MessageTaken (grouped 0) Mk.chartReply (chartMsg Mk.chartReply 1 0x9020 8) ∧ frameArg (chartMsg Mk.chartReply 1 0x9020 8) = 8
    ∧ MailboxHdr.status.get (leNat ((chartMsg Mk.chartReply 1 0x9020 8).payload.take 24)) = Cs.ok ∧ ((grouped 0).afterFrame (chartMsg Mk.chartReply 1 0x9020 8)).pkgAt (8 - 7) = some 1 := by
  unfold MessageTaken; decide +kernel
theorem test_notice : (∀ q ∈ [6, 7], (grouped 1).discards (msg Mk.memberNotice q []) = false ∧ MsgHdr.kind.get (msg Mk.memberNotice q []).header.toNat = Mk.memberNotice ∧ frameArg (msg Mk.memberNotice q []) = q
      ∧ MsgHdr.seq.get (msg Mk.memberNotice q []).header.toNat = (((grouped 1).peer 1).rxSeq + 1) % 65536
      ∧ ((grouped 1).afterFrame (msg Mk.memberNotice q [])).memberAt 1 = some ((grouped 1).afterFrame (msg Mk.memberNotice q [])).masterPosition) ∧ (6 ≠ strapPos ∨ 7 ≠ strapPos) :=
  ⟨by decide +kernel, other_position⟩

def waiting (n : Nat) : State := (grouped 0).setPeer 3 { Peer.fresh with unacked := [msg Mk.heartbeat 0 []], resends := n }
theorem test_resend : ((waiting 6).peer 3).unacked ≠ [] ∧ ((waiting 6).peer 3).resends < 7 ∧ ((waiting 7).peer 3).unacked ≠ [] ∧ 7 ≤ ((waiting 7).peer 3).resends ∧ (waiting 6).ch Ch.groupId ≠ 0 := by decide +kernel
theorem test_member_timeout : mastering.ch Ch.groupId ≠ 0 ∧ mastering.isMaster = true ∧ (6 ≠ strapPos ∨ 7 ≠ strapPos) ∧ bit (mastering.ch Ch.membersUp) 6 = true ∧ bit (mastering.ch Ch.membersUp) 7 = true :=
  ⟨by decide +kernel, master_is _ (grouped_master _), other_position, by decide +kernel, by decide +kernel⟩
def deposed (m : Nat) : State := ((grouped m).setCh Ch.groupState 3).raise ⟨0x0B0C, 0xAA, m, 0, none, []⟩
theorem test_master_timeout : ∃ m, (m = 6 ∨ m = 7) ∧ (grouped m).ch Ch.groupId = 0xAA ∧ (grouped m).isMaster = false ∧ (grouped m).ch Ch.groupState ≠ 3 ∧ (grouped m).masterPosition = m
    ∧ (deposed m).pkgAt (deposed m).masterPosition = some m := by
  rcases other_position with h | h
  · exact ⟨6, .inl rfl, by decide +kernel, not_master _ 6 (by decide) (grouped_master _) h, by decide +kernel, by decide +kernel, by decide +kernel⟩
  · exact ⟨7, .inr rfl, by decide +kernel, not_master _ 7 (by decide) (grouped_master _) h, by decide +kernel, by decide +kernel, by decide +kernel⟩
/-- The same with no map record at the master's position. -/
def unmapped (m : Nat) : State := (grouped m).setFlds (0xB0000 + 16 * m) [(⟨0, 0⟩, 0)]
theorem ch_setFlds (s : State) (b : Nat) (l : List (Fld × Nat)) (k : Nat) : (s.setFlds b l).ch k = s.ch k := by
  obtain ⟨_, _, h, _⟩ := State.setFlds_eq s b l
  rw [h]
  rfl
theorem unmapped_master (m : Nat) : (unmapped m).ch Ch.masterOverride = m := by
  unfold unmapped
  rw [ch_setFlds, grouped_master]
def deposedNone (m : Nat) : State := ((unmapped m).setCh Ch.groupState 3).raise ⟨0x0B0C, 0xAA, m, 0, none, []⟩
theorem test_master_unmapped : ∃ m, (m = 6 ∨ m = 7) ∧ (unmapped m).ch Ch.groupId = 0xAA ∧ (unmapped m).isMaster = false ∧ (unmapped m).ch Ch.groupState ≠ 3 ∧ (unmapped m).masterPosition = m
    ∧ (deposedNone m).pkgAt (deposedNone m).masterPosition = none := by
  rcases other_position with h | h
  · exact ⟨6, .inl rfl, by decide +kernel, not_master _ 6 (by decide) (unmapped_master _) h, by decide +kernel, by decide +kernel, by decide +kernel⟩
  · exact ⟨7, .inr rfl, by decide +kernel, not_master _ 7 (by decide) (unmapped_master _) h, by decide +kernel, by decide +kernel, by decide +kernel⟩

/-! ### Reef modules and stacks -/

/-- Module 3 in a state, alone in the Reef set, with the port as given. -/
def reef (st : Nat) (q : Port) : State := let s := (((base.setCh (Ch.modState + 768) st).setCh Ch.reefSet 8).setCh Ch.powerState 7); { s with ports := [(3, q)] }
theorem test_identity : (reef Ms.absent Port.fresh).modState 3 = Ms.absent ∧ (reef Ms.identifying Port.fresh).modState 3 = Ms.identifying ∧ setBits 12 0x251 % 2 = 0 ∧ setBits 12 0x250 % 2 = 1
    ∧ (reef Ms.safe Port.fresh).modState 3 ∈ [Ms.present, Ms.idFault, Ms.trainFault, Ms.safe, Ms.lost] := by decide +kernel
/-- R335: two equal readings of odd parity make the module PRESENT, two that differ leave it in ID_FAULT. -/
theorem test_identity_states : (match exec (.moduleIdentity 3 0x250 0x250 true) (reef Ms.identifying Port.fresh) with | .next t => t.modState 3 | _ => 99) = Ms.present
    ∧ (match exec (.moduleIdentity 3 0x250 0x210 true) (reef Ms.identifying Port.fresh) with | .next t => t.modState 3 | _ => 99) = Ms.idFault := by decide +kernel
def asking3 (k cmd : Nat) : State := reef Ms.training { Port.fresh with admitting := k, exchange := some (BitVec.ofNat 32 (cmd * 2 ^ 28)) }
theorem test_sideband : (∀ k ∈ [0, 1, 5], (asking3 k Sb.status).asked 3 Sb.status = some (Sb.status * 2 ^ 28) ∧ ((asking3 k Sb.status).port 3).step = k)
    ∧ (∀ c ∈ [Sb.status, Sb.lanes, Sb.preset, Sb.phyStart, Sb.phyResult, Sb.linkUp, Sb.scrubBand, Sb.scrubPoll, Sb.wake], (asking3 1 c).asked 3 c = some (c * 2 ^ 28) ∧ sbResult c (BitVec.ofNat 32 (c * 2 ^ 28)).toNat = 0)
    ∧ sbResult Sb.lanes (BitVec.ofNat 32 (Sb.lanes * 2 ^ 28 + 2 ^ 26)).toNat = 1 ∧ sbResult Sb.lanes (BitVec.ofNat 32 (Sb.lanes * 2 ^ 28 + 2 ^ 27)).toNat = 2
    ∧ lanesUsed (BitVec.ofNat 32 (Sb.phyResult * 2 ^ 28 + 0xFF)).toNat = some 0xFF ∧ lanesUsed 0xF0 = some 0xF0 ∧ lanesUsed 0x3F = some 0x0F ∧ lanesUsed 0x7E = none
    ∧ ((asking3 1 Sb.status).port 3).admitting ≠ 0 := by decide +kernel
/-- Band 7 holds logical band 2 and is worn, band 9 is to be scrubbed. -/
def mappedBand (lb age : Nat) : Nat := word [(BandRec.state, Bs.mapped), (BandRec.logical, lb), (BandRec.age, age)]
def upkeep : State := reef Ms.admitted { Port.fresh with bands := [(7, BandRec.state.set (mappedBand 2 0) Bs.relocating), (9, mappedBand 3 500)], reloc := some (7, 0), defects := [(7, 0)] }
theorem test_upkeep : upkeep.modState 3 = Ms.admitted ∧ (upkeep.port 3).reloc = some (7, 0) ∧ (upkeep.port 3).leastWorn = some 0
    ∧ upkeep.recordPorts = [3] ∧ ageFactor (signedOf 32 (upkeep.ch (Ch.temperature + 256 * 3))) = 1
    ∧ (∀ e ∈ (upkeep.port 3).bands, BandRec.state.get e.2 = Bs.mapped → BandRec.age.get e.2 < 168 → min 8191 (BandRec.age.get e.2 + 1) < 168)
    ∧ (upkeep.port 3).scrub = none ∧ upkeep.scrubReach 3 = true ∧ ((upkeep.setCh Ch.scrubRate 4).setCh Ch.scrubAge 168).scrubNext 3 = some 9 := by decide +kernel
theorem test_alarm_kinds : (0x0123 : BitVec 16).toNat / 8192 = 0 ∧ (0x4001 : BitVec 16).toNat / 8192 = 2 ∧ (0x4001 : BitVec 16).toNat % 8192 ≠ 0 := by decide

def reefRequest (w : Bool) (data : List Byte) : Request := ⟨9, 0, 0, w, 0x5100, 256, 0, 0, true, data, false⟩
def linked (q : Port) (l : List Request) : State := let s := reef Ms.admitted q; { s with ferry := { s.ferry with requests := l } }
def transfer (w : Bool) : Transfer := ⟨0, 9, w, 5, 2, 2, [], false⟩
def linkMsg (kind : Nat) (payload : List Byte) : LinkFrame := linkFrame (word [(LinkHdr.kind, kind), (LinkHdr.seq, 1), (LinkHdr.sector, 1), (LinkHdr.tag, 0)]) payload (crc32c payload)
theorem test_frames_out : (linked Port.fresh [reefRequest false []]).linkReady 3 = true ∧ (linked Port.fresh [reefRequest true zeroSector]).tooWarm 3 = false
    ∧ ((linked Port.fresh [reefRequest false []]).unserved 3).find? (fun q => !q.write || q.partSector) = some (reefRequest false [])
    ∧ ((linked Port.fresh [reefRequest false []]).beginTransfer 3 (reefRequest false []) false).isSome = true
    ∧ ((linked Port.fresh [reefRequest true zeroSector]).port 3).transfers.find? (fun t => t.write && t.left != 0) = none
    ∧ ((linked Port.fresh [reefRequest true zeroSector]).unserved 3).find? (fun q => q.write && !q.partSector) = some (reefRequest true zeroSector)
    ∧ ((linked Port.fresh [reefRequest true zeroSector]).beginTransfer 3 (reefRequest true zeroSector) true).isSome = true := by decide +kernel
def reading3 : State := linked { Port.fresh with transfers := [transfer false] } [reefRequest false []]
def controlMsg (cmd : Nat) : LinkFrame := linkMsg 5 (leBytes 4 (cmd * 2 ^ 28) ++ List.replicate 252 0)
set_option maxRecDepth 100000 in
theorem test_frames_in : LinkTaken reading3 3 3 (linkMsg 3 zeroSector) ∧ (linkMsg 3 zeroSector).sectorCheck.toNat = crc32c (linkMsg 3 zeroSector).payload
    ∧ ((reading3.afterLink 3 (linkMsg 3 zeroSector)).port 3).transfers.find? (fun t => t.tag == LinkHdr.tag.get (linkMsg 3 zeroSector).header.toNat && !t.write && bit t.left (LinkHdr.sector.get (linkMsg 3 zeroSector).header.toNat))
      = some (transfer false)
    ∧ LinkTaken reading3 3 4 (linkMsg 4 zeroSector) ∧ ((reading3.afterLink 3 (linkMsg 4 zeroSector)).port 3).transfers.find? (fun t => t.tag == LinkHdr.tag.get (linkMsg 4 zeroSector).header.toNat) = some (transfer false) := by
  unfold LinkTaken; decide +kernel
set_option maxRecDepth 100000 in
theorem test_control_frames : LinkTaken reading3 3 5 (controlMsg Sb.status) ∧ SbWord.cmd.get (leNat ((controlMsg Sb.status).payload.take 4)) = Sb.status ∧ sbResult Sb.status (leNat ((controlMsg Sb.status).payload.take 4)) = 0
    ∧ LinkTaken reading3 3 5 (controlMsg Sb.scrubPoll) ∧ SbWord.cmd.get (leNat ((controlMsg Sb.scrubPoll).payload.take 4)) = Sb.scrubPoll := by unfold LinkTaken; decide +kernel
def replaying (n : Nat) : State := reef Ms.admitted { Port.fresh with unacked := [controlMsg Sb.status], replays := n }
theorem test_replay : ((replaying 7).port 3).unacked ≠ [] ∧ (replaying 7).linkReady 3 = true ∧ 7 ≤ ((replaying 7).port 3).replays ∧ ((replaying 6).port 3).replays < 7 ∧ ((replaying 6).port 3).unacked ≠ []
    ∧ (replaying 6).linkReady 3 = true := by decide +kernel
/-- Stream 0 is HELD with a tile on stack 1; FILLING, it has stored none there. -/
def stacked (st : Nat) : State := (stream (planned base) st Cl.raw).setFlds 0x11000 [(StreamRec.residence, Rs.harbour)]
theorem test_stack : ∀ st ∈ [Ss.held, Ss.filling], (stacked st).ch (Ch.sliceState + 256 * 1) ≠ 1
    ∧ (List.range (stacked st).streamCount).filter (fun k => (stacked st).stateOf k != Ss.unborn && (stacked st).stateOf k != Ss.released && (stacked st).streamOn k 1) = [0]
    ∧ (stacked st).stateOf 0 = st := by decide +kernel

/-! ### Shoal programs -/

/-- Engine 3 at an instruction of a program that recomputes stream 0. -/
def invocation (code : List Nat) (n : Nat) : Invocation := ⟨.task x0, n, 0, code, 0, 0, 0, 0, 7, 0, 0, [], false, 0, []⟩
def engineAt (w n : Nat) : State :=
  let s := expanding Rs.harbour
  { s with engines := [(3, { Engine.reset with run := some (invocation [w] n) })] }
theorem test_instruction (w n : Nat) : (engineAt w n).InsnAt 3 w (invocation [w] n) := ⟨rfl, rfl⟩
theorem test_end : (invocation [0] noRef).stream = noRef ∧ (invocation [0] 0).stream ≠ noRef ∧ (engineAt 0 0).consumer (invocation [0] 0).consumer = some expander ∧ gi.wf = true ∧ ii.wf = true := by decide +kernel
/-- Engine 3 in an update of shard 0. -/
def updater (w : Nat) : State := { withShard (planned base) [] with engines := [(3, { Engine.reset with run := some { invocation [w] noRef with version := 1 } })] }
set_option maxRecDepth 100000 in
theorem test_loads : (match semVld (updater 0) { gi with b := 2 } ((updater 0).engineEnv 3 { invocation [0] noRef with version := 1 }) (updater 0).reader ((updater 0).insnBench 3 { invocation [0] noRef with version := 1 }) Regs.reset with
      | .ok p => (p.1.clips, (p.2.v.getD 1 []).take 2) | _ => (0, [])) = (480, [0, 0])
    ∧ (match semMma (engineAt 0 0) gi ((engineAt 0 0).engineEnv 3 (invocation [0] 0)) (engineAt 0 0).reader ((engineAt 0 0).insnBench 3 (invocation [0] 0)) Regs.reset with
      | .ok _ => true | _ => false) = true := by decide +kernel
/-- No lane is active under a predicate that is clear; all are under P0. -/
theorem test_gates : (active (Regs.reset.gate 1 false) (nats (Regs.reset.vreg 2))).filterMap id = [] ∧ ∃ k ks, (active (Regs.reset.gate 0 false) (nats (Regs.reset.vreg 2))).filterMap id = k :: ks :=
  ⟨by decide +kernel, 0, List.replicate 511 0, by decide +kernel⟩

/-! ### Resets, memory, refusals, buoys, programs, receivers -/

theorem test_stores : base.sets = [] ∧ base.checkWords = [] ∧ base.filling 0x20000 2 = false ∧ base.memWf = true ∧ shared.sets = [] ∧ shared.checkWords = [] ∧ shared.filling 0x300FF8 2 = false
    ∧ shared.deviceRegion false 5 0x300FF8 2 true = some 0xC0020 ∧ (shared.put 0x300FF8 [1, 2]).fld 0xC0020 DevRegion.notify ≠ 1 := by decide +kernel
/-- The bytes stored, and no others. -/
theorem test_stored : (match exec (.serverCoreWrite 0x20003 [1, 2, 3]) base with | .next t => t.rd 0x20000 8 | _ => []) = [0, 0, 0, 1, 2, 3, 0, 0]
    ∧ (match exec (.serverCoreRead (2 ^ 52 - 1) 2) base with | .fault (.noSuchAddress a) => a | _ => 0) = 2 ^ 52 - 1 := by decide +kernel
/-- The tables of a loaded plan are protected. -/
def guarded : State := (planned base).setFlds 0x10000 [(PlanHdr.imageBytes, 256)]
theorem test_forbidden : guarded.protects 0x10000 8 = true ∧ overlap 0x10000 8 windowStart windowBytes = false ∧ overlap 0x10000 8 (guarded.ch Ch.doorbellAddr) 8 = false ∧ headTouched 0x10000 8 = none
    ∧ base.deviceRegion false 5 0x20000 8 true = none ∧ base.deviceRegion false 5 0x20000 8 false = none ∧ 2 ^ 52 < (2 ^ 52 - 1) + 2 := by decide +kernel
def strange (a : Nat) : Req := ⟨.mctp, 1, 0, leBytes 8 a⟩
theorem test_refused_writes : ∀ p ∈ [(0x1200, 2, 1), (0x1200, 2, 2), (0x1200, 2, 3), (0x1200, 2, 4), (0x1201, 2, 0), (0x1201, 3, 0), (0x2000, 1, 1), (0x2000, 1, 2), (0x1001, 2, 0), (0xB000, 3, 0), (0x6001, 0, 0),
      (0x5001, 0, 1), (0x5001, 0, 2), (0x5001, 0, 3), (0x5001, 0, 4), (0x5001, 0, 5), (0x5001, 0, 6), (0x5002, 2, 0), (0x7400, 3, 2), (0x1130, 2, 0), (0x1130, 3, 1), (0x9181, 4, 0), (0x8000, 5, 1)],
    (strange p.2.2).path = .mctp ∧ (p.2.2 ≠ 0 → actionIs (strange p.2.2) actF p.2.2 = true) ∧ base.writeStatus p.1 p.2.1 (strange p.2.2) ⟨true, true, true, id⟩ ≠ Cs.ok := by decide +kernel
/-- A barrier of two with one entry in its round and `n` parked. -/
def filled (n : Nat) : Buoy := { bar6 with entries := [⟨.cmd 5, 1⟩], parked := List.replicate n ⟨.cmd 6, 1⟩ }
def filling6 (n : Nat) : State := let s := withCmd base entryC; { s with buoys := [(1, filled n)] }
def entering (n : Nat) : State := named ((filling6 n).setStage 1 .waiting 0) entryC
theorem test_rounds : (∀ n ∈ [0, 2], (filling6 n).cmd 1 Op.wait = some entryC ∧ (filling6 n).buoyAway entryC.word = false
      ∧ (entering n).findBuoy ((filling6 n).cmdContext entryC) (cmdGet entryC.word CmdBuoy.buoy) = some (1, filled n) ∧ (filled n).entries.length + 1 = (filled n).participants ∧ (filled n).parked.length = n
      ∧ (entering n).ch Ch.groupId = 0) ∧ entryC.stage = .ready ∧ cmdGet entryC.word CmdBuoy.barrier = 1 ∧ cmdGet entryC.word CmdBuoy.count ≠ 0
    ∧ cmdGet entryC.word CmdBuoy.round % 2 ^ 32 = bar6.round ∧ bar6.kind = Bk.barrier ∧ bar6.lost = false := by decide +kernel
theorem test_buoys_stay : State.buoysWf { onBuoy signalC with pending := [.signal 1] } = true ∧ (onBuoy signalC).plan.lateSeen = []
    ∧ (match step { onBuoy signalC with pending := [.signal 1] } with | .next t => t.buoysWf | _ => false) = true := by decide +kernel
theorem test_registers_stay : (engineAt (gWord 0x09 gi) 0).enginesWf = true ∧ Instr.laneInsn (.sadd 3 gi) = some 3
    ∧ (match step { engineAt (gWord 0x09 gi) 0 with pending := [.sadd 3 gi] } with | .next t => t.enginesWf && decide ((t.engine 3).regs.pc = 1) | _ => false) = true
    ∧ (match exec (.vst 3 { gi with pred := 1 }) (engineAt (gWord 0x11 { gi with pred := 1 }) 0) with | .next t => t.enginesWf | _ => false) = true := by decide +kernel
/-- R254: the word of SADD S1, S2, S3 with C 4, written out from its layout: OP [63:56], PRED [55:53], D [47:43], A [42:38], B [37:33], C [31:27]; of SLI with IMM [31:0] 5. -/
theorem test_insn_word : gWord 0x09 gi = 0x09 * 2 ^ 56 + 1 * 2 ^ 43 + 2 * 2 ^ 38 + 3 * 2 ^ 33 + 4 * 2 ^ 27 ∧ iWord 0x08 ii = 0x08 * 2 ^ 56 + 1 * 2 ^ 43 + 2 * 2 ^ 38 + 5 := by decide +kernel
def late (f : Frame) : Frame := let h := MsgHdr.seq.set f.header.toNat 2; { f with header := BitVec.ofNat 256 (MsgHdr.msgCrc.set h (msgCrc h f.payload)) }
theorem test_out_of_turn : (grouped 0).discards { msg Mk.heartbeat 0xFF00 [] with srcMac := 0 } = true
    ∧ (∀ k ∈ List.range' 1 12, (grouped 0).discards (late (msg k 0 [])) = false ∧ MsgHdr.kind.get (late (msg k 0 [])).header.toNat = k
      ∧ MsgHdr.seq.get (late (msg k 0 [])).header.toNat ≠ (((grouped 0).peer (frameSrc (late (msg k 0 [])))).rxSeq + 1) % 65536) := by decide +kernel
def lateLink (kind : Nat) : LinkFrame := linkFrame (word [(LinkHdr.kind, kind), (LinkHdr.seq, 2)]) zeroSector 0
set_option maxRecDepth 100000 in
theorem test_link_out_of_turn : reading3.moduleServes 3 true = true ∧ linkSound ⟨0, [], 0, 0⟩ = false ∧ (∀ k ∈ [3, 4, 5], linkSound (lateLink k) = true ∧ LinkHdr.kind.get (lateLink k).header.toNat = k
    ∧ LinkHdr.seq.get (lateLink k).header.toNat ≠ ((reading3.port 3).rxSeq + 1) % 4096) := by decide +kernel
/-- The strap that opens the locked pages is the board's: it is high or low, and each clause is met on a board of its kind. -/
theorem test_locked : (Config.strapTest = true ∨ Config.strapTest = false) ∧ base.slotBusy (wr 8 0).path = false ∧ (wr 8 0).path.isMctp = false ∧ (wr 8 0).data.length ≤ 256 ∧ (lockedOpen 0xFF00 = Config.strapTest) :=
  ⟨by cases Config.strapTest <;> simp, by decide +kernel, by decide +kernel, by decide +kernel, rfl⟩

end Sys2Proof.Tests
end

section
/-! PROOFS. The step, the reset and the failure of a stack. -/

namespace Sys2Proof.Machine

/-! ### The step -/

/-- With a command waiting, the one at the front runs on the state with the rest. -/
theorem step_of_pending_cons {c : Instr} {rest : List Instr} {s : State} (h : s.pending = c :: rest) :
    step s = exec c { s with pending := rest } := by
  simp only [step, h]

/-- With no command waiting, one standby cycle passes. -/
theorem step_of_pending_nil {s : State} (h : s.pending = []) : step s = .next s.tick := by
  simp only [step, h]

/-- Settles O1, by the two cases of the queue of commands. -/
theorem stepRunsFrontCommand : Obligations.StepRunsFrontCommand :=
  ⟨fun _ _ _ => step_of_pending_cons, fun _ => step_of_pending_nil⟩

/-! ### The failure of a stack -/

theorem exec_stackFailed (n : Nat) (s : State) : exec (.stackFailed n) s = execStackFailed n s := rfl

/-- Settles O38: the stack is one of the twenty and in service, so the guard of STACK_FAILED lets it act. -/
theorem stackFailureActs : Obligations.StackFailureActs := by
  intro s t n xs hn hservice hxs ht
  have hguard : ¬ (20 ≤ n ∨ s.ch (Ch.sliceState + 256 * n) = 1) :=
    not_or.mpr ⟨Nat.not_le.mpr hn, hservice⟩
  subst hxs ht
  rw [exec_stackFailed, execStackFailed, if_neg hguard]

/-! ### The reset -/

/-- After reset every Chart entry holds its default (R433). -/
@[simp] theorem State.ch_reset (k : Nat) : State.reset.ch k = chartDefault k := rfl

/-- After reset every engine is in the one state that log entry 28 chooses. -/
@[simp] theorem State.engine_reset (e : Nat) : State.reset.engine e = Engine.reset := rfl

/-- The entries that tell of power, plan, session, group, microcode and the cause of the last reset have the default 0: asleep, EMPTY, DETACHED, none (R449). -/
theorem chartDefault_of_states :
    ∀ k ∈ [Ch.powerState, Ch.planState, Ch.sessionState, Ch.groupState, Ch.mcState, Ch.lastReset], chartDefault k = 0 := by
  decide +kernel

theorem State.ch_reset_of_states {k : Nat} (hk : k ∈ [Ch.powerState, Ch.planState, Ch.sessionState, Ch.groupState, Ch.mcState, Ch.lastReset]) :
    State.reset.ch k = 0 := by
  rw [State.ch_reset, chartDefault_of_states k hk]

/-- The default of MOD_STATE is ABSENT on each of the 16 ports. -/
theorem chartDefault_modState : ∀ p, p < 16 → chartDefault (Ch.modState + 256 * p) = Ms.absent := by
  decide +kernel

theorem State.modState_reset {p : Nat} (hp : p < 16) : State.reset.modState p = Ms.absent := by
  rw [State.modState, State.ch_reset, chartDefault_modState p hp]

/-- The register file of log entry 28, zero but for P0, is well formed. -/
theorem Regs.wf_reset : Regs.reset.wf = true := by decide +kernel

theorem State.regs_wf_reset (e : Nat) : (State.reset.engine e).regs.wf = true := by
  rw [State.engine_reset, Engine.reset, Regs.wf_reset]

/-- Settles O43: the Chart through its defaults, the register files through the one that reset gives them, the other fields as `State.reset` lists them. -/
theorem resetValues : Obligations.ResetValues := by
  have hpower : State.reset.ch Ch.powerState = 0 := State.ch_reset_of_states (by simp)
  have hplan : State.reset.ch Ch.planState = Pl.empty := State.ch_reset_of_states (by simp)
  have hsession : State.reset.ch Ch.sessionState = Sn.detached := State.ch_reset_of_states (by simp)
  have hgroup : State.reset.ch Ch.groupState = 0 := State.ch_reset_of_states (by simp)
  have hmicrocode : State.reset.ch Ch.mcState = 0 := State.ch_reset_of_states (by simp)
  have hcause : State.reset.ch Ch.lastReset = 0 := State.ch_reset_of_states (by simp)
  exact ⟨rfl, rfl, rfl, hpower, hplan, hsession, hgroup, hmicrocode, hcause, rfl, rfl, rfl, rfl, rfl, rfl, rfl, rfl, rfl,
    fun _ => State.modState_reset, State.reset_mem_wf, rfl, rfl, State.regs_wf_reset⟩

end Sys2Proof.Machine
end

section
/-! PROOFS. Stores and loads of server cores and devices (O30, O46, O47, O48). -/

namespace Sys2Proof.Machine

/-! ### Memory read back in one piece -/

/-- Cells below `a` list none of the bytes from `a` on. -/
theorem Memory.read_dropWhile {m : List Host.Cell} {a x : Nat} (h : a ≤ x) :
    Memory.read (m.dropWhile (fun c => c.1 < a)) x = Memory.read m x := by
  induction m with
  | nil => rfl
  | cons c m ih =>
    obtain ⟨k, b⟩ := c
    by_cases hk : k < a
    · have hkx : k ≠ x := by omega
      simp [hk, ih, Memory.read, hkx]
    · simp [hk]

/-- In canonical form the cells that are left once those below `a` are dropped all lie at `a` or above. -/
theorem Memory.le_of_mem_dropWhile {m : List Host.Cell} (hm : Memory.wf m = true) (a : Nat) :
    ∀ c ∈ m.dropWhile (fun c => c.1 < a), a ≤ c.1 := by
  induction m with
  | nil => simp
  | cons c m ih =>
    obtain ⟨k, b⟩ := c
    obtain ⟨-, hk, hm⟩ := Memory.wf_cons.mp hm
    by_cases hka : k < a
    · simpa [List.dropWhile_cons, hka] using ih hm
    · intro c hc
      simp only [List.dropWhile_cons, hka, decide_false, Bool.false_eq_true, if_false, List.mem_cons] at hc
      rcases hc with rfl | hc
      · exact Nat.not_lt.mp hka
      · have := hk c hc; omega

theorem Memory.wf_dropWhile {m : List Host.Cell} (p : Host.Cell → Bool) (hm : Memory.wf m = true) : Memory.wf (m.dropWhile p) = true := by
  induction m with
  | nil => rfl
  | cons c m ih =>
    by_cases hp : p c = true
    · simpa [List.dropWhile_cons, hp] using ih (Memory.wf_cons.mp hm).2.2
    · simpa [List.dropWhile_cons, hp] using hm

/-- Filling from cells in canonical form, none below `a`, gives the byte of each address in turn. -/
theorem Memory.fill_eq_map (n a : Nat) {m : List Host.Cell} (hm : Memory.wf m = true) (ha : ∀ c ∈ m, a ≤ c.1) :
    Memory.fill n a m = (List.range' a n).map (Memory.read m) := by
  induction n generalizing a m with
  | zero => rfl
  | succ n ih =>
    rw [List.range'_succ, List.map_cons]
    cases m with
    | nil => rw [Memory.fill, ih (a + 1) hm (by simp)]; rfl
    | cons c m =>
      obtain ⟨k, b⟩ := c
      obtain ⟨-, hk, hwf⟩ := Memory.wf_cons.mp hm
      by_cases hka : k = a
      · subst hka
        have htail : (List.range' (k + 1) n).map (Memory.read m) = (List.range' (k + 1) n).map (Memory.read ((k, b) :: m)) := by
          refine List.map_congr_left (fun x hx => ?_)
          have hkx : k ≠ x := by have := (List.mem_range'_1.mp hx).1; omega
          simp [Memory.read, hkx]
        rw [Memory.fill, if_pos rfl, ih (k + 1) hwf (fun c hc => hk c hc), htail]
        simp [Memory.read]
      · have hlt : a < k := by have := ha (k, b) (by simp); simp at this; omega
        have hnone : Memory.read ((k, b) :: m) a = 0 :=
          Memory.read_of_absent (by
            simp only [List.mem_cons, forall_eq_or_imp]
            exact ⟨hka, fun c hc => by have := hk c hc; omega⟩)
        rw [Memory.fill, if_neg hka, hnone, ih (a + 1) hm (by
          simp only [List.mem_cons, forall_eq_or_imp]
          exact ⟨hlt, fun c hc => by have := hk c hc; omega⟩)]

/-- The bytes read upwards from `a` out of memory in canonical form. -/
theorem Memory.readN_eq_map {m : List Host.Cell} (hm : Memory.wf m = true) (a n : Nat) :
    Memory.readN m a n = (List.range' a n).map (Memory.read m) := by
  rw [Memory.readN, Memory.fill_eq_map n a (Memory.wf_dropWhile _ hm) (Memory.le_of_mem_dropWhile hm a)]
  exact List.map_congr_left (fun x hx => Memory.read_dropWhile (List.mem_range'_1.mp hx).1)

/-- What is written is read back. -/
theorem Memory.readN_write {m : List Host.Cell} (hm : Memory.wf m = true) (a : Nat) (bs : List Byte) :
    Memory.readN (Memory.write m a bs) a bs.length = bs := by
  rw [Memory.readN_eq_map (Memory.wf_write hm a bs)]
  refine List.ext_getElem (by simp) (fun i hi hib => ?_)
  simp [Memory.read_write, hib]

/-- With every sector sound no read fails. -/
theorem State.failing_sound (s : State) (a n : Nat) (h : s.checkWords = []) : s.failing a n = none := by
  simp [State.failing, h]

/-! ### Accesses, by what lies at the address -/

/-- The bytes lie in memory as server cores see it: below 2^52, and neither in the Reef window nor at the doorbell address (R8). -/
structure State.InMemory (s : State) (a n : Nat) : Prop where
  low : a + n ≤ 2 ^ 52
  window : overlap a n windowStart windowBytes = false
  doorbell : overlap a n (s.ch Ch.doorbellAddr) 8 = false

/-- A store of a server core to bytes of memory that hold no slot's head is a plain write. -/
theorem exec_serverCoreWrite_memory {s : State} {a : Nat} {bs : List Byte} (hm : s.InMemory a bs.length) (hh : headTouched a bs.length = none) :
    exec (.serverCoreWrite a bs) s = .next (s.coreWriteNow a bs) := by
  show execServerCoreWrite a bs s = _
  rw [execServerCoreWrite, if_neg (Nat.not_lt.mpr hm.low)]
  simp [hm.window, hm.doorbell, hh]

/-- A load of a server core from memory is a plain read. -/
theorem exec_serverCoreRead_memory {s : State} {a n : Nat} (hm : s.InMemory a n) :
    exec (.serverCoreRead a n) s = .next (s.coreReadNow a n) := by
  show execServerCoreRead a n s = _
  rw [execServerCoreRead, if_neg (Nat.not_lt.mpr hm.low)]
  simp [hm.window, hm.doorbell]

theorem exec_serverCoreWrite_beyond {s : State} {a : Nat} {bs : List Byte} (h : 2 ^ 52 < a + bs.length) :
    exec (.serverCoreWrite a bs) s = .fault (.noSuchAddress a) := by
  show execServerCoreWrite a bs s = _
  rw [execServerCoreWrite, if_pos h]

theorem exec_serverCoreRead_beyond {s : State} {a n : Nat} (h : 2 ^ 52 < a + n) :
    exec (.serverCoreRead a n) s = .fault (.noSuchAddress a) := by
  show execServerCoreRead a n s = _
  rw [execServerCoreRead, if_pos h]

theorem exec_deviceMemoryWrite (q a : Nat) (bs : List Byte) (s : State) :
    exec (.deviceMemoryWrite q a bs) s = .next (s.devWriteNow false q a bs) := rfl

theorem exec_deviceMemoryRead (q a n : Nat) (s : State) :
    exec (.deviceMemoryRead q a n) s = .next (s.devReadNow false q a n) := rfl

/-! ### What an access does, by the checks it meets -/

theorem State.coreWriteNow_put {s : State} {a : Nat} {bs : List Byte} (hp : s.protects a bs.length = false) (hf : s.filling a bs.length = false)
    (hm : s.mergeFails a bs.length = none) : s.coreWriteNow a bs = s.put a bs := by
  simp [State.coreWriteNow, hp, hf, hm]

theorem State.coreWriteNow_protected {s : State} {a : Nat} {bs : List Byte} (hp : s.protects a bs.length = true) :
    s.coreWriteNow a bs = s.writeRefused a 0 none := by
  simp [State.coreWriteNow, hp]

theorem State.coreReadNow_data {s : State} {a n : Nat} (hf : s.filling a n = false) (hs : s.failing a n = none) :
    s.coreReadNow a n = s.out (.coreData (s.rd a n)) := by
  simp [State.coreReadNow, hf, hs]

theorem State.devWriteNow_put {s : State} {acc : Bool} {q a g : Nat} {bs : List Byte} (hg : s.deviceRegion acc q a bs.length true = some g)
    (hf : s.filling a bs.length = false) (hm : s.mergeFails a bs.length = none) :
    s.devWriteNow acc q a bs = (s.put a bs).notifyWrite g a bs := by
  simp [State.devWriteNow, hg, hf, hm]

theorem State.devWriteNow_refused {s : State} {acc : Bool} {q a : Nat} {bs : List Byte} (hg : s.deviceRegion acc q a bs.length true = none) :
    s.devWriteNow acc q a bs = s.inboundRefused q a 1 := by
  simp [State.devWriteNow, hg]

theorem State.devReadNow_data {s : State} {acc : Bool} {q a n g : Nat} (hg : s.deviceRegion acc q a n false = some g)
    (hf : s.filling a n = false) (hs : s.failing a n = none) : s.devReadNow acc q a n = s.out (.deviceData q (s.rd a n)) := by
  simp [State.devReadNow, hg, hf, hs]

theorem State.devReadNow_refused {s : State} {acc : Bool} {q a n : Nat} (hg : s.deviceRegion acc q a n false = none) :
    s.devReadNow acc q a n = (s.inboundRefused q a 0).out (.unsupportedRequest q a) := by
  simp [State.devReadNow, hg]

/-- A region without a notify word signals nothing. -/
theorem State.notifyWrite_of_none {s : State} {g a : Nat} {bs : List Byte} (h : s.fld g DevRegion.notify ≠ 1) : s.notifyWrite g a bs = s := by
  rw [State.notifyWrite, if_neg (fun hn => h hn.1)]

/-! ### The statements about memory -/

/-- Settles O30: each access through the checks that it meets; an atomic operation draws its direction from the free words. -/
theorem accessesComplete : Obligations.AccessesComplete := by
  intro s a n bs
  refine ⟨fun hlow hwin hbell hhead hprot hfill hmerge => ?_, fun hlow hwin hbell hfill hfail => ?_, fun q g hg hfill hmerge => ?_,
    fun q g hg hfill hfail => ?_, fun q => ?_⟩
  · rw [exec_serverCoreWrite_memory ⟨hlow, hwin, hbell⟩ hhead, State.coreWriteNow_put hprot hfill hmerge]
  · rw [exec_serverCoreRead_memory ⟨hlow, hwin, hbell⟩, State.coreReadNow_data hfill hfail]
  · rw [exec_deviceMemoryWrite, State.devWriteNow_put hg hfill hmerge]
  · rw [exec_deviceMemoryRead, State.devReadNow_data hg hfill hfail]
  · exact ⟨(Config.freeWord s.freeCount).toNat % 2, Nat.mod_lt _ (by decide), rfl⟩

/-- Settles O48: each access through the first check that refuses it. -/
theorem forbiddenAccessesAreRefused : Obligations.ForbiddenAccessesAreRefused := by
  intro s a n q bs
  refine ⟨fun hlow hwin hbell hhead hprot => ?_, fun hg => ?_, fun hg => ?_, exec_serverCoreWrite_beyond, exec_serverCoreRead_beyond⟩
  · rw [exec_serverCoreWrite_memory ⟨hlow, hwin, hbell⟩ hhead, State.coreWriteNow_protected hprot]
  · rw [exec_deviceMemoryWrite, State.devWriteNow_refused hg]
  · rw [exec_deviceMemoryRead, State.devReadNow_refused hg]

/-- A store that nothing holds up leaves memory as written and all else as it was. -/
theorem exec_serverCoreWrite_sound {s : State} {a : Nat} {bs : List Byte} (hsets : s.sets = []) (hsound : s.checkWords = [])
    (hfill : s.filling a bs.length = false) (hmem : s.InMemory a bs.length) (hhead : headTouched a bs.length = none) (hprot : s.protects a bs.length = false) :
    exec (.serverCoreWrite a bs) s = .next { s with mem := Memory.write s.mem a bs } := by
  rw [exec_serverCoreWrite_memory hmem hhead, State.coreWriteNow_put hprot hfill (State.mergeFails_sound s a _ hsound), State.put_sound s a bs hsound hsets]

/-- A load that nothing holds up answers the bytes that are there. -/
theorem exec_serverCoreRead_sound {s : State} {a n : Nat} {bs : List Byte} (hsound : s.checkWords = []) (hfill : s.filling a n = false)
    (hmem : s.InMemory a n) (hread : s.rd a n = bs) : exec (.serverCoreRead a n) s = .next (s.out (.coreData bs)) := by
  rw [exec_serverCoreRead_memory hmem, State.coreReadNow_data hfill (State.failing_sound s a n hsound), hread]

/-- Settles O46: in both cases the next state is the old one with the bytes written, of which `Memory.read_write` gives each byte and `Memory.wf_write` the canonical form. -/
theorem storesTouchOnlyTheirBytes : Obligations.StoresTouchOnlyTheirBytes := by
  intro s c a bs hsets hsound hfill horigin
  have hexec : exec c s = .next { s with mem := Memory.write s.mem a bs } := by
    rcases horigin with ⟨rfl, hlow, hwin, hbell, hhead, hprot⟩ | ⟨q, g, rfl, hg, hnotify⟩
    · exact exec_serverCoreWrite_sound hsets hsound hfill ⟨hlow, hwin, hbell⟩ hhead hprot
    · rw [exec_deviceMemoryWrite, State.devWriteNow_put hg hfill (State.mergeFails_sound s a _ hsound), State.notifyWrite_of_none hnotify,
        State.put_sound s a bs hsound hsets]
  exact ⟨_, hexec, rfl, fun x => Memory.read_write s.mem a x bs, fun hwf => Memory.wf_write hwf a bs⟩

/-- Settles O47: the store leaves the checks of the load as they were, and `Memory.readN_write` gives the bytes. -/
theorem storedBytesAreReadBack : Obligations.StoredBytesAreReadBack := by
  intro s a bs hwf hsets hsound hfill hlow hwin hbell hhead hprot
  exact ⟨_, exec_serverCoreWrite_sound hsets hsound hfill ⟨hlow, hwin, hbell⟩ hhead hprot,
    exec_serverCoreRead_sound hsound hfill ⟨hlow, hwin, hbell⟩ (Memory.readN_write hwf a bs)⟩

end Sys2Proof.Machine
end

section
/-! PROOFS. The Skerries' queues are out of reach of a store to memory, whatever set's pages it forces and whatever command that ends: one lemma for each operation on the way. -/

namespace Sys2Proof.Machine

/-- What each step of a fold leaves as it is, the fold does. -/
theorem foldl_keeps {α β γ : Type} (p : β → γ) {f : β → α → β} (h : ∀ b x, p (f b x) = p b) (l : List α) (b : β) :
    p (l.foldl f b) = p b := by
  induction l generalizing b with
  | nil => rfl
  | cons x l ih => rw [List.foldl_cons, ih, h]

/-! ### Stores, fields, events -/

@[simp] theorem State.store_skerry (s : State) (a : Nat) (bs : List Byte) : (s.store a bs).skerry = s.skerry := by
  obtain ⟨m, c, h, -, -⟩ := State.store_eq s a bs
  rw [h]

@[simp] theorem State.setFld_skerry (s : State) (a : Nat) (f : Fld) (v : Nat) : (s.setFld a f v).skerry = s.skerry := State.store_skerry _ _ _

@[simp] theorem State.setQ_skerry (s : State) (q : Nat) (f : Fld) (v : Nat) : (s.setQ q f v).skerry = s.skerry := State.setFld_skerry _ _ _ _

@[simp] theorem State.setStf_skerry (s : State) (k : Nat) (f : Fld) (v : Nat) : (s.setStf k f v).skerry = s.skerry := State.setFld_skerry _ _ _ _

@[simp] theorem State.ringWrite_skerry (s : State) (r : Nat) : (s.ringWrite r).skerry = s.skerry := by
  unfold State.ringWrite
  dsimp only
  split
  · split <;> simp
  · simp

@[simp] theorem State.ringChain_skerry (s : State) (chain : List Nat) : (s.ringChain chain).skerry = s.skerry := by
  unfold State.ringChain
  dsimp only
  split
  · exact foldl_keeps State.skerry State.ringWrite_skerry chain s
  · simp

@[simp] theorem State.holdChain_skerry (s : State) (chain : List Nat) : (s.holdChain chain).skerry = s.skerry := by
  unfold State.holdChain
  dsimp only
  repeat' split
  all_goals simp

@[simp] theorem State.raise_skerry (s : State) (e : Ev) : (s.raise e).skerry = s.skerry := by
  unfold State.raise
  dsimp only
  split <;> simp

@[simp] theorem State.sectorDetected_skerry (s : State) (sec n t : Nat) (ctx : Option Nat) : (s.sectorDetected sec n t ctx).skerry = s.skerry := by
  unfold State.sectorDetected
  dsimp only
  split <;> simp

@[simp] theorem State.sectorFound_skerry (s : State) (sec : Nat) (ctx : Option Nat) : (s.sectorFound sec ctx).skerry = s.skerry := by
  unfold State.sectorFound
  split <;> simp

@[simp] theorem State.sound_skerry (s : State) (base size idx : Nat) (f : Fld) (n : Nat) : (s.sound base size idx f n).skerry = s.skerry := by
  unfold State.sound
  split <;> simp

@[simp] theorem State.soundLayer_skerry (s : State) (layer : Nat) (f : Fld) (n : Nat) : (s.soundLayer layer f n).skerry = s.skerry := State.sound_skerry ..

@[simp] theorem State.soundStream_skerry (s : State) (n : Nat) (f : Fld) (k : Nat) : (s.soundStream n f k).skerry = s.skerry := State.sound_skerry ..

/-! ### Messages and buoys -/

@[simp] theorem State.send_skerry (s : State) (dst kind arg : Nat) (payload : List Byte) : (s.send dst kind arg payload).skerry = s.skerry := rfl

@[simp] theorem State.sendBuoyOp_skerry (s : State) (pkg op ctx name n : Nat) (who : Who) (edge : Nat) :
    (s.sendBuoyOp pkg op ctx name n who edge).skerry = s.skerry := rfl

@[simp] theorem State.sendRun_skerry (s : State) (pkg kind place : Nat) (bs : List Byte) : (s.sendRun pkg kind place bs).skerry = s.skerry := by
  unfold State.sendRun
  refine foldl_keeps State.skerry (fun _ _ => ?_) _ s
  rfl

@[simp] theorem State.releaseWho_skerry (s : State) (w : Who) (status detail : Nat) : (s.releaseWho w status detail).skerry = s.skerry := by
  cases w with
  | remote pkg op => unfold State.releaseWho; dsimp only; split <;> simp
  | cmd tag => rfl
  | task x => rfl
  | gone => rfl

@[simp] theorem State.releaseAll_skerry (s : State) (ws : List Waiter) (status detail : Nat) : (s.releaseAll ws status detail).skerry = s.skerry := by
  unfold State.releaseAll
  refine foldl_keeps State.skerry (fun s w => ?_) ws s
  simp

@[simp] theorem State.serve_skerry (s : State) (k : Nat) : (s.serve k).skerry = s.skerry := by
  unfold State.serve
  split
  · rfl
  · split
    · rfl
    · simp

@[simp] theorem State.translates_skerry (s : State) : s.translates.skerry = s.skerry := rfl

@[simp] theorem State.noteSignal_skerry (s : State) (k : Nat) : (s.noteSignal k).skerry = s.skerry := by
  unfold State.noteSignal
  split <;> rfl

@[simp] theorem State.buoyError_skerry (s : State) (k ctx name cause op arg : Nat) : (s.buoyError k ctx name cause op arg).1.skerry = s.skerry := by
  simp [State.buoyError]

@[simp] theorem State.signal_skerry (s : State) (ctx name n : Nat) : (s.signal ctx name n).1.skerry = s.skerry := by
  unfold State.signal
  dsimp only
  repeat' split
  all_goals simp

@[simp] theorem State.meetsPlan_skerry (s : State) (q ctx name : Nat) : (s.meetsPlan q ctx name).skerry = s.skerry := by
  unfold State.meetsPlan
  dsimp only
  split <;> simp

@[simp] theorem State.roundComplete_skerry (n : Nat) (s : State) (k : Nat) : (State.roundComplete n s k).skerry = s.skerry := by
  induction n generalizing s with
  | zero => rfl
  | succ n ih =>
    unfold State.roundComplete
    split
    · rfl
    · split
      · simp [ih]
      · rfl

@[simp] theorem State.enterBarrier_skerry (s : State) (ctx name e : Nat) (who : Who) : (s.enterBarrier ctx name e who).1.skerry = s.skerry := by
  unfold State.enterBarrier
  dsimp only
  repeat' split
  all_goals simp

/-! ### Commands that end, and the slips that they release -/

@[simp] theorem State.queueError_skerry (s : State) (q cause : Nat) : (s.queueError q cause).skerry = s.skerry := by
  simp [State.queueError]

@[simp] theorem State.writeRecord_skerry (s : State) (m : MemResult) (q w status detail : Nat) : (s.writeRecord m q w status detail).skerry = s.skerry := by
  unfold State.writeRecord
  dsimp only
  split <;> simp

@[simp] theorem State.finish_skerry (s : State) (m : MemResult) (q w status detail : Nat) : (s.finish m q w status detail).skerry = s.skerry := by
  unfold State.finish
  dsimp only
  repeat' split
  all_goals simp

@[simp] theorem State.readFault_skerry (s : State) (a n : Nat) (ctx : Option Nat) : (s.readFault a n ctx).skerry = s.skerry := by
  unfold State.readFault
  split <;> simp

@[simp] theorem State.drainFault_skerry (s : State) (q : Nat) : (s.drainFault q).skerry = s.skerry := by
  unfold State.drainFault
  dsimp only
  split <;> simp

@[simp] theorem State.drain_skerry (n : Nat) (s : State) (q : Nat) : (State.drain n s q).skerry = s.skerry := by
  induction n generalizing s with
  | zero => rfl
  | succ n ih =>
    unfold State.drain
    dsimp only
    repeat' split
    all_goals simp [ih]

@[simp] theorem State.complete_skerry (s : State) (d : Dispatched) (status detail : Nat) : (s.complete d status detail).skerry = s.skerry := by
  simp [State.complete, State.drainQueue]

@[simp] theorem State.setArrival_skerry (s : State) (a : Arrival) : (s.setArrival a).skerry = s.skerry := rfl

@[simp] theorem State.nextRound_skerry (s : State) (e : Nat) : (s.nextRound e).2.skerry = s.skerry := rfl

@[simp] theorem State.enterEdge_skerry (s : State) (x : TaskRef) (e : Nat) : (s.enterEdge x e).1.skerry = s.skerry := by
  have hbarrier : ∀ {ctx name r : Nat} {p : State × BuoyEnd}, (s.nextRound e).2.enterBarrier ctx name r (.task x) = p → p.1.skerry = s.skerry := by
    rintro ctx name r p rfl
    simp
  unfold State.enterEdge
  dsimp only
  split
  · rfl
  · split
    · rw [State.sendBuoyOp_skerry, State.setArrival_skerry]
      split <;> simp
    · split
      · split
        · next h => exact hbarrier h
        · next h => exact hbarrier h
      · repeat' split
        all_goals simp

@[simp] theorem State.arrive_skerry (s : State) (x : TaskRef) : (s.arrive x).1.skerry = s.skerry := by
  unfold State.arrive
  split
  · rfl
  · refine foldl_keeps (fun p : State × Option Nat => p.1.skerry) (fun p e => ?_) _ _
    split <;> simp

@[simp] theorem State.takeEdges_skerry (s : State) (x : TaskRef) : (s.takeEdges x).skerry = s.skerry :=
  foldl_keeps State.skerry (fun s e => by simp) _ _

@[simp] theorem State.noteLedger_skerry (s : State) (x : TaskRef) : (s.noteLedger x).skerry = s.skerry := by
  unfold State.noteLedger
  refine foldl_keeps State.skerry (fun _ _ => ?_) _ s
  rfl

@[simp] theorem State.markShard_skerry (s : State) (x : TaskRef) : (s.markShard x).skerry = s.skerry := by
  unfold State.markShard
  split <;> simp

@[simp] theorem State.setTask_skerry (s : State) (x : TaskRef) (v : Nat) : (s.setTask x v).skerry = s.skerry := State.setFld_skerry _ _ _ _

@[simp] theorem State.beginTask_skerry (s : State) (x : TaskRef) (y : Option TaskRef) : (s.beginTask x y).skerry = s.skerry := by
  simp [State.beginTask]

@[simp] theorem State.slip_skerry (s : State) (x : TaskRef) : (s.slip x).skerry = s.skerry := by
  unfold State.slip
  dsimp only
  repeat' split
  all_goals simp

@[simp] theorem State.recheckSlips_skerry (s : State) : s.recheckSlips.skerry = s.skerry :=
  foldl_keeps State.skerry State.slip_skerry _ _

@[simp] theorem State.endCmd_skerry (s : State) (d : Dispatched) (status detail : Nat) : (s.endCmd d status detail).skerry = s.skerry := by
  simp [State.endCmd]

/-! ### The Reef and the pages of sets -/

@[simp] theorem State.spareFloor_skerry (s : State) (p : Nat) : (s.spareFloor p).skerry = s.skerry := by
  unfold State.spareFloor
  dsimp only
  split <;> simp

theorem State.mapBand_skerry {s t : State} {p lb : Nat} (h : s.mapBand p lb = some t) : t.skerry = s.skerry := by
  unfold State.mapBand at h
  split at h
  · cases h; rfl
  · split at h
    · cases h
    · cases h; simp

@[simp] theorem State.wearWarn_skerry (s : State) (p : Nat) : (s.wearWarn p).skerry = s.skerry := by
  unfold State.wearWarn
  dsimp only
  split <;> simp

@[simp] theorem State.frameWritten_skerry (s : State) (p mb : Nat) : (s.frameWritten p mb).skerry = s.skerry := by
  unfold State.frameWritten
  dsimp only
  split <;> simp

@[simp] theorem State.frameWrite_skerry (s : State) (p mb off : Nat) (bs : List Byte) (under : Bool) :
    (s.frameWrite p mb off bs under).1.skerry = s.skerry := by
  unfold State.frameWrite
  split
  · rfl
  · split
    · rfl
    · split
      · simp [State.sparesExhausted]
      · next t ht =>
        dsimp only
        split <;> simp [State.reefDetected, State.mapBand_skerry ht]

@[simp] theorem State.dropWindow_skerry (s : State) (a : Nat) : (s.dropWindow a).skerry = s.skerry := rfl

@[simp] theorem State.reefStore_skerry (s : State) (a : Nat) (bs : List Byte) (under : Bool) : (s.reefStore a bs under).1.skerry = s.skerry := by
  unfold State.reefStore
  refine foldl_keeps (fun p : State × Option Nat × List Byte => p.1.skerry) (fun p e => ?_) _ _
  split
  · rfl
  · split <;> simp

@[simp] theorem State.setEnds_skerry (s : State) (k status detail : Nat) : (s.setEnds k status detail).skerry = s.skerry := by
  unfold State.setEnds
  split <;> simp

@[simp] theorem State.breakSet_skerry (s : State) (k addr status : Nat) : (s.breakSet k addr status).skerry = s.skerry := by
  unfold State.breakSet
  dsimp only
  split <;> simp

@[simp] theorem State.completeSet_skerry (s : State) (k : Nat) : (s.completeSet k).skerry = s.skerry := by
  simp [State.completeSet]

/-- A page's bytes go to the Harbour, the local Reef or the partner (R360). -/
theorem State.pageStored_skerry {s t : State} {kind dest partner : Nat} {bytes : List Byte} {st : Option Nat}
    (h : (if kind = 0 then (s.store dest bytes, none) else if kind = 1 then s.reefStore dest bytes
      else (s.sendRun partner Dk.setWrite dest bytes, none)) = (t, st)) : t.skerry = s.skerry := by
  split at h
  · cases h; simp
  · split at h
    · rw [← State.reefStore_skerry s dest bytes false, h]
    · cases h; simp

@[simp] theorem State.copyPage_skerry (s : State) (k page : Nat) : (s.copyPage k page).skerry = s.skerry := by
  unfold State.copyPage
  split
  · simp
  · dsimp only
    split
    · next t st h => simp [State.pageStored_skerry h]
    · next t h =>
      split
      · simp [State.pageStored_skerry h]
      · simp [State.pageStored_skerry h]

@[simp] theorem State.cow_skerry (s : State) (a n : Nat) : (s.cow a n).skerry = s.skerry := by
  unfold State.cow
  split
  · rfl
  · split
    · rfl
    · refine Eq.trans (foldl_keeps State.skerry (fun s kp => ?_) _ _) (State.countSticky_skerry _ _ _)
      exact State.copyPage_skerry s kp.1 kp.2

/-- A store to memory leaves the Skerries as they are. -/
@[simp] theorem State.put_skerry (s : State) (a : Nat) (bs : List Byte) : (s.put a bs).skerry = s.skerry := by
  simp [State.put]

@[simp] theorem State.countBlock_skerry (s : State) (i : IngestTile) (b : Block) : (s.countBlock i b).skerry = s.skerry := by
  unfold State.countBlock
  dsimp only
  repeat' split
  all_goals simp

end Sys2Proof.Machine
end

section
/-! PROOFS. Tiles coded and entered in their index (O18). -/

namespace Sys2Proof.Machine

/-! ### INGEST -/

/-- The state in which a tile that is being coded has left its Skerry's queue. -/
def State.untile (s : State) (n t : Nat) : State :=
  { s with skerry := { s.skerry with ingest := s.skerry.ingest.filter (fun j => !(j.stream == n && j.tile == t)) } }

/-- Where a block begins in its segment, in units of 32 bytes: a fixed-rate one at a multiple of its length, any other behind the one before (R198, R224). -/
def State.blockOffset (s : State) (h : Nat) (i : IngestTile) (b : Block) : Nat :=
  if b.mode = 4 then b.len * (i.tile / 20) else (s.aux i.stream).offsets.getD h 0

/-- The state in which a block waits for its write responses. -/
def State.addBlock (s : State) (b : BlockOut) : State := { s with skerry := { s.skerry with blocks := s.skerry.blocks ++ [b] } }

@[simp] theorem State.untile_blocks (s : State) (n t : Nat) : (s.untile n t).skerry.blocks = s.skerry.blocks := rfl
@[simp] theorem State.addBlock_ingest (s : State) (b : BlockOut) : (s.addBlock b).skerry.ingest = s.skerry.ingest := rfl
@[simp] theorem State.addBlock_blocks (s : State) (b : BlockOut) : (s.addBlock b).skerry.blocks = s.skerry.blocks ++ [b] := rfl
@[simp] theorem State.modAux_skerry (s : State) (n : Nat) (f : StreamAux → StreamAux) : (s.modAux n f).skerry = s.skerry := rfl

/-- A tile whose block the segment takes is written and counted there; its stream goes on to the next tile, and the block waits for its responses. -/
theorem State.ingest_writes {s : State} {h o : Nat} {i : IngestTile} {b : Block} (hi : s.skerry.ingest.find? (fun i => i.tile % 20 == h && s.canCode i) = some i)
    (hb : s.codeBlock i = some b) (ho : o = s.blockOffset h i b) (hm : s.mergeFails (s.segment i.stream h + 32 * o) b.bytes.length = none) :
    ∃ f : StreamAux → StreamAux, s.ingest h =
      ((((s.untile i.stream i.tile).put (s.segment i.stream h + 32 * o) b.bytes).countBlock i b).modAux i.stream f).addBlock
        ⟨i.stream, i.tile, b.gen, b.mode, b.len, o⟩ := by
  subst ho
  have hm' : (s.untile i.stream i.tile).mergeFails (s.segment i.stream h + 32 * s.blockOffset h i b) b.bytes.length = none := hm
  unfold State.untile State.blockOffset at hm'
  unfold State.ingest
  simp only [hi, hb, hm']
  exact ⟨_, rfl⟩

theorem exec_ingest (h : Nat) (s : State) : exec (.ingest h) s = .next (s.ingest h).roomFreed := rfl

/-! ### BLOCK_WRITTEN -/

/-- The state in which a block whose responses have returned has left its Skerry. -/
def State.unblock (s : State) (n t : Nat) : State :=
  { s with skerry := { s.skerry with blocks := s.skerry.blocks.filter (fun c => !(c.stream == n && c.tile == t)) } }

/-- The index entry of a block (R212). -/
def BlockOut.entry (b : BlockOut) : Nat :=
  [(IndexEnt.tableGen, b.gen), (IndexEnt.mode, b.mode), (IndexEnt.valid, 1), (IndexEnt.lenM1, b.len - 1), (IndexEnt.offset, b.offset)].foldl (fun v p => p.1.set v p.2) 0

/-- A block of a stream that still fills is stored once its entry, where its class has an index, is written (R199, R213). -/
theorem exec_blockWritten_stores {s : State} {n t : Nat} {b : BlockOut} (hb : s.skerry.blocks.find? (fun b => b.stream == n && b.tile == t) = some b)
    (hst : s.stateOf n = Ss.filling) (hf : s.filling (s.segment n (t % 20)) 32 = false) (hm : hasIndex (s.cls n) = true → s.mergeFails (s.entryAddr n t) 8 = none) :
    exec (.blockWritten n t) s = .next (State.tileStored (if hasIndex ((s.unblock n t).cls n) then
      (s.unblock n t).put ((s.unblock n t).entryAddr n t) (leBytes 8 b.entry) else s.unblock n t) n t b.len) := by
  have hwait : ¬ (s.stateOf n = Ss.filling ∧ s.filling (s.segment n (t % 20)) 32 = true) := by simp [hf]
  have hfills : ¬ (s.unblock n t).stateOf n ≠ Ss.filling := not_not.mpr hst
  have hcls : (s.unblock n t).cls n = s.cls n := rfl
  show execBlockWritten n t s = _
  unfold execBlockWritten
  rw [hb, hcls]
  refine (if_neg hwait).trans ((if_neg hfills).trans ?_)
  cases hidx : hasIndex (s.cls n) with
  | false =>
    have hplain : (!hasIndex ((s.unblock n t).cls n)) = true := by rw [hcls, hidx]; rfl
    exact if_pos hplain
  | true =>
    have hindexed : ¬ (!hasIndex ((s.unblock n t).cls n)) = true := by rw [hcls, hidx]; decide
    have hsound : (s.unblock n t).mergeFails ((s.unblock n t).entryAddr n t) 8 = none := hm hidx
    refine (if_neg hindexed).trans ?_
    show (match (s.unblock n t).mergeFails ((s.unblock n t).entryAddr n t) 8 with | some _ => _ | none => _) = _
    rw [hsound]
    rfl

/-- Settles O18: INGEST through the state that its writes leave, in which the Skerries are as they were before; BLOCK_WRITTEN through its entry. -/
theorem tilesAreStored : Obligations.TilesAreStored := by
  intro s
  refine ⟨fun h i b o hi hb ho hm => ?_, fun n t b hb hst hf hm => ⟨s.unblock n t, rfl, rfl, rfl, rfl, exec_blockWritten_stores hb hst hf hm⟩⟩
  obtain ⟨f, hingest⟩ := State.ingest_writes hi hb ho hm
  refine ⟨s.ingest h, s.untile i.stream i.tile, rfl, exec_ingest h s, ?_⟩
  rw [hingest]
  exact ⟨rfl, rfl, by simp, by simp⟩

end Sys2Proof.Machine
end

section
/-! PROOFS. The commands that need no executor beside the Pilot (O2). -/

namespace Sys2Proof.Machine

/-! ### NOP, FENCE, DISCARD and INLINE_WRITE, once their executor takes them -/

theorem exec_nop_ready {c : Nat} {s : State} {d : Dispatched} (h : s.readyCmd c Op.nop = some d) : exec (.nop c) s = .next (s.endCmd d St.success 0) := by
  show execNop c s = _
  simp only [execNop, h]

/-- A FENCE with nothing left to wait for ends (R128). -/
theorem exec_fence_ready {c : Nat} {s : State} {d : Dispatched} (h : s.readyCmd c Op.fence = some d) (hf : s.fenced d = []) : exec (.fence c) s = .next (s.endCmd d St.success 0) := by
  show execFence c s = _
  simp only [execFence, h, hf, List.isEmpty_nil, if_true]

/-- A DISCARD of streams none of which is FILLING discards each in turn (R52, R53). -/
theorem exec_discard_ready {c : Nat} {s : State} {d : Dispatched} {ns : List Nat} (h : s.readyCmd c Op.discard = some d)
    (hns : (List.range (cmdGet d.word CmdDiscard.count)).map (· + cmdGet d.word CmdDiscard.stream) = ns) (hf : ∀ n ∈ ns, s.stateOf n ≠ Ss.filling) :
    exec (.discard c) s = .next ((ns.foldl State.discardStream s).endCmd d St.success 0) := by
  have hnone : ns.find? (fun n => s.stateOf n == Ss.filling) = none :=
    List.find?_eq_none.mpr (fun n hn => by simpa using hf n hn)
  show execDiscard c s = _
  simp only [execDiscard, h, hns, hnone]

/-- An INLINE_WRITE of no bytes ends without an access (R133). -/
theorem exec_inlineWrite_empty {c : Nat} {s : State} {d : Dispatched} (h : s.readyCmd c Op.inlineWrite = some d) (hn : cmdGet d.word CmdInline.length = 0) (m : MemResult) :
    exec (.inlineWrite c m) s = .next (s.endCmd d St.success 0) := by
  show execInlineWrite c m s = _
  simp only [execInlineWrite, h, hn, if_true]

/-- An INLINE_WRITE whose bytes the memory takes stores LENGTH bytes of DATA at ADDRESS (R135). -/
theorem exec_inlineWrite_stores {c : Nat} {s : State} {d : Dispatched} (h : s.readyCmd c Op.inlineWrite = some d) (hn : cmdGet d.word CmdInline.length ≠ 0)
    (hf : s.filling (cmdGet d.word CmdInline.address) (cmdGet d.word CmdInline.length) = false)
    (hm : s.mergeFails (cmdGet d.word CmdInline.address) (cmdGet d.word CmdInline.length) = none) :
    exec (.inlineWrite c .ok) s = .next ((s.put (cmdGet d.word CmdInline.address)
      ((leBytes 40 (cmdGet d.word CmdInline.data)).take (cmdGet d.word CmdInline.length))).endCmd d St.success 0) := by
  show execInlineWrite c .ok s = _
  simp only [execInlineWrite, h, hn, hf, hm, ne_eq, not_true_eq_false, Bool.false_eq_true, if_false]

/-- Settles O2: each command's executor, under the conditions of its clause. -/
theorem simpleCommandsComplete : Obligations.SimpleCommandsComplete := by
  intro c s d
  refine ⟨exec_nop_ready, exec_fence_ready, fun h hf => ?_, exec_inlineWrite_stores, exec_inlineWrite_empty⟩
  refine exec_discard_ready h rfl (fun n hn => ?_)
  obtain ⟨i, hi, rfl⟩ := List.mem_map.mp hn
  exact hf i (List.mem_range.mp hi)

end Sys2Proof.Machine
end

section
/-! PROOFS. Fields written and read back, and the words of Shoal instructions (R2, R254). -/

namespace Sys2Proof

/-! ### Fields written and read back -/

theorem Fld.testBit_get (f : Fld) (v i : Nat) : (f.get v).testBit i = (decide (i < f.width) && v.testBit (f.lo + i)) := by
  rw [Fld.get, Nat.testBit_mod_two_pow, Nat.testBit_shiftRight]

/-- A field that is written replaces the bits of its range alone. -/
theorem Fld.testBit_set {f : Fld} (h : f.lo ≤ f.hi) (v x i : Nat) :
    (f.set v x).testBit i = if f.lo ≤ i ∧ i ≤ f.hi then x.testBit (i - f.lo) else v.testBit i := by
  have hw : f.hi + 1 = f.lo + f.width := by unfold Fld.width; omega
  have hset : f.set v x = 2 ^ f.lo * (2 ^ f.width * (v >>> (f.hi + 1)) + x % 2 ^ f.width) + v % 2 ^ f.lo := by
    rw [Fld.set, Nat.shiftLeft_eq, Nat.shiftLeft_eq, hw, Nat.pow_add]; ring
  rw [hset, Nat.testBit_two_pow_mul_add _ (Nat.mod_lt _ (Nat.two_pow_pos _)), Nat.testBit_two_pow_mul_add _ (Nat.mod_lt _ (Nat.two_pow_pos _)),
    Nat.testBit_mod_two_pow, Nat.testBit_mod_two_pow, Nat.testBit_shiftRight]
  by_cases hlo : i < f.lo
  · simp [hlo, Nat.not_le.mpr hlo]
  · by_cases hhi : i ≤ f.hi
    · have hin : i - f.lo < f.width := by omega
      simp [hlo, hhi, hin, Nat.not_lt.mp hlo]
    · have hout : ¬ i - f.lo < f.width := by omega
      have hi : f.hi + 1 + (i - f.lo - f.width) = i := by omega
      simp [hlo, hhi, hout, hi]

theorem Fld.get_set_self {f : Fld} (h : f.lo ≤ f.hi) {v x : Nat} (hx : x < 2 ^ f.width) : f.get (f.set v x) = x := by
  refine Nat.eq_of_testBit_eq (fun i => ?_)
  rw [Fld.testBit_get, Fld.testBit_set h]
  by_cases hi : i < f.width
  · have hhi : f.lo + i ≤ f.hi := by unfold Fld.width at hi; omega
    simp [hi, hhi]
  · have hzero : x.testBit i = false :=
      Nat.testBit_lt_two_pow (Nat.lt_of_lt_of_le hx (Nat.pow_le_pow_right (by decide) (Nat.not_lt.mp hi)))
    simp [hi, hzero]

theorem Fld.get_set_disjoint {f g : Fld} (hg : g.lo ≤ g.hi) (h : f.hi < g.lo ∨ g.hi < f.lo) (v x : Nat) : f.get (g.set v x) = f.get v := by
  refine Nat.eq_of_testBit_eq (fun i => ?_)
  rw [Fld.testBit_get, Fld.testBit_get, Fld.testBit_set hg]
  by_cases hi : i < f.width
  · have hout : ¬ (g.lo ≤ f.lo + i ∧ f.lo + i ≤ g.hi) := by unfold Fld.width at hi; omega
    rw [if_neg hout]
  · simp [hi]

end Sys2Proof

namespace Sys2Proof.Machine

/-! ### Instruction words -/

theorem boolNat_lt (b : Bool) : boolNat b < 2 := by cases b <;> decide
theorem boolNat_beq_one (b : Bool) : (boolNat b == 1) = b := by cases b <;> rfl

/-- The word of an instruction in the immediate form spells its fields. -/
theorem iFields_iWord (op : Nat) {i : IForm} (h : i.wf = true) : iFields (iWord op i) = i := by
  obtain ⟨hpred, hd, ha, hb, himm⟩ := of_decide_eq_true h
  simp (disch := decide) only [iFields, iWord, List.foldl_cons, List.foldl_nil, Fld.get_set_disjoint, boolNat_beq_one,
    Fld.get_set_self (f := InsnWord.pred) (by decide) hpred, Fld.get_set_self (f := InsnWord.pnot) (by decide) (boolNat_lt i.pnot),
    Fld.get_set_self (f := InsnWord.bf) (by decide) (boolNat_lt i.bf), Fld.get_set_self (f := InsnWord.d) (by decide) hd,
    Fld.get_set_self (f := InsnWord.a) (by decide) ha, Fld.get_set_self (f := InsnWord.b) (by decide) hb,
    Fld.get_set_self (f := InsnWord.imm) (by decide) himm]

/-- The same of the register form. -/
theorem gFields_gWord (op : Nat) {i : GForm} (h : i.wf = true) : gFields (gWord op i) = i := by
  obtain ⟨hpred, hd, ha, hb, hc⟩ := of_decide_eq_true h
  simp (disch := decide) only [gFields, gWord, List.foldl_cons, List.foldl_nil, Fld.get_set_disjoint, boolNat_beq_one,
    Fld.get_set_self (f := InsnWord.pred) (by decide) hpred, Fld.get_set_self (f := InsnWord.pnot) (by decide) (boolNat_lt i.pnot),
    Fld.get_set_self (f := InsnWord.bf) (by decide) (boolNat_lt i.bf), Fld.get_set_self (f := InsnWord.d) (by decide) hd,
    Fld.get_set_self (f := InsnWord.a) (by decide) ha, Fld.get_set_self (f := InsnWord.b) (by decide) hb,
    Fld.get_set_self (f := InsnWord.c) (by decide) hc, Fld.get_set_self (f := InsnWord.ta) (by decide) (boolNat_lt i.ta),
    Fld.get_set_self (f := InsnWord.tb) (by decide) (boolNat_lt i.tb)]

end Sys2Proof.Machine
end

section
/-! PROOFS. The rounding, form, reduction and tile instructions of a Shoal program (O42). -/

namespace Sys2Proof.Machine

/-! ### What has been counted when an instruction begins -/

@[simp] theorem State.insnBench_nans (s : State) (e : Nat) (v : Invocation) : (s.insnBench e v).nans = 0 := rfl
@[simp] theorem State.insnBench_srOver (s : State) (e : Nat) (v : Invocation) : (s.insnBench e v).srOver = 0 := rfl

/-! ### MMA -/

/-- MMA writes the accumulators alone, all 1,024 of them, and goes on to the next instruction. -/
theorem semMma_frame {s : State} {i : GForm} {env : Env} {rd : Reader} {b b' : Bench} {r r' : Regs} (h : semMma s i env rd b r = .ok (b', r')) :
    ∃ acc : List Word, acc.length = 1024 ∧ r' = { r with acc := acc, pc := r.pc + 1 } := by
  unfold semMma at h
  dsimp only at h
  split at h
  · cases h
  · split at h
    · cases h
    · simp only [Except.ok.injEq, Prod.mk.injEq] at h
      obtain ⟨-, rfl⟩ := h
      refine ⟨_, ?_, rfl⟩
      simp [List.length_flatMap]

/-! ### Rounding, forms, reductions and the accumulator tile -/

theorem exec_vqf (e : Nat) (s : State) (i : IForm) : exec (.vqf e i) s = .next (s.shoalI e 0x3A i (fun _ => semVqf i)) := rfl
theorem exec_mz (e : Nat) (s : State) (i : IForm) : exec (.mz e i) s = .next (s.shoalI e 0x48 i (fun _ => semMz)) := rfl
theorem exec_vsr (e : Nat) (s : State) (i : GForm) : exec (.vsr e i) s = .next (s.shoalG e 0x39 i (fun _ => semVsr i)) := rfl
theorem exec_vstf (e : Nat) (s : State) (i : GForm) : exec (.vstf e i) s = .next (s.shoalG e 0x3B i (fun _ => semVstf i)) := rfl
theorem exec_vrsum (e : Nat) (s : State) (i : GForm) : exec (.vrsum e i) s = .next (s.shoalG e 0x40 i (fun _ => semVrsum i)) := rfl
theorem exec_vrmax (e : Nat) (s : State) (i : GForm) : exec (.vrmax e i) s = .next (s.shoalG e 0x41 i (fun _ => semVrmax i)) := rfl
theorem exec_mma (e : Nat) (s : State) (i : GForm) : exec (.mma e i) s = .next (s.shoalG e 0x49 i (fun s => semMma s i)) := rfl
theorem exec_mst (e : Nat) (s : State) (i : GForm) : exec (.mst e i) s = .next (s.shoalG e 0x4A i (fun _ => semMst i)) := rfl

/-- No active lane holds a NaN, said of each lane that is active. -/
theorem all_match_not_isNan32 (xs : List (Option Nat)) :
    xs.all (fun y => match y with | some z => !isNan32 z | none => true) = xs.all (fun y => !(y.any isNan32)) := by
  congr 1
  funext y
  cases y <;> rfl

/-- VRSUM counts its lanes where a NaN comes of lanes that hold none (R259, R262). -/
theorem semVrsum_eq {i : GForm} {env : Env} {rd : Reader} {b : Bench} {r : Regs} {xs : List (Option Nat)} {k : Nat}
    (hxs : xs = active (r.gate i.pred i.pnot) (nats (r.vreg i.a))) (hk : k = vRsum env.mode i.bf xs) :
    semVrsum i env rd b r = .ok ({ b with nans := b.nans + (if isNan32 k && xs.all (fun y => !(y.any isNan32)) then ((r.gate i.pred i.pnot).filter id).length else 0) },
      (r.setV i.d (r.gate i.pred i.pnot) (lanes.map (fun _ => k))).next) := by
  rw [← all_match_not_isNan32]
  subst hk hxs
  rfl

/-- VRMAX with no active lane leaves its destination (R262). -/
theorem semVrmax_of_none {i : GForm} {env : Env} {rd : Reader} {b : Bench} {r : Regs}
    (h : (active (r.gate i.pred i.pnot) (nats (r.vreg i.a))).filterMap id = []) : semVrmax i env rd b r = .ok (b, r.next) := by
  simp only [semVrmax, h]

/-- VRMAX with active lanes broadcasts the largest of them. -/
theorem semVrmax_of_cons {i : GForm} {env : Env} {rd : Reader} {b : Bench} {r : Regs} {k : Nat} {ks : List Nat}
    (h : (active (r.gate i.pred i.pnot) (nats (r.vreg i.a))).filterMap id = k :: ks) :
    semVrmax i env rd b r = .ok (b, (r.setV i.d (r.gate i.pred i.pnot)
      (lanes.map (fun _ => ks.foldl (vMax env.mode i.bf) (vMax env.mode i.bf k k)))).next) := by
  simp only [semVrmax, h]

/-- Settles O42: each instruction's word spells its fields, so its meaning runs and its answer is the state that it leaves. -/
theorem reductionInstructionsComplete : Obligations.ReductionInstructionsComplete := by
  intro s e v r b env hr hb henv
  subst hr hb henv
  refine ⟨fun i hwf => ?_, fun i g x hwf hg hx => ?_⟩
  · have hi := fun op => iFields_iWord op hwf
    refine ⟨fun x bad hat hx hbad => ?_, fun hat => ?_⟩
    · rw [exec_vqf, State.shoalI_runs (hi _) hat]
      subst hx hbad
      rfl
    · rw [exec_mz, State.shoalI_runs (hi _) hat]
      rfl
  · have hi := fun op => gFields_gWord op hwf
    subst hg hx
    refine ⟨fun q hat hq => ?_, fun p hat hp => ?_, fun k hat hk => ?_, fun hat hnone => ?_, fun k ks hat hsome => ?_, fun b' r' hat hmma => ?_,
      fun es p hat hes hp => ?_⟩
    · rw [exec_vsr, State.shoalG_runs (hi _) hat]
      subst hq
      simp only [semVsr, State.insnBench_srOver, Nat.zero_add]
    · rw [exec_vstf, State.shoalG_runs (hi _) hat]
      subst hp
      rfl
    · rw [exec_vrsum, State.shoalG_runs (hi _) hat (semVrsum_eq rfl hk), State.insnBench_nans, Nat.zero_add]
    · rw [exec_vrmax, State.shoalG_runs (hi _) hat (semVrmax_of_none hnone)]
    · rw [exec_vrmax, State.shoalG_runs (hi _) hat (semVrmax_of_cons hsome)]
    · obtain ⟨acc, hacc, rfl⟩ := semMma_frame hmma
      exact ⟨rfl, rfl, rfl, rfl, hacc, by rw [exec_mma, State.shoalG_runs (hi _) hat hmma]⟩
    · have hsem : semMst i (s.engineEnv e v) s.reader (s.insnBench e v) (s.engine e).regs
          = .ok ((s.insnBench e v).clip (s.engineEnv e v) (s.engine e).regs (p.2 + (1024 - es.length)), p.1.next) := by
        rw [hp, hes, semMst]
      rw [exec_mst, State.shoalG_runs (hi _) hat hsem]

end Sys2Proof.Machine
end

section
/-! PROOFS. PLAN_LOAD in each of its actions, and the validation of an image (O6). -/

namespace Sys2Proof.Machine

/-! ### The plan states that permit each action (R98) -/

theorem State.actionAllowed_load {s : State} (h : s.ch Ch.planState = Pl.empty) : s.actionAllowed 1 = true := by
  simp [State.actionAllowed, h]

theorem State.actionAllowed_replace {s : State} (h : s.ch Ch.planState = Pl.loaded ∨ s.ch Ch.planState = Pl.running)
    (hp : s.ch Ch.replacePending = 0) : s.actionAllowed 2 = true := by
  simp [State.actionAllowed, h, hp]

theorem State.actionAllowed_unload {s : State} (h : s.ch Ch.planState = Pl.loaded ∨ s.ch Ch.planState = Pl.stopped) :
    s.actionAllowed 3 = true := by
  simp [State.actionAllowed, h]

theorem State.actionAllowed_restart {s : State} (h : s.ch Ch.planState = Pl.stopped) : s.actionAllowed 4 = true := by
  simp [State.actionAllowed, h]

/-! ### Each action, permitted and refused -/

theorem exec_load {c : Nat} {s : State} {d : Dispatched} (h : s.planCmd c 1 = some d) :
    exec (.load c) s = .next (if s.actionAllowed 1 then
      (State.setStage { s with plan := { s.plan with validating := some ⟨c, cmdGet d.word CmdPlan.image, false⟩ } } c .underway 0).setCh Ch.planState Pl.loading
      else s.endCmd d St.planState s.planDetail) := by
  show execLoad c s = _
  unfold execLoad
  cases s.actionAllowed 1 <;> simp [h]

theorem exec_replace {c : Nat} {s : State} {d : Dispatched} (h : s.planCmd c 2 = some d) :
    exec (.replace c) s = .next (if s.actionAllowed 2 then
      (State.setStage { s with plan := { s.plan with validating := some ⟨c, cmdGet d.word CmdPlan.image, true⟩ } } c .underway 0).setCh Ch.replacePending 1
      else s.endCmd d St.planState s.planDetail) := by
  show execReplace c s = _
  unfold execReplace
  cases s.actionAllowed 2 <;> simp [h]

theorem exec_unload {c : Nat} {s : State} {d : Dispatched} (h : s.planCmd c 3 = some d) :
    exec (.unload c) s = .next (if s.actionAllowed 3 then
      (s.dropReplacement.leavePasses (fun _ => false)).disarmDiffs.unloadPlan.endCmd d St.success 0
      else s.endCmd d St.planState s.planDetail) := by
  show execUnload c s = _
  unfold execUnload
  cases s.actionAllowed 3 <;> simp [h]

theorem exec_restart_refused {c : Nat} {s : State} {d : Dispatched} (h : s.planCmd c 4 = some d) (ha : s.actionAllowed 4 = false) :
    exec (.restart c) s = .next (s.endCmd d St.planState s.planDetail) := by
  show execRestart c s = _
  unfold execRestart
  simp only [h, ha, Bool.not_false, if_true]

/-- RESTART with no shard marked leaves no step in flight; the next to begin is the first that had stopped (R103). -/
theorem exec_restart_accepts {c : Nat} {s : State} {d : Dispatched} (h : s.planCmd c 4 = some d) (ha : s.actionAllowed 4 = true) (hm : s.anyMarked = false) :
    ∃ t : State, exec (.restart c) s = .next ((t.setCh Ch.planState Pl.loaded).endCmd d St.success 0)
      ∧ t.plan.steps = [] ∧ t.plan.stopping = false ∧ ∀ st rest, s.plan.steps = st :: rest → t.plan.stepsBegun = st.num := by
  have hallowed : ¬ (!s.actionAllowed 4) = true := by rw [ha]; decide
  have hfree : ¬ s.anyMarked = true := by rw [hm]; decide
  have hrun : ∃ t : State, execRestart c s = .next ((t.setCh Ch.planState Pl.loaded).endCmd d St.success 0)
      ∧ t.plan.steps = [] ∧ t.plan.stopping = false ∧ ∀ st rest, s.plan.steps = st :: rest → t.plan.stepsBegun = st.num := by
    unfold execRestart
    rw [h]
    refine ⟨_, (if_neg hallowed).trans (if_neg hfree), rfl, rfl, fun st rest hsteps => ?_⟩
    rw [hsteps]
    rfl
  exact hrun

/-! ### PLAN_VALIDATION (R99) -/

/-- An image that can be read is accepted, or refused with its first failure. -/
theorem exec_planValidation_read {s : State} {x : Validating} {d : Dispatched} (hx : s.plan.validating = some x) (hd : s.cmd x.tag Op.planLoad = some d)
    (hf : s.filling x.image (max 160 (s.fld x.image PlanHdr.imageBytes)) = false) (hs : s.checkWords = []) :
    exec (.planValidation .ok) s = .next ((s.planFail x.image x.replace).elim (s.acceptPlan d x)
      (fun f => ((s.writeLoadStatus x.image f).dropValidation x.replace).endCmd d St.planInvalid (f.1 + f.2.1 * 2 ^ 16))) := by
  show execPlanValidation .ok s = _
  unfold execPlanValidation
  simp only [hx, hd, hf, State.failing_sound s _ _ hs, ne_eq, not_true_eq_false, Bool.false_eq_true, if_false, Option.isSome_none, ite_self]
  cases s.planFail x.image x.replace <;> rfl

/-- Settles O6: each action by whether its plan state permits it, the validation by the first failure of its image. -/
theorem planCommandsComplete : Obligations.PlanCommandsComplete := by
  intro c s d
  refine ⟨fun h hp => ?_, fun h hp hr => ?_, fun h hp => ?_, fun h hp hm => ?_, fun action h ha => ⟨?_, ?_, ?_, ?_⟩, fun x hx hd hf hs => ⟨fun hp => ?_, fun f hp => ?_⟩⟩
  · rw [exec_load h, if_pos (State.actionAllowed_load hp)]
  · rw [exec_replace h, if_pos (State.actionAllowed_replace hp hr)]
  · rw [exec_unload h, if_pos (State.actionAllowed_unload hp)]
  · obtain ⟨t, hexec, hsteps, hstop, hbegun⟩ := exec_restart_accepts h (State.actionAllowed_restart hp) hm
    exact ⟨t, hsteps, hstop, hbegun, hexec⟩
  · rintro rfl
    rw [exec_load h, if_neg (Bool.eq_false_iff.mp ha)]
  · rintro rfl
    rw [exec_replace h, if_neg (Bool.eq_false_iff.mp ha)]
  · rintro rfl
    rw [exec_unload h, if_neg (Bool.eq_false_iff.mp ha)]
  · rintro rfl
    exact exec_restart_refused h ha
  · rw [exec_planValidation_read hx hd hf hs, hp, Option.elim_none]
  · rw [exec_planValidation_read hx hd hf hs, hp, Option.elim_some]

end Sys2Proof.Machine
end

section
/-! PROOFS. A step of the plan: its start and its end (O7). -/

namespace Sys2Proof.Machine

/-! ### STEP_START -/

/-- The state in which a step has its unit of START_BUOY and is in flight, the last (R83). -/
def State.addStep (s : State) (k : Nat) (b : Buoy) : State :=
  { s.setBuoy k { b with count := b.count - 1 } with
    plan := { s.plan with steps := s.plan.steps ++ [⟨s.plan.stepsBegun, []⟩], stepsBegun := s.plan.stepsBegun + 1 } }

/-- A step starts where a unit of START_BUOY is there and a second step may be in flight. -/
theorem exec_stepStart_starts {s : State} {k : Nat} {b : Buoy} (hp : s.ch Ch.planState = Pl.loaded ∨ s.ch Ch.planState = Pl.running)
    (hlen : s.plan.steps.length < 2) (hstop : s.plan.stopping = false) (hnext : s.plan.next = none) (hu : s.startUnit = some (k, b)) :
    exec .stepStart s = .next (((List.range s.taskCount).foldl
      (fun (s : State) (t : Nat) => s.setFld (s.tables.tasks + 64 * t) TaskRec.taskState Ts.pending) (s.addStep k b)).setCh Ch.planState Pl.running) := by
  have hmay : (s.ch Ch.planState = Pl.loaded ∨ s.ch Ch.planState = Pl.running) ∧ s.plan.steps.length < 2 ∧ !s.plan.stopping ∧ s.plan.next.isNone := by
    simp [hp, hlen, hstop, hnext]
  show execStepStart s = _
  unfold execStepStart
  rw [if_pos hmay, hu]
  rfl

/-- With two steps in flight the unit stays (R83). -/
theorem exec_stepStart_full {s : State} (h : 2 ≤ s.plan.steps.length) : exec .stepStart s = .next s := by
  have hmay : ¬ ((s.ch Ch.planState = Pl.loaded ∨ s.ch Ch.planState = Pl.running) ∧ s.plan.steps.length < 2 ∧ !s.plan.stopping ∧ s.plan.next.isNone) :=
    fun hmay => Nat.not_lt.mpr h hmay.2.1
  show execStepStart s = _
  unfold execStepStart
  exact if_neg hmay

/-! ### STEP_END -/

/-- The state in which the oldest step is over and counted (R83). -/
def State.endStep (s : State) (st : Step) (rest : List Step) : State :=
  State.setFld { s with plan := { s.plan with steps := rest, stepCount := s.plan.stepCount + 1 },
                        shards := s.shards.map (fun e => (e.1, { e.2 with marks := e.2.marks.filter (· != st.num) })) }
    s.tables.header PlanHdr.stepCount (s.plan.stepCount + 1)

/-- The state in which END_BUOY has been signalled, once. -/
def State.signalEnd (s : State) : State := (s.signal (s.planHdr PlanHdr.planContext) (s.planHdr PlanHdr.endBuoy) 1).1

/-- The oldest step ends once each of its tasks is DONE. -/
theorem exec_stepEnd_ends {s u : State} {st : Step} {rest : List Step} (h : s.plan.steps = st :: rest)
    (hdone : (List.range s.taskCount).all (fun t => st.tasks.getD t Ts.pending == Ts.done) = true) (hu : u = (s.endStep st rest).signalEnd) :
    exec (.stepEnd st.num) s = .next (if rest.isEmpty ∧ u.startUnit.isNone ∧ u.ch Ch.planState = Pl.running ∧ !u.plan.stopping
      then u.setCh Ch.planState Pl.loaded else u).tryReplace.recheckSlips := by
  subst hu
  show execStepEnd st.num s = _
  unfold execStepEnd
  rw [h]
  exact if_pos ⟨rfl, hdone⟩

/-- A step with a task that is not DONE goes on. -/
theorem exec_stepEnd_waits {s : State} {st : Step} {rest : List Step} {t : Nat} (h : s.plan.steps = st :: rest) (ht : t < s.taskCount)
    (hst : st.tasks.getD t Ts.pending ≠ Ts.done) (n : Nat) : exec (.stepEnd n) s = .next s := by
  have hdone : ¬ (List.range s.taskCount).all (fun t => st.tasks.getD t Ts.pending == Ts.done) = true :=
    fun hall => hst (beq_iff_eq.mp (List.all_eq_true.mp hall t (List.mem_range.mpr ht)))
  show execStepEnd n s = _
  unfold execStepEnd
  rw [h]
  exact if_neg (fun hend => hdone hend.2)

/-- Settles O7: a step starts in the state that `State.addStep` gives, and ends in the one that `State.endStep` gives. -/
theorem stepsStartAndEnd : Obligations.StepsStartAndEnd := by
  intro s
  refine ⟨fun k b hp hlen hstop hnext hu => ⟨s.addStep k b, rfl, rfl, rfl, exec_stepStart_starts hp hlen hstop hnext hu⟩,
    fun st rest h hdone => ⟨s.endStep st rest, (s.endStep st rest).signalEnd, rfl, rfl, exec_stepEnd_ends h hdone rfl⟩,
    exec_stepStart_full, ?_⟩
  rintro st rest h ⟨t, ht, hst⟩ n
  exact exec_stepEnd_waits h ht hst n

end Sys2Proof.Machine
end

section
/-! PROOFS. Tasks that may start are dispatched, and their work begins (O8). -/

namespace Sys2Proof.Machine

/-! ### The tasks whose executor is ready at once -/

theorem exec_reefWrite (x : TaskRef) (s : State) : exec (.reefWrite x) s = .next (s.dispatch x Tk.reefWrite (fun _ => true) (fun s => s.reefWriteWork x)) := rfl
theorem exec_prefetch (x : TaskRef) (s : State) : exec (.prefetch x) s = .next (s.dispatch x Tk.prefetch (fun _ => true) (fun s => s.prefetchWork x)) := rfl
theorem exec_barrierTask (x : TaskRef) (s : State) : exec (.barrierTask x) s = .next (s.dispatch x Tk.barrier (fun _ => true) (fun s => s.finishRun x)) := rfl

theorem exec_reefWrite_starts {s t : State} {x : TaskRef} (h : TaskMayStart s t x Tk.reefWrite) :
    exec (.reefWrite x) s = .next ((t.beginTask x none).reefWriteWork x) := by
  rw [exec_reefWrite, State.dispatch_starts h _ rfl]

theorem exec_prefetch_starts {s t : State} {x : TaskRef} (h : TaskMayStart s t x Tk.prefetch) :
    exec (.prefetch x) s = .next ((t.beginTask x none).prefetchWork x) := by
  rw [exec_prefetch, State.dispatch_starts h _ rfl]

theorem exec_barrierTask_starts {s t : State} {x : TaskRef} (h : TaskMayStart s t x Tk.barrier) :
    exec (.barrierTask x) s = .next ((t.beginTask x none).finishRun x) := by
  rw [exec_barrierTask, State.dispatch_starts h _ rfl]

/-! ### The tasks that wait for other tasks, their ring, their stream or their tree -/

/-- Every ring-0 task of the step that names the COMPUTE task as PRODUCER has been dispatched (R173). -/
def State.ring0Dispatched (s : State) (x : TaskRef) : Bool :=
  (List.range s.taskCount).all (fun t => s.tf t TaskRec.producer != x.task || s.taskState ⟨x.step, t⟩ != Ts.pending)

theorem State.ring0Dispatched_of_forall {s : State} {x : TaskRef}
    (h : ∀ y, y < s.taskCount → s.tf y TaskRec.producer = x.task → s.taskState ⟨x.step, y⟩ ≠ Ts.pending) : s.ring0Dispatched x = true := by
  refine List.all_eq_true.mpr (fun y hy => ?_)
  by_cases hp : s.tf y TaskRec.producer = x.task
  · simp [h y (List.mem_range.mp hy) hp]
  · simp [hp]

theorem exec_computeTask (x : TaskRef) (s : State) :
    exec (.computeTask x) s = .next (s.dispatch x Tk.compute (fun s => s.ring0Dispatched x) (fun s => s.out (.beginCompute x))) := rfl

theorem exec_computeTask_starts {s t : State} {x : TaskRef} (h : TaskMayStart s t x Tk.compute) (hr : t.ring0Dispatched x = true) :
    exec (.computeTask x) s = .next ((t.beginTask x none).out (.beginCompute x)) := by
  rw [exec_computeTask, State.dispatch_starts h _ hr]

theorem exec_feed (x : TaskRef) (s : State) :
    exec (.feed x) s = .next (s.dispatch x Tk.feed (fun s => s.ringFree (s.execIndex x.task) (s.feedRing x.task)) (State.feedWork x)) := rfl

theorem exec_feed_starts {s t : State} {x : TaskRef} (h : TaskMayStart s t x Tk.feed) (hr : t.ringFree (t.execIndex x.task) (t.feedRing x.task) = true) :
    exec (.feed x) s = .next (State.feedWork x (t.beginTask x none)) := by
  rw [exec_feed, State.dispatch_starts h _ hr]

/-- A DISCARD waits for a stream that is FILLING (R53). -/
theorem exec_discardTask (x : TaskRef) (s : State) :
    exec (.discardTask x) s = .next (s.dispatch x Tk.discard (fun t => t.stateOf (s.tf x.task TaskRec.stream) != Ss.filling)
      (fun t => (t.discardStream (s.tf x.task TaskRec.stream)).finishRun x)) := rfl

theorem exec_discardTask_starts {s t : State} {x : TaskRef} (h : TaskMayStart s t x Tk.discard) (hr : t.stateOf (s.tf x.task TaskRec.stream) ≠ Ss.filling) :
    exec (.discardTask x) s = .next (((t.beginTask x none).discardStream (s.tf x.task TaskRec.stream)).finishRun x) := by
  rw [exec_discardTask, State.dispatch_starts h _ (by simpa using hr)]

theorem exec_digestTask (x : TaskRef) (s : State) :
    exec (.digestTask x) s = .next (s.dispatch x Tk.digest
      (fun s => !s.cascade.trees.contains (s.shf (s.tf x.task TaskRec.shard) ShardRec.shardId)) (State.digestWork x)) := rfl

theorem exec_digestTask_starts {s t : State} {x : TaskRef} (h : TaskMayStart s t x Tk.digest)
    (hr : t.cascade.trees.contains (t.shf (t.tf x.task TaskRec.shard) ShardRec.shardId) = false) :
    exec (.digestTask x) s = .next (State.digestWork x (t.beginTask x none)) := by
  rw [exec_digestTask, State.dispatch_starts h _ (by rw [hr]; rfl)]

/-! ### The tasks that store a stream: what waits for the stream is reported first (R84) -/

/-- A task of the plan that has the kind of its row is not one that the row leaves alone. -/
theorem State.not_otherTask {s : State} {x : TaskRef} {kind : Nat} (hk : s.tf x.task TaskRec.taskKind = kind) (hc : x.task < s.taskCount) :
    ¬ (s.tf x.task TaskRec.taskKind ≠ kind ∨ s.taskCount ≤ x.task) := not_or.mpr ⟨not_not.mpr hk, Nat.not_le.mpr hc⟩

theorem exec_stowTask_starts {s t : State} {x : TaskRef} (hk : s.tf x.task TaskRec.taskKind = Tk.stow) (hc : x.task < s.taskCount)
    (h : TaskMayStart (s.reportWait x (s.tf x.task TaskRec.stream)) t x Tk.stow) (hr : State.mayProduce x (s.tf x.task TaskRec.stream) t = true) :
    exec (.stowTask x) s = .next (State.stowWork x (s.tf x.task TaskRec.stream) (t.beginTask x none)) := by
  show execStowTask x s = _
  rw [execStowTask, if_neg (State.not_otherTask hk hc), State.dispatch_starts h _ hr]

/-- A REDUCE may take its stream and its sources, its engine is idle, and it is its turn there (R126, R269). -/
theorem exec_reduceTask_starts {s t : State} {x : TaskRef} (hk : s.tf x.task TaskRec.taskKind = Tk.reduce) (hc : x.task < s.taskCount)
    (h : TaskMayStart (s.reportWait x (s.tf x.task TaskRec.stream)) t x Tk.reduce) (hr : t.reduceReady x (s.tf x.task TaskRec.stream) = true)
    (he : t.ch (Ch.engineState + 256 * t.execIndex x.task) = 0) (ht : t.taskTurn x = true) :
    exec (.reduceTask x) s = .next (State.reduceWork x (s.tf x.task TaskRec.stream) (t.beginTask x none)) := by
  show execReduceTask x s = _
  rw [execReduceTask, if_neg (State.not_otherTask hk hc), State.dispatch_starts h _ (by simp [hr, he, ht])]

/-- Settles O8: each kind by what its executor waits for beside R74. -/
theorem tasksAreDispatched : Obligations.TasksAreDispatched := by
  intro s t x
  exact ⟨fun h hr => exec_computeTask_starts h (State.ring0Dispatched_of_forall hr), exec_reefWrite_starts, exec_prefetch_starts, exec_barrierTask_starts,
    exec_stowTask_starts, exec_reduceTask_starts, exec_feed_starts, exec_discardTask_starts, exec_digestTask_starts⟩

end Sys2Proof.Machine
end

section
/-! PROOFS. RECOMPUTE, SNAPSHOT, EXCHANGE and UPDATE tasks, dispatched under the conditions each adds (O9). -/

namespace Sys2Proof.Machine

theorem TaskMayStart.taskKind_eq {s t : State} {x : TaskRef} {kind : Nat} (h : TaskMayStart s t x kind) : s.tf x.task TaskRec.taskKind = kind := h.1
theorem TaskMayStart.task_lt {s t : State} {x : TaskRef} {kind : Nat} (h : TaskMayStart s t x kind) : x.task < s.taskCount := h.2.1

/-! ### RECOMPUTE (R273) -/

/-- The consumer of a RECOMPUTE task's tiles of stream `n`: an engine, for ring `r` of the stream's die `d`. -/
def State.recomputeConsumer (s : State) (x : TaskRef) (n d r : Nat) : Consumer :=
  { Consumer.fresh with source := .task x, stream := n, first := s.tf x.task TaskRec.tileFirst, count := s.tileCount x.task n, look := 0, die := d, ring := some r, engine := true,
                        entries := s.shoalEntries n (s.tf x.task TaskRec.lookahead), transpose := s.tf x.task TaskRec.transpose == 1 }

/-- The work of a RECOMPUTE whose ring is on and whose stream can be fetched starts on its engine. -/
theorem exec_recomputeTask_starts {s t u : State} {x : TaskRef} {n d r : Nat} (hn : n = s.tf x.task TaskRec.stream) (hd : d = s.sf n StreamRec.die) (hr : r = s.feedAB d)
    (h : TaskMayStart s t x Tk.recompute) (hready : t.recomputeReady x.task = true) (hfree : t.engineFree (s.execIndex x.task) = true) (hturn : t.taskTurn x = true)
    (hu : u = t.beginTask x none) (hring : u.ringOn d r = true) (hfetch : u.fetchable n = true) :
    exec (.recomputeTask x) s = .next (u.recomputeStart (s.execIndex x.task) (.task x) (u.recomputeConsumer x n d r)
      ((u.pinned x).getD (noRef, 0)).1 ((u.pinned x).getD (noRef, 0)).2) := by
  subst hn hd hr hu
  show execRecomputeTask x s = _
  rw [execRecomputeTask, State.dispatch_starts h _ (by simp [hready, hfree, hturn])]
  simp only [hring, hfetch, Bool.not_true, Bool.false_eq_true, if_false]
  rfl

/-! ### SNAPSHOT (R364, R365) -/

/-- Every task before `x` in plan order has ended or will not run. -/
def State.beforeEnded (s : State) (x : TaskRef) : Bool :=
  s.inOrder.all (fun y => !(decide (y.step < x.step) || (y.step == x.step && decide (y.task < x.task))) || s.taskState y == Ts.done || s.taskState y == Ts.notRun)

theorem State.beforeEnded_of_forall {s : State} {x : TaskRef}
    (h : ∀ y, y ∈ s.inOrder → (y.step < x.step ∨ (y.step = x.step ∧ y.task < x.task)) → s.taskState y = Ts.done ∨ s.taskState y = Ts.notRun) :
    s.beforeEnded x = true := by
  refine List.all_eq_true.mpr (fun y hy => ?_)
  by_cases hbefore : y.step < x.step ∨ (y.step = x.step ∧ y.task < x.task)
  · rcases h y hy hbefore with hended | hended <;> simp [hended]
  · have hafter : (decide (y.step < x.step) || (y.step == x.step && decide (y.task < x.task))) = false := by simpa using hbefore
    rw [hafter]
    rfl

/-- The checks that a SNAPSHOT's work makes: the set is in the table, its descriptor lies in a region and can be read, and the set can be captured (R364). -/
structure State.SetPasses (s : State) (k base ctx kind : Nat) : Prop where
  inTable : k < s.ch Ch.setsCount
  inRegion : s.descInRegion base = true
  sound : s.failing base (64 + 32 * min (s.fld base SetDesc.itemCount) 2040) = none
  noFault : s.setFault k base ctx kind = none

/-- A SNAPSHOT whose set passes its checks captures the set, of a kind that the free bytes give (log entry 76), and is over. -/
theorem exec_snapshotTask_captures {s t u : State} {x : TaskRef} {k base kind : Nat} (hk : k = s.tf x.task TaskRec.tileFirst) (hu : u = t.beginTask x none)
    (hbase : base = u.stf k SetRec.descAddr) (hkind : kind = (Config.freeByte u.freeCount).toNat % 2) (h : TaskMayStart s t x Tk.snapshot)
    (hbefore : t.beforeEnded x = true) (hidle : k < t.ch Ch.setsCount → t.stf k SetRec.state ≠ Sst.taking)
    (hset : u.SetPasses k base (u.tf x.task TaskRec.context) kind) :
    exec (.snapshotTask x) s = .next (((u.drew 1).capture k base (u.tf x.task TaskRec.context) kind).finishRun x) := by
  subst hk hu hbase hkind
  obtain ⟨htable, hregion, hsound, hfault⟩ := hset
  have hready : (t.beforeEnded x && !(decide (s.tf x.task TaskRec.tileFirst < t.ch Ch.setsCount) && t.stf (s.tf x.task TaskRec.tileFirst) SetRec.state == Sst.taking)) = true := by
    simpa [hbefore, imp_iff_not_or] using hidle
  show execSnapshotTask x s = _
  rw [execSnapshotTask, State.dispatch_starts h _ hready]
  simp only [Nat.not_le.mpr htable, hregion, hsound, hfault, Bool.not_true, Bool.false_eq_true, if_false]

/-! ### EXCHANGE (R310) -/

/-- The state in which an EXCHANGE waits on its channel. -/
def State.queueExchange (s : State) (x : TaskRef) : State := s.addItem (s.tf x.task TaskRec.channel) (.task x) (.exchange x) (s.tf x.task TaskRec.urgency)

/-- An EXCHANGE that sends a stream queues it once its tiles are there. -/
theorem exec_exchange_sends {s t u : State} {x : TaskRef} (hu : u = t.beginTask x none) (h : TaskMayStart s t x Tk.exchange) (hn : s.exStream x.task ≠ noRef)
    (hr : s.exReceives x.task = false) (hheld : u.stateOf (s.exStream x.task) = Ss.held ∨ u.stateOf (s.exStream x.task) = Ss.serving) :
    exec (.exchange x) s = .next (u.queueExchange x) := by
  subst hu
  have hsends : ¬ (s.exStream x.task ≠ noRef ∧ s.exReceives x.task = true) := by simp [hr]
  show execExchange x s = _
  unfold execExchange
  refine (if_neg (State.not_otherTask h.taskKind_eq h.task_lt)).trans ((if_neg hsends).trans ((if_pos hn).trans ?_))
  rw [State.dispatch_starts h _ rfl, if_pos hheld]
  rfl

/-- An EXCHANGE of a shard's gradient queues it once its window is complete (R312). -/
theorem exec_exchange_gradient {s t u : State} {x : TaskRef} {k a : Nat} (hu : u = t.beginTask x none) (hk : k = s.tf x.task TaskRec.shard) (h : TaskMayStart s t x Tk.exchange)
    (hn : s.exStream x.task = noRef) (ha : s.shardOpt k = some a) (hg : s.exGradient x.task = true) (hw : t.windowReady x k a = true) :
    exec (.exchange x) s = .next (u.queueExchange x) := by
  subst hu hk
  have hstream : ¬ (s.exStream x.task ≠ noRef ∧ s.exReceives x.task = true) := fun hs => hs.1 hn
  show execExchange x s = _
  unfold execExchange
  refine (if_neg (State.not_otherTask h.taskKind_eq h.task_lt)).trans ((if_neg hstream).trans ((if_neg (not_not.mpr hn)).trans ?_))
  rw [ha]
  refine (if_pos hg).trans ?_
  rw [State.dispatch_starts h _ hw]
  rfl

/-! ### UPDATE (R95, R312) -/

/-- An UPDATE whose engine, window and version slot are free starts, and since it runs nothing is noted of a wait for its slot. -/
theorem exec_updateTask_starts {s t u : State} {x : TaskRef} {k a : Nat} (hk : k = s.tf x.task TaskRec.shard) (hu : u = State.updateWork x k a (t.beginTask x none))
    (ha : s.shardOpt k = some a) (h : TaskMayStart s t x Tk.update) (hfree : t.engineFree (t.execIndex x.task) = true) (hready : t.updateReady x k a = true)
    (hturn : t.taskTurn x = true) (hslot : t.slotUnpinned k (s.newVersion x) (some x) = true) (hrun : u.run x ≠ none) :
    exec (.updateTask x) s = .next u := by
  subst hk hu
  have hruns : ((State.updateWork x (s.tf x.task TaskRec.shard) a (t.beginTask x none)).run x).isNone = false :=
    Option.isNone_eq_false_iff.mpr (Option.isSome_iff_ne_none.mpr hrun)
  show execUpdateTask x s = _
  unfold execUpdateTask
  dsimp only
  rw [if_pos h.taskKind_eq, ha]
  dsimp only
  rw [State.dispatch_starts h _ (by simp [hfree, hready, hturn, hslot]), hruns]
  rfl

/-- Settles O9: each kind by what its executor waits for, and by what its work checks before it begins. -/
theorem guardedTasksAreDispatched : Obligations.GuardedTasksAreDispatched := by
  intro s t x
  refine ⟨fun r hr h hready hfree hturn hring hfetch => ?_, fun k base kind u hk hu hbase hkind h hbefore hidle hset hdesc hsound hfault => ?_,
    fun u hu h hn hr hheld => exec_exchange_sends hu h hn hr hheld, fun u a hu h hn ha hg hw => exec_exchange_gradient hu rfl h hn ha hg hw,
    fun k a u hk hu ha h hfree hready hturn hslot hrun => exec_updateTask_starts hk hu ha h hfree hready hturn hslot hrun⟩
  · exact ⟨(t.beginTask x none).recomputeConsumer x (s.tf x.task TaskRec.stream) (s.sf (s.tf x.task TaskRec.stream) StreamRec.die) r, rfl, rfl, rfl, rfl,
      exec_recomputeTask_starts rfl rfl hr h hready hfree hturn rfl hring hfetch⟩
  · exact exec_snapshotTask_captures hk hu hbase hkind h (State.beforeEnded_of_forall hbefore) hidle ⟨hset, hdesc, hsound, hfault⟩

end Sys2Proof.Machine
end

section
/-! PROOFS. Tasks end, COMPUTE tasks are suspended, slips are sought, contributions added, state staged (O10). -/

namespace Sys2Proof.Machine

/-! ### The completion of a task -/

/-- A task that leaves no stream on demand and writes no version ends, and handles go on. -/
theorem exec_taskComplete_ends {s : State} {x : TaskRef} (hfin : (s.run x).any TaskRun.finished = true) (hc : s.tf x.task TaskRec.taskKind ≠ Tk.compute)
    (hu : s.tf x.task TaskRec.taskKind ≠ Tk.update) (hw : s.writesVersion x.task = false) (hn : s.cls (s.tf x.task TaskRec.stream) ≠ Cl.regen) :
    exec (.taskComplete x) s = .next (s.taskEnds x).routeAll := by
  show execTaskComplete x s = _
  unfold execTaskComplete
  simp [hfin, hc, hu, hw, hn]

/-- An UPDATE task produces no stream; its version counts before it ends (R95). -/
theorem exec_taskComplete_update {s : State} {x : TaskRef} (hfin : (s.run x).any TaskRun.finished = true) (hk : s.tf x.task TaskRec.taskKind = Tk.update) :
    exec (.taskComplete x) s = .next ((s.updateTaskCompletes x).taskEnds x).routeAll := by
  show execTaskComplete x s = _
  unfold execTaskComplete
  simp [hfin, hk]

theorem exec_computeComplete_reports {s : State} {d : Nat} {x : TaskRef} (hd : s.computing d = some x) (hrun : (s.run x).any TaskRun.finished = false) :
    exec (.computeComplete d) s = .next (s.routeAll.settleCompute x) := by
  show execComputeComplete d s = _
  unfold execComputeComplete
  simp [hd, hrun]

/-! ### COMPUTE tasks that are suspended, and late tasks (R88 to R91) -/

/-- The list of late tasks with `x` among them. -/
def addLate (x : TaskRef) (late : List TaskRef) : List TaskRef := if late.contains x then late else late ++ [x]

theorem addLate_contains (x : TaskRef) (late : List TaskRef) : (addLate x late).contains x = true := by
  unfold addLate
  split
  · assumption
  · simp

/-- The state in which a slip is sought for task `x`. -/
def State.noteLate (s : State) (x : TaskRef) : State := { s with plan := { s.plan with lateSeen := addLate x s.plan.lateSeen } }

/-- The state in which a COMPUTE task is suspended, its sequencer told (R90). -/
def State.suspendRun (s : State) (x : TaskRef) : State := (s.modRun x (fun r => { r with suspended := true })).out (.suspendCompute x)

/-- The ring of a die has run dry under a step: a delivery of its tiles has been taken as far as it is filled, and is not whole. -/
def State.ringDry (s : State) (d step : Nat) : Bool :=
  s.skerry.consumers.any (fun c => c.die == d && c.ring.isSome && !c.shard && decide (c.taken = c.filled ∧ c.filled < c.count)
    && (match c.source with | .task y => decide (y.step = step) | _ => false))

theorem State.ringDry_of_mem {s : State} {d step : Nat} {c : Consumer} (hc : c ∈ s.skerry.consumers) (hdie : c.die = d) (hring : c.ring.isSome = true) (hshard : c.shard = false)
    (htaken : c.taken = c.filled) (hfilled : c.filled < c.count) (hsrc : ∃ y, c.source = .task y ∧ y.step = step) : s.ringDry d step = true := by
  obtain ⟨y, hy, hstep⟩ := hsrc
  refine List.any_eq_true.mpr ⟨c, hc, ?_⟩
  simp [hdie, hring, hshard, htaken, hfilled, hy, hstep]

/-- A COMPUTE task whose ring is dry is suspended, and a slip is sought. -/
theorem exec_computeSuspend_suspends {s : State} {d : Nat} {x : TaskRef} (hd : s.computing d = some x) (hrun : (s.run x).any TaskRun.finished = false)
    (hdry : s.ringDry d x.step = true) : exec (.computeSuspend d) s = .next (((s.suspendRun x).noteLate x).slip x) := by
  have hmay : ¬ ((!s.ringDry d x.step) = true ∨ (s.run x).any TaskRun.finished = true) := by simp [hdry, hrun]
  show execComputeSuspend d s = _
  unfold execComputeSuspend
  rw [hd]
  exact if_neg hmay

/-- A head task that is still late once its edges are entered is noted, and a slip is sought. -/
theorem exec_taskLate_seeks {s t : State} {x : TaskRef} (hh : s.atHead x = true) (hx : x.task < s.taskCount) (ht : s.arrive x = (t, none)) (hl : t.stillLate x = true) :
    exec (.taskLate x) s = .next ((t.noteLate x).slip x) := by
  have hmay : ¬ ((!s.atHead x) = true ∨ s.taskCount ≤ x.task) := by simp [hh, hx]
  show execTaskLate x s = _
  rw [execTaskLate, if_neg hmay, ht]
  exact if_pos hl

/-! ### Contributions (R311) -/

/-- The elements of contribution `m`, which landed at `b`: the bytes there, or the wide ones kept beside them (log entry 43). -/
def State.landedElems (s : State) (a b : Nat) (m : Landing) : List Nat :=
  if m.wide.isEmpty then gradElems (s.fld a OptRec.gradType) (s.rd b (s.gradBytes a)) else gradElems 3 m.wide

/-- The contributions of shard `k` that landed whole but belong before the next that is added: to an earlier window, or earlier in the open one. -/
def State.staleLandings (s : State) (k a : Nat) : List Landing :=
  (s.shard k).landings.filter (fun l => decide (s.gradBytes a ≤ l.filled)
    && (decide (l.window < (s.shard k).open_) || (l.window == (s.shard k).open_ && decide (l.index < s.fld a OptRec.added))))

theorem State.staleLandings_eq_nil {s : State} {k a : Nat} (h : ∀ n ∈ (s.shard k).landings, s.gradBytes a ≤ n.filled →
    (s.shard k).open_ < n.window ∨ (n.window = (s.shard k).open_ ∧ s.fld a OptRec.added ≤ n.index)) : s.staleLandings k a = [] := by
  refine List.filter_eq_nil_iff.mpr (fun n hn => ?_)
  by_cases hfull : s.gradBytes a ≤ n.filled
  · rcases h n hn hfull with hlater | ⟨hsame, hindex⟩
    · simp [Nat.not_lt.mpr hlater.le, hlater.ne']
    · simp [hsame, Nat.not_lt.mpr hindex]
  · simp [hfull]

/-- The next contribution in index order, landed whole and sound, is added; ADDED rises, and what waited for its buffer may land. -/
theorem State.contributionAdd_adds {s t : State} {k a w j : Nat} {m : Landing} (hk : k < s.shardCount) (ha : s.shardOpt k = some a) (ht : t = s.landRemote k a)
    (hw : w = (t.shard k).open_) (hj : j = t.fld a OptRec.added) (hnew : t.staleLandings k a = [])
    (hm : (t.shard k).landings.find? (fun n => n.window == w && n.index == j && decide (t.gradBytes a ≤ n.filled)) = some m)
    (hfree : t.bufferHeld k a w = false) (hsound : m.wide = [] → t.failingSectors (t.landBuf a j) (t.gradBytes a) = []) :
    State.contributionAdd k s = ((((t.accumulate a w j (t.landedElems a (t.landBuf a j) m) []).modShard k
      (fun z => { z with landings := z.landings.filter (fun n => !(n.window == w && n.index == j)) })).setFld a OptRec.added (j + 1)).settleWindow k a).landRemote k a := by
  have hbad : (if m.wide.isEmpty then t.failingSectors (t.landBuf a j) (t.gradBytes a) else []) = [] := by
    cases hwide : m.wide with
    | nil => simp [hsound hwide]
    | cons b bs => rfl
  unfold State.staleLandings at hnew
  rw [← hw, ← hj] at hnew
  unfold State.contributionAdd
  simp only [hk, if_true, ha, ← ht, ← hw, ← hj, hnew, List.isEmpty_nil, Bool.not_true, Bool.false_eq_true, if_false, hm, hfree, hbad, List.flatMap_nil, List.foldl_nil]
  rfl

theorem exec_contributionAdd (k : Nat) (s : State) : exec (.contributionAdd k) s = .next (State.contributionAdd k s).routeAll := rfl

/-! ### Staged state (R318) -/

/-- State that may be staged, and whose Reef bytes can be read, stands in the staging area. -/
theorem exec_stateStaged_stages {s t : State} {k a : Nat} {bs : List Byte} (hk : k < s.shardCount) (ha : s.shardOpt k = some a) (hp : s.planLoaded = true)
    (hm : s.mayStage k a = true) (hr : s.reefRead (s.fld a OptRec.stateBase) (s.stateSize a) = (t, .ok bs)) :
    exec (.stateStaged k) s = .next ((t.put (t.fld a OptRec.stageBase) bs).modShard k (fun z => { z with staged := true })) := by
  show execStateStaged k s = _
  rw [execStateStaged, if_pos hk, ha]
  dsimp only
  rw [if_pos ⟨hp, hm⟩, State.stageState, hr]

/-- Settles O10: each row by the conditions of its clause; a slip is sought in the state that `State.noteLate` gives. -/
theorem tasksEndAndSlip : Obligations.TasksEndAndSlip := by
  intro s x
  refine ⟨exec_taskComplete_ends, exec_taskComplete_update, fun d => exec_computeComplete_reports, fun d c hd hrun hc hdie hring hshard htaken hfilled hsrc => ?_,
    fun t => exec_taskLate_seeks, fun k a w j t m hk ha ht hw hj hnew hm hfree hsound => ?_, fun k a t bs => exec_stateStaged_stages⟩
  · exact ⟨(s.suspendRun x).noteLate x, rfl, rfl, addLate_contains x _, rfl,
      exec_computeSuspend_suspends hd hrun (State.ringDry_of_mem hc hdie hring hshard htaken hfilled hsrc)⟩
  · have hstale : t.staleLandings k a = [] := State.staleLandings_eq_nil (by rw [← hw, ← hj]; exact hnew)
    rw [exec_contributionAdd, State.contributionAdd_adds hk ha ht hw hj hstale hm hfree hsound]
    rfl

end Sys2Proof.Machine
end

section
/-! PROOFS. Epoch, digest, tree, Chart and member messages, once they are taken (O33). -/

namespace Sys2Proof.Machine

/-! ### EPOCH_REPORT (R104) -/

/-- The state in which a member's report is kept. -/
def State.keepEpoch (s : State) (p : Nat) (f : Frame) : State :=
  { s with cascade := { s.cascade with epochs := s.cascade.epochs.put p (MsgHdr.planEpoch.get f.header.toNat, f.payload, frameArg f % 4096) } }

/-- A member's report reaches the master, which settles the epoch once it has them all. -/
theorem exec_epochReport_master {s u : State} {f : Frame} {p : Nat} (hu : u = s.afterFrame f) (h : MessageTaken s Mk.epochReport f) (hp : u.memberAt (frameSrc f) = some p)
    (hm : (u.keepEpoch p f).isMaster = true) : exec (.epochReport f) s = .next (u.keepEpoch p f).settleEpoch := by
  subst hu
  unfold State.keepEpoch at hm
  show execEpochReport f s = _
  rw [execEpochReport, State.message_taken h]
  simp only [hp, hm, if_true]
  rfl

/-! ### DIGEST_ROOT, TREE_REQUEST and TREE_DATA (R371) -/

theorem exec_digestRoot_arrives {s : State} {f : Frame} (h : MessageTaken s Mk.digestRoot f) :
    exec (.digestRoot f) s = .next ((s.afterFrame f).rootArrives (frameSrc f) (frameArg f % 2 ^ 32) (frameArg f / 2 ^ 32 % 2 ^ 16) (frameArg f / 2 ^ 48) f.payload) := by
  show execDigestRoot f s = _
  rw [execDigestRoot, State.message_taken h]

/-- A TREE_REQUEST with an act tells that a tree is no longer wanted. -/
theorem exec_treeRequest_releases {s : State} {f : Frame} (h : MessageTaken s Mk.treeRequest f) (ha : frameArg f / 2 ^ 56 ≠ 0) :
    exec (.treeRequest f) s = .next ((s.afterFrame f).treeReleased (frameArg f % 2 ^ 32) (frameArg f / 2 ^ 56 == 2)) := by
  show execTreeRequest f s = _
  rw [execTreeRequest, State.message_taken h]
  exact congrArg _ (if_neg ha)

/-- A TREE_REQUEST without one asks for the leaves, which go back in messages of 4,096 bytes. -/
theorem exec_treeRequest_sends {s u : State} {f : Frame} {l : List Byte} (hu : u = s.afterFrame f) (h : MessageTaken s Mk.treeRequest f) (ha : frameArg f / 2 ^ 56 = 0)
    (hl : l = u.leafLevel (frameArg f % 2 ^ 32) (leNat (f.payload.take 4))) :
    exec (.treeRequest f) s = .next ((chunksOf 4096 l.length l).foldl (fun (s : State) c => s.send (frameSrc f) Mk.treeData (frameArg f % 2 ^ 48) c) u) := by
  subst hu hl
  show execTreeRequest f s = _
  rw [execTreeRequest, State.message_taken h]
  exact congrArg _ (if_pos ha)

/-- The state in which the leaves of a package that were asked for are kept with those it sent before. -/
def State.keepLeaves (s : State) (f : Frame) : State :=
  s.modComparison (frameArg f % 2 ^ 32) (frameArg f / 2 ^ 32 % 2 ^ 16)
    (fun c => if (c.leaves.find (frameSrc f)).isSome then { c with leaves := c.leaves.put (frameSrc f) (c.leaves.getD (frameSrc f) [] ++ f.payload) } else c)

/-- The comparison that a TREE_DATA belongs to. -/
def State.comparisonOf (s : State) (f : Frame) : Option Comparison :=
  s.comparisons.find? (fun c => c.shard == frameArg f % 2 ^ 32 && c.version == frameArg f / 2 ^ 32 % 2 ^ 16)

theorem exec_treeData_keeps {s v : State} {f : Frame} (h : MessageTaken s Mk.treeData f) (hv : v = (s.afterFrame f).keepLeaves f) (hc : v.comparisonOf f = none) :
    exec (.treeData f) s = .next v := by
  subst hv
  unfold State.comparisonOf State.keepLeaves at hc
  show execTreeData f s = _
  rw [execTreeData, State.message_taken h]
  simp only [hc]
  rfl

/-- With the leaves of every package that differs, and of the owner, the comparison is made. -/
theorem exec_treeData_compares {s v : State} {f : Frame} {c : Comparison} (h : MessageTaken s Mk.treeData f) (hv : v = (s.afterFrame f).keepLeaves f)
    (hc : v.comparisonOf f = some c) (hl : c.leaves ≠ []) (hall : ∀ p ∈ c.owner :: c.differing, 32 * rootLeaves (c.roots.getD c.owner []) ≤ (c.leaves.getD p []).length) :
    exec (.treeData f) s = .next (v.compareLeaves c) := by
  subst hv
  have hwhole : (!c.leaves.isEmpty && (c.owner :: c.differing).all (fun p => decide (32 * rootLeaves (c.roots.getD c.owner []) ≤ (c.leaves.getD p []).length))) = true := by
    simpa [hl] using hall
  unfold State.comparisonOf State.keepLeaves at hc
  show execTreeData f s = _
  rw [execTreeData, State.message_taken h]
  simp only [hc, hwhole, if_true]
  rfl

/-! ### Requests and replies of the Chart (R401) -/

/-- The access that a CHART_REQUEST with header `hdr` asks for; its reply goes back under the sender's number for it. -/
def chartReq (f : Frame) (hdr : Nat) : Req := ⟨.cascade, MailboxHdr.seq.get hdr + (frameArg f + (frameSrc f + 1) * 2 ^ 64) * 2 ^ 16, MailboxHdr.offset.get hdr, []⟩

/-- A request that is taken is the next of its sender. -/
theorem MessageTaken.fresh {s : State} {kind : Nat} {f : Frame} (h : MessageTaken s kind f) :
    (!s.discards f && MsgHdr.kind.get f.header.toNat == kind && MsgHdr.seq.get f.header.toNat == ((s.peer (MsgHdr.srcPackage.get f.header.toNat)).rxSeq + 1) % 65536) = true := by
  obtain ⟨hd, hk, hq⟩ := h
  unfold frameSrc at hq
  simp [hd, hk, hq]

/-- A READ of an entry outside the locked pages is served, whoever asks. -/
theorem exec_chartRequest_read {s u : State} {f : Frame} {hdr : Nat} (hu : u = s.afterFrame f) (h : MessageTaken s Mk.chartRequest f) (hh : hdr = leNat (f.payload.take 24))
    (hop : MailboxHdr.op.get hdr = 1) (hi : MailboxHdr.index.get hdr ≠ 0x9180) (hlock : lockedOpen (MailboxHdr.index.get hdr) = false) :
    exec (.chartRequest f) s = .next (u.chartRead (MailboxHdr.index.get hdr) (MailboxHdr.subindex.get hdr) (MailboxHdr.length.get hdr) (chartReq f hdr)) := by
  subst hu hh
  show execChartRequest f s = _
  unfold execChartRequest
  simp only [h.fresh, State.message_taken h, hop, hi, hlock, State.chartServe, Bool.not_true, Bool.false_eq_true, if_false, false_and, OfNat.one_ne_ofNat]
  rfl

/-- A WRITE of an entry outside the locked pages by a package that is not the master's is a stranger's (R401). -/
theorem exec_chartRequest_stranger {s u : State} {f : Frame} {hdr : Nat} (hu : u = s.afterFrame f) (h : MessageTaken s Mk.chartRequest f) (hh : hdr = leNat (f.payload.take 24))
    (hop : MailboxHdr.op.get hdr = 2) (hm : s.pkgAt s.masterPosition ≠ some (frameSrc f)) (hlock : lockedOpen (MailboxHdr.index.get hdr) = false) :
    exec (.chartRequest f) s = .next (u.strangerWrite (MailboxHdr.index.get hdr) (MailboxHdr.subindex.get hdr) { chartReq f hdr with data := f.payload.drop 24 }) := by
  subst hu hh
  have hstranger : MailboxHdr.op.get (leNat (f.payload.take 24)) = 2 ∧ s.pkgAt s.masterPosition ≠ some (MsgHdr.srcPackage.get f.header.toNat) := ⟨hop, hm⟩
  show execChartRequest f s = _
  unfold execChartRequest
  simp only [h.fresh, State.message_taken h, hlock, Bool.not_true, Bool.false_eq_true, if_false]
  rw [if_pos hstranger]
  rfl

/-- A reply numbered 1 to 6 is a feed's (R374). -/
theorem exec_chartReply_feed {s : State} {f : Frame} (h : MessageTaken s Mk.chartReply f) (hlo : 1 ≤ frameArg f) (hhi : frameArg f ≤ 6) :
    exec (.chartReply f) s = .next ((s.afterFrame f).feedArrives (frameSrc f) (frameArg f) (MailboxHdr.status.get (leNat (f.payload.take 24))) (leNat (f.payload.drop 24))) := by
  show execChartReply f s = _
  rw [execChartReply, State.message_taken h]
  exact congrArg _ (if_pos ⟨hlo, hhi⟩)

/-- A reply numbered 7 to 14 by the lender at that position, with status OK, gives what it lends (log entry 39). -/
theorem exec_chartReply_lender {s u : State} {f : Frame} (hu : u = s.afterFrame f) (h : MessageTaken s Mk.chartReply f) (hlo : 7 ≤ frameArg f) (hhi : frameArg f < 15)
    (hst : MailboxHdr.status.get (leNat (f.payload.take 24)) = Cs.ok) (hp : u.pkgAt (frameArg f - 7) = some (frameSrc f)) :
    exec (.chartReply f) s = .next (u.setCh (Ch.borrowGranted + 256 * (frameArg f - 7)) (leNat (f.payload.drop 24))) := by
  subst hu
  have hfeed : ¬ (1 ≤ frameArg f ∧ frameArg f ≤ 6) := by omega
  show execChartReply f s = _
  rw [execChartReply, State.message_taken h]
  exact congrArg _ ((if_neg hfeed).trans ((if_pos ⟨hlo, hhi⟩).trans (if_pos ⟨hst, hp⟩)))

/-! ### The notice of a member's loss (R399) -/

/-- The master's notice of another member clears it from the members that are up, and what it owned is lost. -/
theorem exec_memberNotice_lost {s u : State} {f : Frame} (hu : u = s.afterFrame f) (h : MessageTaken s Mk.memberNotice f)
    (hm : u.memberAt (frameSrc f) = some u.masterPosition) (hlt : frameArg f < 8) (hself : frameArg f ≠ strapPos) :
    exec (.memberNotice f) s = .next ((if bit (u.ch Ch.membersUp) (frameArg f) then u.setCh Ch.membersUp (u.ch Ch.membersUp - 2 ^ frameArg f) else u).memberLost (frameArg f) 0) := by
  subst hu
  have hother : ¬ ((s.afterFrame f).memberAt (frameSrc f) ≠ some (s.afterFrame f).masterPosition ∨ 8 ≤ frameArg f ∨ frameArg f = strapPos) :=
    not_or.mpr ⟨not_not.mpr hm, not_or.mpr ⟨Nat.not_le.mpr hlt, hself⟩⟩
  show execMemberNotice f s = _
  rw [execMemberNotice, State.message_taken h]
  exact congrArg _ (if_neg hother)

/-- Settles O33: a message that is taken acts in the state that its header leaves (`State.message_taken`), as its kind and its fields say. -/
theorem controlMessagesAct : Obligations.ControlMessagesAct := by
  rintro s _ f rfl
  refine ⟨?_, exec_digestRoot_arrives, exec_treeRequest_releases, fun l => exec_treeRequest_sends rfl, fun v => exec_treeData_keeps, fun v c => exec_treeData_compares,
    ?_, ?_, exec_memberNotice_lost rfl⟩
  · rintro p _ h hp hm rfl
    exact exec_epochReport_master rfl h hp hm
  · rintro hdr _ h hh rfl
    exact ⟨exec_chartRequest_read rfl h hh, exec_chartRequest_stranger rfl h hh⟩
  · rintro _ _ h rfl rfl
    exact ⟨exec_chartReply_feed h, exec_chartReply_lender rfl h⟩

end Sys2Proof.Machine
end

section
/-! PROOFS. Fields of records in memory written and read back, and the completion record of a command (O50). -/

namespace Sys2Proof

/-! ### Numbers as bytes -/

theorem leNat_leBytes (n v : Nat) : leNat (leBytes n v) = v % 2 ^ (8 * n) := by
  induction n generalizing v with
  | zero => simp [leBytes, leNat, Nat.mod_one]
  | succ n ih =>
    rw [leBytes, leNat, ih, BitVec.toNat_ofNat, Nat.mul_succ, Nat.add_comm (8 * n) 8, Nat.pow_add, Nat.mod_mul]

/-- A field sees only the bits up to its highest. -/
theorem Fld.get_mod_two_pow {f : Fld} {n : Nat} (h : f.hi < n) (v : Nat) : f.get (v % 2 ^ n) = f.get v := by
  refine Nat.eq_of_testBit_eq (fun i => ?_)
  rw [Fld.testBit_get, Fld.testBit_get, Nat.testBit_mod_two_pow]
  by_cases hi : i < f.width
  · have hn : f.lo + i < n := by unfold Fld.width at hi; omega
    simp [hn]
  · simp [hi]

end Sys2Proof

namespace Sys2Proof.Machine

/-! ### Bytes and fields read after a write -/

/-- What is read depends on the bytes read alone. -/
theorem Memory.readN_congr {m m' : List Host.Cell} (hm : Memory.wf m = true) (hm' : Memory.wf m' = true) {a n : Nat}
    (h : ∀ x, a ≤ x → x < a + n → Memory.read m' x = Memory.read m x) : Memory.readN m' a n = Memory.readN m a n := by
  rw [Memory.readN_eq_map hm, Memory.readN_eq_map hm']
  refine List.map_congr_left (fun x hx => ?_)
  obtain ⟨hlo, hhi⟩ := List.mem_range'_1.mp hx
  exact h x hlo hhi

/-- A field depends on the bytes that hold it alone. -/
theorem State.fld_congr {s t : State} (hs : s.memWf = true) (ht : t.memWf = true) {base : Nat} {f : Fld}
    (h : ∀ x, base + f.lo / 8 ≤ x → x < base + f.lo / 8 + (f.hi / 8 + 1 - f.lo / 8) → Memory.read t.mem x = Memory.read s.mem x) : t.fld base f = s.fld base f := by
  unfold State.fld State.rdNat State.rd
  rw [Memory.readN_congr hs ht h]

/-- A field that is written reads back. -/
theorem State.fld_setFld_self {s : State} (hs : s.checkWords = []) (hwf : s.memWf = true) {base v : Nat} {f : Fld} (hf : f.lo ≤ f.hi) (hv : v < 2 ^ f.width) :
    (s.setFld base f v).fld base f = v := by
  let g : Fld := ⟨f.hi - 8 * (f.lo / 8), f.lo % 8⟩
  have hwidth : g.width = f.width := by simp only [g, Fld.width]; omega
  have hlast : g.hi < 8 * (f.hi / 8 + 1 - f.lo / 8) := by simp only [g]; omega
  have hg : g.lo ≤ g.hi := by simp only [g]; omega
  have hread : ∀ x, (s.store (base + f.lo / 8) (leBytes (f.hi / 8 + 1 - f.lo / 8) x)).rdNat (base + f.lo / 8) (f.hi / 8 + 1 - f.lo / 8)
      = x % 2 ^ (8 * (f.hi / 8 + 1 - f.lo / 8)) := by
    intro x
    have hbytes := Memory.readN_write hwf (base + f.lo / 8) (leBytes (f.hi / 8 + 1 - f.lo / 8) x)
    rw [leBytes_length] at hbytes
    rw [State.rdNat, State.rd, State.store_sound s _ _ hs, hbytes, leNat_leBytes]
  unfold State.fld State.setFld
  rw [hread, ← hwidth]
  show g.get (g.set _ v % _) = v
  rw [Fld.get_mod_two_pow hlast, Fld.get_set_self hg (by rw [hwidth]; exact hv)]

/-- With every sector sound a field that is written changes memory alone. -/
theorem State.setFld_sound {s : State} (hs : s.checkWords = []) (base : Nat) (f : Fld) (v : Nat) : s.setFld base f v = { s with mem := (s.setFld base f v).mem } := by
  unfold State.setFld
  dsimp only
  rw [State.store_sound s _ _ hs]

theorem State.memWf_setFld {s : State} (hwf : s.memWf = true) (base : Nat) (f : Fld) (v : Nat) : (s.setFld base f v).memWf = true := by
  obtain ⟨m, c, hset, hkeep, -⟩ := State.setFld_eq s base f v
  rw [hset]
  exact hkeep hwf

/-- Outside the bytes that hold the field memory is as it was. -/
theorem State.read_setFld {s : State} {base x : Nat} {f : Fld} (v : Nat) (hx : ¬ (base + f.lo / 8 ≤ x ∧ x < base + f.lo / 8 + (f.hi / 8 + 1 - f.lo / 8))) :
    Memory.read (s.setFld base f v).mem x = Memory.read s.mem x := by
  obtain ⟨m, c, hset, -, hread⟩ := State.setFld_eq s base f v
  rw [hset]
  exact hread x hx

/-! ### The completion record (R138) -/

/-- The slot of the completion ring that CQ_TAIL names. -/
def State.complAddr (s : State) (q : Nat) : Nat := s.q q QueueDesc.cqBase + 16 * (s.q q QueueDesc.cqTail % s.ringSize q)

/-- The record of a command `w` of queue `q`, with the phase of the round of the ring. -/
def State.complRecordOf (s : State) (q w status detail : Nat) : Nat :=
  complRecord (if s.q q QueueDesc.cqTail / s.ringSize q % 2 = 0 then 1 else 0) detail q (s.q q QueueDesc.context) status (cmdGet w Cmd.opcode) (cmdGet w Cmd.sequence)

/-- With every sector sound the record goes to its slot, and CQ_TAIL advances. -/
theorem State.writeRecord_sound {s : State} (hs : s.checkWords = []) (q w status detail : Nat) :
    s.writeRecord .ok q w status detail = (s.store (s.complAddr q) (leBytes 16 (s.complRecordOf q w status detail))).setQ q QueueDesc.cqTail ((s.q q QueueDesc.cqTail + 1) % 65536) := by
  simp only [State.writeRecord, State.failing_sound s _ _ hs, Option.isSome_none, Bool.or_false, bne_self_eq_false, Bool.false_eq_true, if_false, State.complAddr, State.complRecordOf]

/-- A command that ends well, without a SIGNAL, writes its record; an interrupt is all there may be beside it (R136). -/
theorem State.finish_success {s : State} {m : MemResult} {q w detail : Nat} (hsig : cmdGet w Cmd.signal = 0) (hrec : cmdGet w Cmd.noRecord = 0) :
    ∃ o, s.finish m q w St.success detail = { s.writeRecord m q w St.success detail with outbox := o } := by
  unfold State.finish
  simp only [hsig, hrec, false_and, and_false, if_false, if_true, zero_ne_one, not_true_eq_false, or_false]
  split
  · exact ⟨_, rfl⟩
  · exact ⟨_, rfl⟩

/-! ### The end of a command -/

/-- A queue that is not DRAINING has nothing to drain (R114). -/
theorem State.drainQueue_of_not_draining {s : State} {q : Nat} (h : s.queueState q ≠ Qs.draining) : s.drainQueue q = s := by
  have hdrain : ∀ n, State.drain n s q = s
    | 0 => rfl
    | n + 1 => by rw [State.drain, if_pos h]
  exact hdrain _

/-- With no task that searches for a slip, the signals that were noted are all that is let go. -/
theorem State.recheckSlips_of_none {s : State} (h : s.plan.lateSeen = []) : s.recheckSlips = { s with plan := { s.plan with signalled := [] } } := by
  simp only [State.recheckSlips, h, List.filter_nil, List.foldl_nil]

/-- The state in which a command is no longer among those copied. -/
def State.undispatch (s : State) (d : Dispatched) : State := { s with dispatched := s.dispatched.filter (fun e => e.tag != d.tag) }

@[simp] theorem State.q_undispatch (s : State) (d : Dispatched) (q : Nat) (f : Fld) : (s.undispatch d).q q f = s.q q f := rfl
@[simp] theorem State.complAddr_undispatch (s : State) (d : Dispatched) (q : Nat) : (s.undispatch d).complAddr q = s.complAddr q := rfl
@[simp] theorem State.complRecordOf_undispatch (s : State) (d : Dispatched) (q w status detail : Nat) :
    (s.undispatch d).complRecordOf q w status detail = s.complRecordOf q w status detail := rfl

theorem State.complete_eq (s : State) (d : Dispatched) (status detail : Nat) :
    s.complete d status detail = ((s.undispatch d).finish d.slot d.queue d.word status detail).drainQueue d.queue := rfl

/-- The state in which its record stands in its slot. -/
def State.slotWritten (s : State) (d : Dispatched) (status detail : Nat) : State :=
  (s.undispatch d).store (s.complAddr d.queue) (leBytes 16 (s.complRecordOf d.queue d.word status detail))

/-- The state in which CQ_TAIL names the next slot as well. -/
def State.recorded (s : State) (d : Dispatched) (status detail : Nat) : State :=
  (s.slotWritten d status detail).setQ d.queue QueueDesc.cqTail ((s.q d.queue QueueDesc.cqTail + 1) % 65536)

section
variable {s : State} {d : Dispatched} (status detail : Nat) (hs : s.checkWords = [])
include hs

theorem State.slotWritten_eq : s.slotWritten d status detail =
    { s.undispatch d with mem := Memory.write s.mem (s.complAddr d.queue) (leBytes 16 (s.complRecordOf d.queue d.word status detail)) } := State.store_sound (s.undispatch d) _ _ hs

theorem State.checkWords_slotWritten : (s.slotWritten d status detail).checkWords = [] := by rw [State.slotWritten_eq status detail hs]; exact hs

theorem State.queueBase_slotWritten (q : Nat) : (s.slotWritten d status detail).queueBase q = s.queueBase q := by rw [State.slotWritten_eq status detail hs]; rfl

/-- Memory is all that a record changes beside the list of commands. -/
theorem State.recorded_eq : s.recorded d status detail = { s.undispatch d with mem := (s.recorded d status detail).mem } := by
  have hset : s.recorded d status detail = { s.slotWritten d status detail with mem := (s.recorded d status detail).mem } :=
    State.setFld_sound (State.checkWords_slotWritten status detail hs) _ _ _
  rw [State.slotWritten_eq status detail hs] at hset
  exact hset

theorem State.queueBase_recorded (q : Nat) : (s.recorded d status detail).queueBase q = s.queueBase q := by rw [State.recorded_eq status detail hs]; rfl

/-- CQ_TAIL is all that changes once the record is written: the two bytes from the descriptor's byte 42. -/
theorem State.read_recorded {x : Nat} (htail : ¬ (s.queueBase d.queue + 42 ≤ x ∧ x < s.queueBase d.queue + 44)) :
    Memory.read (s.recorded d status detail).mem x = Memory.read (s.slotWritten d status detail).mem x := by
  rw [← State.queueBase_slotWritten status detail hs] at htail
  exact State.read_setFld _ htail

/-- Outside the slot and CQ_TAIL memory is as it was. -/
theorem State.read_recorded_outside {x : Nat} (htail : ¬ (s.queueBase d.queue + 42 ≤ x ∧ x < s.queueBase d.queue + 44))
    (hslot : ¬ (s.complAddr d.queue ≤ x ∧ x < s.complAddr d.queue + 16)) : Memory.read (s.recorded d status detail).mem x = Memory.read s.mem x := by
  rw [State.read_recorded status detail hs htail, State.slotWritten_eq status detail hs, Memory.read_write, leBytes_length, if_neg hslot]

variable (hwf : s.memWf = true)
include hwf

theorem State.memWf_slotWritten : (s.slotWritten d status detail).memWf = true := by
  rw [State.slotWritten_eq status detail hs]
  exact Memory.wf_write hwf _ _

theorem State.memWf_recorded : (s.recorded d status detail).memWf = true := State.memWf_setFld (State.memWf_slotWritten status detail hs hwf) _ _ _

theorem State.cqTail_recorded : (s.recorded d status detail).q d.queue QueueDesc.cqTail = (s.q d.queue QueueDesc.cqTail + 1) % 65536 := by
  rw [State.q, State.queueBase_recorded status detail hs, ← State.queueBase_slotWritten status detail hs]
  exact State.fld_setFld_self (State.checkWords_slotWritten status detail hs) (State.memWf_slotWritten status detail hs hwf) (by decide) (Nat.mod_lt _ (by decide))

variable (hout : s.complAddr d.queue + 16 ≤ s.queueBase d.queue ∨ s.queueBase d.queue + 64 ≤ s.complAddr d.queue)
include hout

/-- The record stands in its slot. -/
theorem State.rd_recorded : (s.recorded d status detail).rd (s.complAddr d.queue) 16 = leBytes 16 (s.complRecordOf d.queue d.word status detail) := by
  have hkept : ∀ x, s.complAddr d.queue ≤ x → x < s.complAddr d.queue + 16 →
      Memory.read (s.recorded d status detail).mem x = Memory.read (s.slotWritten d status detail).mem x :=
    fun x hlo hhi => State.read_recorded status detail hs (by omega)
  have hwrite := Memory.readN_write hwf (s.complAddr d.queue) (leBytes 16 (s.complRecordOf d.queue d.word status detail))
  rw [leBytes_length] at hwrite
  rw [State.rd, Memory.readN_congr (State.memWf_slotWritten status detail hs hwf) (State.memWf_recorded status detail hs hwf) hkept, State.slotWritten_eq status detail hs, hwrite]

/-- The queue stays in its state, which the descriptor's byte 35 holds. -/
theorem State.queueState_recorded : (s.recorded d status detail).queueState d.queue = s.queueState d.queue := by
  rw [State.queueState, State.queueBase_recorded status detail hs]
  refine State.fld_congr hwf (State.memWf_recorded status detail hs hwf) (fun x hlo hhi => ?_)
  have hlo : s.queueBase d.queue + 35 ≤ x := hlo
  have hhi : x < s.queueBase d.queue + 36 := hhi
  exact State.read_recorded_outside status detail hs (by omega) (by omega)
end

/-- A command of an ENABLED queue that ends well, with a record and no SIGNAL, leaves the state in which its record is written; the interrupt and the signals noted are all there is beside it. -/
theorem State.endCmd_records {s : State} {d : Dispatched} {detail : Nat} (hslot : d.slot = .ok) (hwf : s.memWf = true) (hs : s.checkWords = []) (hlate : s.plan.lateSeen = [])
    (hsig : cmdGet d.word Cmd.signal = 0) (hrec : cmdGet d.word Cmd.noRecord = 0) (hq : s.queueState d.queue = Qs.enabled)
    (hout : s.complAddr d.queue + 16 ≤ s.queueBase d.queue ∨ s.queueBase d.queue + 64 ≤ s.complAddr d.queue) :
    ∃ o, s.endCmd d St.success detail = { s.recorded d St.success detail with outbox := o, plan := { s.plan with signalled := [] } } := by
  obtain ⟨o, hfinish⟩ : ∃ o, (s.undispatch d).finish .ok d.queue d.word St.success detail = { s.recorded d St.success detail with outbox := o } := by
    have hwritten : (s.undispatch d).writeRecord .ok d.queue d.word St.success detail = s.recorded d St.success detail := by
      rw [State.writeRecord_sound (s := s.undispatch d) hs, State.q_undispatch, State.complAddr_undispatch, State.complRecordOf_undispatch, State.recorded, State.slotWritten]
    rw [← hwritten]
    exact State.finish_success hsig hrec
  have hserves : (s.recorded d St.success detail).queueState d.queue ≠ Qs.draining := by
    rw [State.queueState_recorded _ _ hs hwf hout, hq]
    decide
  have hcomplete : s.complete d St.success detail = { s.recorded d St.success detail with outbox := o } := by
    have hdrain := State.drainQueue_of_not_draining (s := { s.recorded d St.success detail with outbox := o }) hserves
    rw [State.complete_eq, hslot, hfinish, hdrain]
  have hplan : (s.recorded d St.success detail).plan = s.plan := by rw [State.recorded_eq _ _ hs]; rfl
  refine ⟨o, ?_⟩
  rw [State.endCmd, hcomplete, State.recheckSlips_of_none (by rw [hplan]; exact hlate), hplan]

/-- Settles O50: the NOP's completion leaves the state of `State.recorded`, of which the lemmas above give the record, CQ_TAIL and the rest of memory. -/
theorem completionRecordIsWritten : Obligations.CompletionRecordIsWritten := by
  intro s c a d hready hslot hwf hs hlate hsig hrec hq ha hout
  have ha : a = s.complAddr d.queue := ha
  subst ha
  obtain ⟨o, hend⟩ := State.endCmd_records (detail := 0) hslot hwf hs hlate hsig hrec hq hout
  have heq := State.recorded_eq (d := d) St.success 0 hs
  refine ⟨_, exec_nop_ready hready, ?_⟩
  rw [hend]
  refine ⟨by rw [heq]; rfl, by rw [heq]; rfl, rfl, by rw [heq]; rfl, State.rd_recorded _ _ hs hwf hout, State.cqTail_recorded _ _ hs hwf, fun x hx hd => ?_⟩
  exact State.read_recorded_outside _ _ hs (by omega) hx

end Sys2Proof.Machine
end

section
/-! PROOFS. Doorbells, the dispatch of commands, ENABLE and DISABLE of queues (O13, O14). -/

namespace Sys2Proof.Machine

/-! ### Doorbells (R117 to R120) -/

/-- A submission doorbell that no cause stops moves SQ_TAIL, or passes what the ring allows. -/
theorem exec_submissionDoorbell_acts {src : Origin} {word : BitVec 64} {width : Nat} {aligned : Bool} {s : State} {q i : Nat} (hq : q = DoorbellWord.queue.get word.toNat)
    (hi : i = DoorbellWord.index.get word.toNat) (hk : DoorbellWord.kind.get word.toNat = 0) (hf : s.doorbellFault src word.toNat width aligned = 0) :
    exec (.submissionDoorbell src word width aligned) s = .next (if (i + 65536 - s.q q QueueDesc.sqHead) % 65536 ≤ s.ringSize q
      then (s.setQ q QueueDesc.sqTail i).wake else (s.queueError q 1).wake) := by
  subst hq hi
  show execSubmissionDoorbell src word width aligned s = _
  simp only [execSubmissionDoorbell, hk, hf, ne_eq, not_true_eq_false, if_false, ← not_lt]
  split <;> rfl

/-- A completion doorbell that no cause stops moves CQ_HEAD, or passes CQ_TAIL. -/
theorem exec_completionDoorbell_acts {src : Origin} {word : BitVec 64} {width : Nat} {aligned : Bool} {s : State} {q i : Nat} (hq : q = DoorbellWord.queue.get word.toNat)
    (hi : i = DoorbellWord.index.get word.toNat) (hk : DoorbellWord.kind.get word.toNat = 1) (hf : s.doorbellFault src word.toNat width aligned = 0) :
    exec (.completionDoorbell src word width aligned) s = .next (if (i + 65536 - s.q q QueueDesc.cqHead) % 65536 ≤ (s.q q QueueDesc.cqTail + 65536 - s.q q QueueDesc.cqHead) % 65536
      then (s.setQ q QueueDesc.cqHead i).wake else (s.queueError q 2).wake) := by
  subst hq hi
  show execCompletionDoorbell src word width aligned s = _
  simp only [execCompletionDoorbell, hk, hf, ne_eq, not_true_eq_false, if_false, ← not_lt]
  split <;> rfl

theorem exec_submissionDoorbell_ignored {src : Origin} {word : BitVec 64} {width : Nat} {aligned : Bool} {s : State} (hk : DoorbellWord.kind.get word.toNat = 0)
    (hf : s.doorbellFault src word.toNat width aligned ≠ 0) :
    exec (.submissionDoorbell src word width aligned) s = .next (s.ignoreDoorbell word.toNat (s.doorbellFault src word.toNat width aligned)) := by
  show execSubmissionDoorbell src word width aligned s = _
  simp only [execSubmissionDoorbell, hk, hf, ne_eq, not_true_eq_false, not_false_eq_true, if_false, if_true]

theorem exec_completionDoorbell_ignored {src : Origin} {word : BitVec 64} {width : Nat} {aligned : Bool} {s : State} (hk : DoorbellWord.kind.get word.toNat = 1)
    (hf : s.doorbellFault src word.toNat width aligned ≠ 0) :
    exec (.completionDoorbell src word width aligned) s = .next (s.ignoreDoorbell word.toNat (s.doorbellFault src word.toNat width aligned)) := by
  show execCompletionDoorbell src word width aligned s = _
  simp only [execCompletionDoorbell, hk, hf, ne_eq, not_true_eq_false, not_false_eq_true, if_false, if_true]

/-- Settles O13: each doorbell by whether a cause stops it, and then by whether its index passes what the ring allows. -/
theorem doorbellsAct : Obligations.DoorbellsAct := by
  intro src word width aligned s q i hq hi
  exact ⟨exec_submissionDoorbell_acts hq hi, exec_completionDoorbell_acts hq hi,
    fun hf => ⟨fun hk => exec_submissionDoorbell_ignored hk hf, fun hk => exec_completionDoorbell_ignored hk hf⟩⟩

/-! ### COMMAND_DISPATCH (R123 to R126) -/

/-- The state once COMMAND_DISPATCH has looked at queues that all have a slot free: none waits for one. -/
def State.allSlotsFree (s : State) : State := { s.countSticky Ch.cqWaits 0 with cqWaiting := [] }

/-- The state in which queue `q` has had its turn in class `c` (R126). -/
def State.turnTaken (s : State) (c q : Nat) : State := { s.allSlotsFree with roundRobin := s.roundRobin.set c q }

/-- With the Pilot at work and a slot free in each queue that offers a command, the one whose turn it is gives its command. -/
theorem exec_commandDispatch_copies {s : State} {c q : Nat} {slot : MemResult} (hp : s.pilotRuns = true) (hw : s.ch Ch.powerState = 7)
    (hfree : ∀ p ∈ s.offering, s.slotFree p = true) (hn : s.allSlotsFree.nextQueue s.offering = some (c, q)) (hs : s.checkWords = []) :
    exec (.commandDispatch ⟨.ok, slot⟩) s = .next ((s.turnTaken c q).dispatchFrom q slot) := by
  have hheld : s.offering.filter (fun p => !s.slotFree p) = [] := List.filter_eq_nil_iff.mpr (fun p hp => by simp [hfree p hp])
  have hsound : (s.turnTaken c q).failing ((s.turnTaken c q).headSlot q) 64 = none := State.failing_sound (s.turnTaken c q) _ _ hs
  show execCommandDispatch ⟨.ok, slot⟩ s = _
  unfold execCommandDispatch
  simp only [hp, hw, hheld, List.filter_nil, List.length_nil, List.contains_nil, Bool.not_false, List.filter_true, Bool.not_true, Bool.false_eq_true, ne_eq, not_true_eq_false,
    or_self, if_false]
  show (match s.allSlotsFree.nextQueue s.offering with | none => _ | some (c, q) => _) = _
  rw [hn]
  show (match (s.turnTaken c q).failing ((s.turnTaken c q).headSlot q) 64 with | some _ => _ | none => Host.Outcome.next ((s.turnTaken c q).dispatchFrom q slot)) = _
  rw [hsound]

/-! ### ENABLE and DISABLE (R113, R114) -/

/-- A write that passes the common checks and its entry's own has the status OK. -/
theorem State.writeStatus_ok {s : State} {index sub : Nat} {r : Req} (h : ChecksPass s index sub r) {act : ChAct} (h1 : act.range = true) (h2 : act.state = true)
    (h3 : act.params = true) : s.writeStatus index sub r act = Cs.ok := by
  obtain ⟨range, state, params, effect⟩ := act
  simp only at h1 h2 h3
  subst h1 h2 h3
  exact h.2

/-- What ENABLE checks, and what it does to a queue that passes. -/
def State.enableAct (s : State) (r : Req) (q : Nat) : ChAct :=
  ⟨onlyBits r.value [QueueCtl.queue, actF] && decide (q < s.ch Ch.qtableCount), s.queueState q == Qs.disabled && (s.failing (s.queueBase q) 64).isNone, s.queueValid q,
    fun s => (s.enableQueue q).wake⟩

/-- ENABLE of a DISABLED queue whose descriptor can be read and is valid opens it. -/
theorem exec_queueEnable_opens {s : State} {q : Nat} {r : Req} (hq : q = QueueCtl.queue.get r.value) (hc : ChecksPass s 0x1121 1 r) (ha : actionIs r actF 1 = true)
    (hb : onlyBits r.value [QueueCtl.queue, actF] = true) (hlt : q < s.ch Ch.qtableCount) (hst : s.queueState q = Qs.disabled) (hs : s.failing (s.queueBase q) 64 = none)
    (hv : s.queueValid q = true) : exec (.queueEnable r) s = .next ((s.enableQueue q).wake.okReply 0x1121 1 r) := by
  subst hq
  have hrange : (s.enableAct r (QueueCtl.queue.get r.value)).range = true := by simp [State.enableAct, hb, hlt]
  have hstate : (s.enableAct r (QueueCtl.queue.get r.value)).state = true := by simp [State.enableAct, hst, hs]
  have hok := State.writeStatus_ok hc hrange hstate hv
  have hdo := State.chartDo_ok hc hrange hstate hv
  unfold State.enableAct at hok hdo
  show execQueueEnable r s = _
  unfold execQueueEnable
  simp only [ha, hok, hdo, Bool.not_true, Bool.false_eq_true, if_false, OfNat.zero_ne_ofNat, false_and, ite_self]

/-- DISABLE of a queue that is ENABLED, or in ERROR, drains it. -/
theorem exec_queueDisable_drains {s : State} {q : Nat} {r : Req} (hq : q = QueueCtl.queue.get r.value) (hc : ChecksPass s 0x1121 1 r) (ha : actionIs r actF 2 = true)
    (hb : onlyBits r.value [QueueCtl.queue, actF] = true) (hlt : q < s.ch Ch.qtableCount) (hst : s.queueState q = Qs.enabled ∨ s.queueState q = Qs.error) :
    exec (.queueDisable r) s = .next (((s.setQ q QueueDesc.state Qs.draining).drainQueue q).wake.okReply 0x1121 1 r) := by
  subst hq
  have hrefused : ¬ (!actionIs r actF 2) = true := by simp [ha]
  show execQueueDisable r s = _
  rw [execQueueDisable, if_neg hrefused]
  exact congrArg _ (State.chartDo_ok hc (by simp [hb, hlt]) (by simpa using hst) rfl)

/-- Settles O14: COMMAND_DISPATCH by the queue whose turn it is, ENABLE and DISABLE by the checks that they pass. -/
theorem queuesServe : Obligations.QueuesServe := by
  intro s q
  exact ⟨fun c hp hw hfree hn hs slot => exec_commandDispatch_copies hp hw hfree hn hs, fun r => exec_queueEnable_opens, fun r => exec_queueDisable_drains⟩

end Sys2Proof.Machine
end

section
/-! PROOFS. STOW, FETCH, RECOMPUTE and MOVE begin their work (O4). -/

namespace Sys2Proof.Machine

/-! ### STOW (R187) -/

/-- The tiles that a STOW names. -/
def State.stowTiles (s : State) (w : Nat) : Nat := s.cmdTiles (cmdGet w CmdStow.stream) (cmdGet w CmdStow.tileFirst) (cmdGet w CmdStow.tileCount)

/-- A STOW before `c` of the stream `n` has been copied and not taken. -/
def State.stowBefore (s : State) (c n : Nat) : Bool :=
  s.dispatched.any (fun e => decide (e.tag < c) && e.stage == .ready && cmdGet e.word Cmd.opcode == Op.stow && cmdGet e.word CmdStow.stream == n)

theorem State.stowBefore_of_all {s : State} {c n : Nat}
    (h : s.dispatched.all (fun e => !(decide (e.tag < c) && e.stage == .ready && cmdGet e.word Cmd.opcode == Op.stow && cmdGet e.word CmdStow.stream == n)) = true) :
    s.stowBefore c n = false := by
  rw [← List.not_any_eq_all_not] at h
  exact (Bool.not_eq_true' _).mp h

theorem State.fillForCmd_filling {s : State} {n : Nat} (h : s.stateOf n = Ss.filling) : s.fillForCmd n = .filling s := if_pos h

/-- A STOW of a stream that is FILLING already, the first of its stream, waits on its channel. -/
theorem exec_stow_begins {c : Nat} {s : State} {d : Dispatched} (h : s.readyCmd c Op.stow = some d) (hn : s.stowTiles d.word ≠ 0)
    (hb : s.stowBefore c (cmdGet d.word CmdStow.stream) = false) (hdrop : s.cls (cmdGet d.word CmdStow.stream) ≠ Cl.drop)
    (hregen : s.cls (cmdGet d.word CmdStow.stream) ≠ Cl.regen) (hst : s.stateOf (cmdGet d.word CmdStow.stream) = Ss.filling) :
    exec (.stow c) s = .next (((s.modAux (cmdGet d.word CmdStow.stream) (fun a => { a with nextTile := max a.nextTile (cmdGet d.word CmdStow.tileFirst + s.stowTiles d.word) })).setStage c
      .underway 0).addItem (cmdGet d.word CmdStow.channel) (.cmd c) (.stow (cmdGet d.word CmdStow.stream) (cmdGet d.word CmdStow.tileFirst) (s.stowTiles d.word)
        (cmdGet d.word CmdStow.source)) (cmdGet d.word Cmd.urgency)) := by
  unfold State.readyCmd at h
  unfold State.stowTiles at hn ⊢
  unfold State.stowBefore at hb
  show execStow c s = _
  unfold execStow
  simp only [h, hn, hb, hdrop, hregen, hst, State.fillForCmd_filling hst, or_self, or_true, decide_true, Bool.not_true, Bool.false_eq_true, if_false, if_true]

/-! ### FETCH (R175, R240) -/

/-- The delivery that a FETCH describes, to memory or to a command ring. -/
def State.fetchConsumer (s : State) (c w : Nat) : Consumer :=
  let k : Consumer := { Consumer.fresh with
    source := .cmd c, stream := cmdGet w CmdFetch.stream, first := cmdGet w CmdFetch.tileFirst,
    count := s.cmdTiles (cmdGet w CmdFetch.stream) (cmdGet w CmdFetch.tileFirst) (cmdGet w CmdFetch.tileCount), look := cmdGet w CmdFetch.lookahead,
    die := cmdGet w CmdFetch.destKind - 1, ring := if cmdGet w CmdFetch.destKind = 0 then none else some (cmdGet w CmdFetch.dest % 65536), dest := cmdGet w CmdFetch.dest,
    transpose := cmdGet w CmdFetch.transpose == 1, drain := cmdGet w CmdFetch.toDrain == 1, entries := lookEntries (cmdGet w CmdFetch.lookahead), channel := cmdGet w CmdFetch.channel }
  { k with granted := !s.queued k }

/-- A command's destination is memory, or a ring that is on. -/
def State.ringReady (s : State) (w : Nat) : Prop := cmdGet w CmdFetch.destKind ≠ 0 → s.ringOn (cmdGet w CmdFetch.destKind - 1) (cmdGet w CmdFetch.dest % 65536) = true

theorem State.ringReady.not_off {s : State} {w : Nat} (h : s.ringReady w) :
    ¬ (cmdGet w CmdFetch.destKind ≠ 0 ∧ (!s.ringOn (cmdGet w CmdFetch.destKind - 1) (cmdGet w CmdFetch.dest % 65536)) = true) :=
  fun hoff => by simp [h hoff.1] at hoff

/-- A FETCH of a stream that can be fetched adds its delivery, which its channel carries. -/
theorem exec_fetch_begins {c : Nat} {s : State} {d : Dispatched} (h : s.readyCmd c Op.fetch = some d)
    (hn : s.cmdTiles (cmdGet d.word CmdFetch.stream) (cmdGet d.word CmdFetch.tileFirst) (cmdGet d.word CmdFetch.tileCount) ≠ 0)
    (hf : s.fetchable (cmdGet d.word CmdFetch.stream) = true) (hr : s.ringReady d.word) :
    exec (.fetch c) s = .next (((s.setStage c .underway 0).addConsumer (s.fetchConsumer c d.word)).addItem (cmdGet d.word CmdFetch.channel) (.cmd c)
      (.fetch s.skerry.nextConsumer) (cmdGet d.word Cmd.urgency)) := by
  unfold State.readyCmd at h
  show execFetch c s = _
  unfold execFetch
  simp only [h, hn, hf, hr.not_off, Bool.not_true, Bool.false_eq_true, if_false]
  rfl

/-! ### RECOMPUTE (R273) -/

/-- The delivery that a RECOMPUTE describes, which its engine makes. -/
def State.recomputeCmdConsumer (s : State) (c w : Nat) : Consumer :=
  { Consumer.fresh with
    entries := s.shoalEntries (cmdGet w CmdFetch.stream) 0, source := .cmd c, stream := cmdGet w CmdFetch.stream, first := cmdGet w CmdFetch.tileFirst,
    count := s.cmdTiles (cmdGet w CmdFetch.stream) (cmdGet w CmdFetch.tileFirst) (cmdGet w CmdFetch.tileCount), die := cmdGet w CmdFetch.destKind - 1,
    ring := if cmdGet w CmdFetch.destKind = 0 then none else some (cmdGet w CmdFetch.dest % 65536), engine := true, dest := cmdGet w CmdFetch.dest,
    transpose := cmdGet w CmdFetch.transpose == 1 }

/-- An engine that is free is in service. -/
theorem State.engineState_of_free {s : State} {e : Nat} (h : s.engineFree e = true) : s.ch (Ch.engineState + 256 * e) = 0 := by
  simp only [State.engineFree, Bool.and_eq_true, beq_iff_eq] at h
  exact h.2

/-- A RECOMPUTE whose engine is free, and whose turn it is there, starts on it. -/
theorem exec_recompute_begins {c : Nat} {s : State} {d : Dispatched} (h : s.readyCmd c Op.recompute = some d)
    (hn : s.cmdTiles (cmdGet d.word CmdFetch.stream) (cmdGet d.word CmdFetch.tileFirst) (cmdGet d.word CmdFetch.tileCount) ≠ 0)
    (hc : s.cls (cmdGet d.word CmdFetch.stream) = Cl.regen) (hf : s.fetchable (cmdGet d.word CmdFetch.stream) = true) (hr : s.ringReady d.word)
    (he : s.engineFree (cmdGet d.word CmdFetch.engine) = true) (hready : s.engineCmdReady d = true) (hturn : s.engineTurn (cmdGet d.word CmdFetch.engine) (cmdGet d.word Cmd.urgency) = true) :
    exec (.recompute c) s = .next ((s.setStage c .underway 0).recomputeStart (cmdGet d.word CmdFetch.engine) (.cmd c) (s.recomputeCmdConsumer c d.word) noRef 0) := by
  unfold State.readyCmd at h
  have hserves : ¬ s.ch (Ch.engineState + 256 * cmdGet d.word CmdFetch.engine) = 2 := by rw [State.engineState_of_free he]; decide
  show execRecompute c s = _
  unfold execRecompute
  simp only [h, hn, hc, hf, hr.not_off, hserves, he, hready, hturn, ne_eq, not_true_eq_false, Bool.not_true, Bool.false_eq_true, or_self, if_false]
  rfl

/-! ### MOVE (R134) -/

theorem exec_move_begins {c : Nat} {s : State} {d : Dispatched} (h : s.readyCmd c Op.move = some d) (hn : cmdGet d.word CmdMove.bytes ≠ 0) :
    exec (.move c) s = .next ((s.setStage c .underway 0).addItem (cmdGet d.word CmdMove.channel) (.cmd c)
      (.built (builtMove (cmdGet d.word CmdMove.src) (cmdGet d.word CmdMove.dst) (cmdGet d.word CmdMove.srcReef == 1) (cmdGet d.word CmdMove.dstReef == 1)
        (cmdGet d.word CmdMove.bytes / 2 ^ 31 + 2) (cmdGet d.word CmdMove.bytes))) (cmdGet d.word Cmd.urgency)) := by
  unfold State.readyCmd at h
  show execMove c s = _
  simp only [execMove, h, hn, if_false]

/-- Settles O4: a STOW and a MOVE through the item they queue, a FETCH and a RECOMPUTE through the delivery they describe. -/
theorem transferCommandsBegin : Obligations.TransferCommandsBegin := by
  intro c s d
  refine ⟨fun h hn hall hdrop hregen hst => exec_stow_begins h hn (State.stowBefore_of_all hall) hdrop hregen hst, fun h hn hf hr => ?_,
    fun h hn hc hf hr he hready hturn => ?_, exec_move_begins⟩
  · exact ⟨s.fetchConsumer c d.word, rfl, rfl, rfl, rfl, rfl, rfl, rfl, rfl, rfl, exec_fetch_begins h hn hf hr⟩
  · exact ⟨s.recomputeCmdConsumer c d.word, rfl, rfl, rfl, rfl, rfl, exec_recompute_begins h hn hc hf hr he hready hturn⟩

end Sys2Proof.Machine
end

section
/-! PROOFS. Restore sets taken, copied, restored, adopted and dropped; DIGEST and COMPARE (O11). -/

namespace Sys2Proof.Machine

/-! ### Reads of a command that has no channel -/

/-- Nothing holds up a read of bytes whose region is not FILLING and whose sectors are sound. -/
theorem State.readEnds_none {s : State} {d : Dispatched} {a n : Nat} (hf : s.filling a n = false) (hs : s.failing a n = none) : s.readEnds d .ok a n = none := by
  simp only [State.readEnds, hf, hs, Bool.false_eq_true, if_false, ne_eq, not_true_eq_false]

/-- A command that its executor may take is dispatched, and READY. -/
theorem State.cmd_of_readyCmd {s : State} {c op : Nat} {d : Dispatched} (h : s.readyCmd c op = some d) : s.cmd c op = some d ∧ d.stage = .ready := by
  obtain ⟨hcmd, hstage⟩ := Option.filter_eq_some_iff.mp h
  exact ⟨hcmd, beq_iff_eq.mp hstage⟩

/-! ### SNAPSHOT and the copy of a page (R363 to R366) -/

/-- A SNAPSHOT whose set passes its checks captures it, and the set keeps the command that it ends. -/
theorem exec_snapshot_captures {c k base : Nat} {s : State} {d : Dispatched} (h : s.readyCmd c Op.snapshot = some d) (hk : k = cmdGet d.word CmdSet.set)
    (hbase : base = (if cmdGet d.word CmdSet.descriptor = 0 then s.stf k SetRec.descAddr else cmdGet d.word CmdSet.descriptor))
    (hfill : s.filling base (64 + 32 * min (s.fld base SetDesc.itemCount) 2040) = false) (hset : s.SetPasses k base (s.cmdContext d) (cmdGet d.word CmdSet.setKind)) :
    exec (.snapshot c .ok) s = .next (((s.setStage c .underway 0).modSet k (fun z => { z with cmd := some c })).capture k base (s.cmdContext d) (cmdGet d.word CmdSet.setKind)) := by
  obtain ⟨htable, hregion, hsound, hfault⟩ := hset
  unfold State.readyCmd at h
  subst hk
  show execSnapshot c .ok s = _
  unfold execSnapshot
  simp only [h, ← hbase, Nat.not_le.mpr htable, hregion, State.readEnds_none hfill hsound, hfault, Bool.not_true, Bool.false_eq_true, if_false]

/-- The first of a TAKING set's pages is the next that is copied. -/
theorem exec_pageCopyComplete_copies {k p : Nat} {rest : List Nat} {s : State} (hst : s.stf k SetRec.state = Sst.taking) (hk : k < s.ch Ch.setsCount)
    (hp : (s.setAt k).pages = p :: rest) : exec (.pageCopyComplete k) s = .next (s.copyPage k p) := by
  show execPageCopyComplete k s = _
  unfold execPageCopyComplete
  simp only [hst, Nat.not_le.mpr hk, hp, ne_eq, not_true_eq_false, or_self, if_false]

/-! ### RESTORE (R368) -/

/-- The state in which a set is being restored. -/
def State.setRestoring (s : State) (k : Nat) : State := s.setStf k SetRec.state Sst.restoring

/-- RESTORE of a COMPLETE set of its own context, whose copy lies in the Harbour and can be read. -/
theorem exec_restore_restores {c k base n : Nat} {s : State} {d : Dispatched} (h : s.readyCmd c Op.restore = some d) (hk : k = cmdGet d.word CmdSet.set)
    (hbase : base = s.stf k SetRec.destBase) (hn : n = s.stf k SetRec.copyBytes) (htable : k < s.ch Ch.setsCount) (hst : s.stf k SetRec.state = Sst.complete)
    (hctx : s.stf k SetRec.context = s.cmdContext d) (hkind : cmdGet d.word CmdSet.setKind = 1 → s.stf k SetRec.kind ≠ 0) (hload : s.ch Ch.planState ≠ Pl.loading)
    (hrun : s.ch Ch.planState ≠ Pl.running) (hdest : (s.setRestoring k).stf k SetRec.destKind = 0) (hsound : (s.setRestoring k).failing base n = none) :
    exec (.restore c .ok) s = .next ((s.setRestoring k).restoreWith d k ((s.setRestoring k).rd base n)) := by
  obtain ⟨hcmd, hstage⟩ := State.cmd_of_readyCmd h
  have hitems : ¬ (cmdGet d.word CmdSet.setKind = 1 ∧ s.stf k SetRec.kind = 0) := fun hw => hkind hw.1 hw.2
  subst hk hbase hn
  unfold State.setRestoring at *
  show execRestore c .ok s = _
  unfold execRestore
  simp only [hcmd, hstage, hitems, Nat.not_le.mpr htable, hst, hctx, hload, hrun, hdest, hsound, ne_eq, not_true_eq_false, and_true, and_false, or_self, if_false, if_true, reduceCtorEq]

/-! ### DIGEST and COMPARE (R358, R359) -/

/-- DIGEST writes the root of bytes that may be read where it may be written. -/
theorem exec_digest_writes {c a n : Nat} {s : State} {d : Dispatched} (h : s.readyCmd c Op.digest = some d) (ha : a = cmdGet d.word CmdDigest.base) (hb : n = cmdGet d.word CmdDigest.bytes)
    (hn : n ≠ 0) (hin : s.firstOutside a n = none) (hout : s.firstOutside (cmdGet d.word CmdDigest.result) 32 = none) (hoff : s.offending (cmdGet d.word CmdDigest.result) 32 true = none)
    (hf : s.filling a n = false) (hs : s.failing a n = none) (hm : s.mergeFails (cmdGet d.word CmdDigest.result) 32 = none) :
    exec (.digest c .ok) s = .next (((s.put (cmdGet d.word CmdDigest.result) (s.digestOf a n)).digestRuns a n).endCmd d St.success 0) := by
  unfold State.readyCmd at h
  subst ha hb
  show execDigest c .ok s = _
  unfold execDigest
  simp only [h, hn, hin, hout, hoff, State.readEnds_none hf hs, hm, Option.orElse_none, if_false]

/-- COMPARE of bytes ends with the first that differs. -/
theorem exec_compare_ends {c n : Nat} {s : State} {d : Dispatched} (h : s.readyCmd c Op.compare = some d) (hb : n = cmdGet d.word CmdCompare.bytes) (hn : n ≠ 0)
    (hmode : cmdGet d.word CmdCompare.mode ≠ 1) (hfa : s.filling (cmdGet d.word CmdCompare.a) n = false) (hfb : s.filling (cmdGet d.word CmdCompare.b) n = false)
    (hsa : s.failing (cmdGet d.word CmdCompare.a) n = none) (hsb : s.failing (cmdGet d.word CmdCompare.b) n = none) :
    exec (.compare c .ok) s = .next ((firstDifference (s.rd (cmdGet d.word CmdCompare.a) n) (s.rd (cmdGet d.word CmdCompare.b) n)).elim
      (s.endCmd d St.success 0) (s.endCmd d St.mismatch)) := by
  unfold State.readyCmd at h
  subst hb
  show execCompare c .ok s = _
  unfold execCompare
  simp only [h, hn, hmode, State.readEnds_none hfa hsa, State.readEnds_none hfb hsb, if_false]
  cases firstDifference (s.rd (cmdGet d.word CmdCompare.a) (cmdGet d.word CmdCompare.bytes)) (s.rd (cmdGet d.word CmdCompare.b) (cmdGet d.word CmdCompare.bytes)) <;> rfl

/-! ### DROP and SET_ADOPT (R370) -/

/-- DROP of a set that is COMPLETE or BROKEN empties it, and the generations that it held may go. -/
theorem exec_drop_empties {k : Nat} {s : State} {r : Req} (hk : k = Fld.get ⟨43, 32⟩ r.value) (hc : ChecksPass s 0x8000 5 r) (ha : actionIs r actF 1 = true)
    (hb : onlyBits r.value [⟨43, 32⟩, actF] = true) (hlt : k < s.ch Ch.setsCount) (hst : s.stf k SetRec.state = Sst.complete ∨ s.stf k SetRec.state = Sst.broken) :
    exec (.drop r) s = .next ((((s.setStf k SetRec.state Sst.empty).modSet k (fun z => { z with gens := [] })).settleGens).okReply 0x8000 5 r) := by
  subst hk
  have hact : ¬ (!actionIs r actF 1) = true := by simp [ha]
  show execDrop r s = _
  rw [execDrop, if_neg hact]
  exact congrArg _ (State.chartDo_ok hc (by simp [hb, hlt]) (by simpa using hst) rfl)

/-- SET_ADOPT of a copy in the Harbour whose first page is that of a set, and whose bytes can be read, adopts it. -/
theorem exec_setAdopt_adopts {k base root n : Nat} {s t : State} {r : Req} (hk : k = r.value % 2 ^ 32) (hbase : base = Fld.get ⟨127, 64⟩ r.value) (hroot : root = Fld.get ⟨383, 128⟩ r.value)
    (hc : ChecksPass s 0x8000 4 r) (hdest : Fld.get ⟨39, 32⟩ r.value = 0) (hrsvd : Fld.get ⟨63, 40⟩ r.value = 0) (halign : base % 65536 = 0) (htable : k < s.ch Ch.setsCount)
    (hst : s.stf k SetRec.state = Sst.empty ∨ s.stf k SetRec.state = Sst.broken) (hlow : base < 2 ^ 52) (hsound : s.failing base 65536 = none) (hin : s.firstOutside base 65536 = none)
    (hadopt : adoptable (s.rd base 65536) = true) (hn : n = SetRec.copyBytes.get (s.rdNat base 128)) (ht : t = s.adoptBegins k 0 base root 0 (s.rd base 65536))
    (hsoundT : t.failing base n = none) (hinT : t.firstOutside base n = none) :
    exec (.setAdopt r .ok) s = .next ((t.adoptWith k (t.rd base n)).okReply 0x8000 4 r) := by
  subst hk hbase hroot hn ht
  show execSetAdopt r .ok s = _
  unfold execSetAdopt
  simp only [hdest, hsound, hin, if_true]
  refine congrArg _ ((State.chartDo_ok hc ?_ ?_ rfl).trans ?_)
  · simp only [halign, hlow, hrsvd, htable, Nat.zero_le, decide_true, beq_self_eq_true, Bool.and_self]
  · simpa [hadopt] using hst
  · simp only [hsoundT, hinT, OfNat.zero_ne_ofNat, ne_eq, not_true_eq_false, Option.isSome_none, Bool.false_eq_true, or_self, if_false]

/-- Settles O11: each row by the checks that it passes; SNAPSHOT by those of `State.SetPasses`, COMPARE by whether a byte differs. -/
theorem setCommandsComplete : Obligations.SetCommandsComplete := by
  intro c k base n s d
  refine ⟨fun h hk hbase htable hregion hfill hsound hfault => exec_snapshot_captures h hk hbase hfill ⟨htable, hregion, hsound, hfault⟩, exec_restore_restores,
    exec_digest_writes, fun h hb hn hmode hfa hfb hsa hsb => ?_, fun p rest => exec_pageCopyComplete_copies, fun r root t => exec_setAdopt_adopts, fun r => exec_drop_empties⟩
  rw [exec_compare_ends h hb hn hmode hfa hfb hsa hsb]
  cases firstDifference (s.rd (cmdGet d.word CmdCompare.a) n) (s.rd (cmdGet d.word CmdCompare.b) n) <;> rfl

end Sys2Proof.Machine
end

section
/-! PROOFS. CHANNEL_CONTROL in each of its actions, and ARM (O15). -/

namespace Sys2Proof.Machine

/-! ### The checks that the actions share (R150, R483) -/

/-- Action `a` of CHANNEL_CONTROL on channel `c`, as far as the entry checks it whatever the state of the channel. -/
structure ChannelAction (s : State) (r : Req) (c a : Nat) : Prop where
  channel : c = ChanCtl.channel.get r.value
  checks : ChecksPass s 0x5001 0 r
  bits : onlyBits r.value [ChanCtl.channel, actF] = true
  inTable : c < s.ch Ch.chtableCount
  action : actionIs r actF a = true

/-- An action that the channel's state and parameters permit has its effect, and wakes the domains. -/
theorem channelDo_acts {s : State} {r : Req} {c a : Nat} (h : ChannelAction s r c a) {states params : State → Nat → Bool} (effect : Nat → State → State)
    (hst : states s c = true) (hp : params s c = true) : channelDo a states params effect r s = (effect c s).wake.okReply 0x5001 0 r := by
  obtain ⟨rfl, hc, hb, hlt, ha⟩ := h
  have hact : ¬ (!actionIs r actF a) = true := by simp [ha]
  rw [channelDo, if_neg hact]
  exact State.chartDo_ok hc (by simp [hb, hlt]) hst hp

theorem State.chanIs_iff (s : State) (c : Nat) (l : List Nat) : s.chanIs c l = true ↔ s.chf c ChanRec.state ∈ l := List.contains_iff_mem

/-! ### Each action in a state that it acts on -/

/-- A channel as ENABLE leaves it: without credits, IDLE, or READY for what was armed before (R150, R165). -/
def State.enableChannel (s : State) (c : Nat) : State :=
  if (s.itemsOf c).isEmpty then s.setFlds (s.chan c) [(ChanRec.credits, 0), (ChanRec.state, Cn.idle)]
  else (s.headReady c).setFlds (s.chan c) [(ChanRec.credits, 0), (ChanRec.state, Cn.ready)]

theorem exec_channelEnable_enables {s : State} {r : Req} {c : Nat} (h : ChannelAction s r c 1) (hst : s.chf c ChanRec.state = Cn.disabled) (hs : s.failing (s.chan c) 64 = none)
    (hctx : s.contextExists (ChanRec.context.get (s.rdNat (s.chan c) 64)) = true) (hz : ∀ f ∈ ChanRec.rsvd ++ ChanRec.cFields, f.get (s.rdNat (s.chan c) 64) = 0) :
    exec (.channelEnable r) s = .next ((s.enableChannel c).wake.okReply 0x5001 0 r) := by
  have hoff : s.chanIs c [Cn.disabled] = true := (s.chanIs_iff c _).mpr (by simp [hst])
  have hzero : (ChanRec.rsvd ++ ChanRec.cFields).all (fun f => f.get (s.rdNat (s.chan c) 64) == 0) = true := List.all_eq_true.mpr (fun f hf => by simp [hz f hf])
  exact congrArg _ (channelDo_acts h _ (by simp [hoff, hs]) (by simp only [hctx, hzero, Bool.and_self]))

theorem exec_channelDisable_disables {s : State} {r : Req} {c : Nat} (h : ChannelAction s r c 2) (hst : s.chf c ChanRec.state = Cn.idle) (hplan : s.planUsesChannel c = false) :
    exec (.channelDisable r) s = .next ((s.setChf c ChanRec.state Cn.disabled).wake.okReply 0x5001 0 r) := by
  have hidle : s.chanIs c [Cn.idle] = true := (s.chanIs_iff c _).mpr (by simp [hst])
  exact congrArg _ (channelDo_acts h _ (by simp [hidle, hplan]) rfl)

/-- STOP of a RUNNING channel brings it to a boundary, and leaves it STOPPING until what it has issued is back (R164). -/
theorem exec_channelStop_running {s : State} {r : Req} {c : Nat} (h : ChannelAction s r c 3) (hst : s.chf c ChanRec.state = Cn.running) :
    exec (.channelStop r) s = .next (((s.rollBack c).setChf c ChanRec.state Cn.stopping).wake.okReply 0x5001 0 r) := by
  refine congrArg _ ((channelDo_acts h _ ((s.chanIs_iff c _).mpr (by simp [hst])) rfl).trans ?_)
  rw [if_pos hst]

/-- STOP of a READY channel, whose item no lane has begun, stops it at once (R164). -/
theorem exec_channelStop_ready {s : State} {r : Req} {c : Nat} (h : ChannelAction s r c 3) (hst : s.chf c ChanRec.state = Cn.ready) :
    exec (.channelStop r) s = .next ((s.setFlds (s.chan c) [(ChanRec.state, Cn.stopped), (ChanRec.curDesc, ((s.headItem c).map firstDesc).getD 0)]).wake.okReply 0x5001 0 r) := by
  have hrun : s.chf c ChanRec.state ≠ Cn.running := by simp [hst]
  refine congrArg _ ((channelDo_acts h _ ((s.chanIs_iff c _).mpr (by simp [hst])) rfl).trans ?_)
  rw [if_neg hrun]
  cases s.headItem c <;> rfl

theorem exec_channelResume_resumes {s : State} {r : Req} {c : Nat} (h : ChannelAction s r c 4) (hst : s.chf c ChanRec.state = Cn.stopped ∨ s.chf c ChanRec.state = Cn.halted) :
    exec (.channelResume r) s = .next ((s.resumeChannel c).wake.okReply 0x5001 0 r) :=
  congrArg _ (channelDo_acts h _ ((s.chanIs_iff c _).mpr (by simpa using hst)) rfl)

theorem exec_channelReset_clears {s : State} {r : Req} {c : Nat} (h : ChannelAction s r c 5) (hst : s.chf c ChanRec.state = Cn.stopped ∨ s.chf c ChanRec.state = Cn.halted) :
    exec (.channelReset r) s = .next (((s.clearChannel c St.groupAborted St.flushed).setFlds (s.chan c) [(ChanRec.state, Cn.idle), (ChanRec.haltCause, 0)]).wake.okReply 0x5001 0 r) :=
  congrArg _ (channelDo_acts h _ ((s.chanIs_iff c _).mpr (by simpa using hst)) rfl)

theorem exec_clearFlags_clears {s : State} {r : Req} {c : Nat} (h : ChannelAction s r c 6) (hst : s.chf c ChanRec.state ≠ Cn.disabled) :
    exec (.clearFlags r) s = .next ((s.setFlds (s.chan c) [(ChanRec.rearmOverrun, 0), (ChanRec.creditOverflow, 0), (ChanRec.retried, 0)]).wake.okReply 0x5001 0 r) := by
  have hon : s.chanIs c [Cn.disabled] = false := by simpa [← Bool.not_eq_true, s.chanIs_iff] using hst
  exact congrArg _ (channelDo_acts h _ (by simp [hon]) rfl)

/-- ARM joins in every state of the channel but HALTED (R165). -/
theorem exec_arm_arms {s : State} {r : Req} {k : Nat} (hk : k = s.selected r.path Ch.armChannel) (hc : ChecksPass s 0x5002 2 r) (halign : r.value % 64 = 0)
    (hin : inHarbour r.value = true) (hlt : k < s.ch Ch.chtableCount) (hst : s.chf k ChanRec.state ≠ Cn.halted) :
    exec (.arm r) s = .next ((s.arm k r.value).wake.okReply 0x5002 2 r) := by
  subst hk
  have hlive : s.chanIs (s.selected r.path Ch.armChannel) [Cn.halted] = false := by simpa [← Bool.not_eq_true, s.chanIs_iff] using hst
  exact congrArg _ (State.chartDo_ok hc (by simp [halign, hin, hlt]) (by simp [hlive]) rfl)

/-- Settles O15: each action by the states of the channel that it acts on; STOP by whether a lane has begun the item. -/
theorem channelControlsComplete : Obligations.ChannelControlsComplete := by
  intro s r c hch
  refine ⟨fun hc hb hlt => ?_, fun k => exec_arm_arms⟩
  have act : ∀ {a : Nat}, actionIs r actF a = true → ChannelAction s r c a := fun ha => ⟨hch, hc, hb, hlt, ha⟩
  refine ⟨fun ha => exec_channelEnable_enables (act ha), fun ha => exec_channelDisable_disables (act ha), fun ha => exec_channelStop_running (act ha), fun ha hst => ?_,
    fun ha => exec_channelResume_resumes (act ha), fun ha => exec_channelReset_clears (act ha), fun ha => exec_clearFlags_clears (act ha)⟩
  rw [exec_channelStop_ready (act ha) hst]
  cases s.headItem c <;> rfl

end Sys2Proof.Machine
end

section
/-! PROOFS. The Ferries' lanes at work, and the weight feeds of the Quays (O16). -/

namespace Sys2Proof.Machine

/-! ### A lane takes an item (R144, R176) -/

/-- Lane `l` begins item `i`; CUR_DESC names the descriptor in memory that it comes to first. -/
def State.beginItem (s : State) (l : Nat) (i : WorkItem) : State :=
  match s.firstNext i with
  | .at a => (s.runItem l i (.at a)).setChf i.channel ChanRec.curDesc a
  | n => s.runItem l i n

/-- A free lane begins its next item where the staging slots that it needs are free. -/
theorem State.laneTakes_begins {s : State} {l : Nat} {i : WorkItem} (hl : s.lane l = none) (hlt : l < 256) (hn : s.nextItem l = some i)
    (hslots : s.slotsReserved + s.slotsFor i ≤ s.ch Ch.stageSlots) : s.laneTakes l = State.settleLane 64 (s.beginItem l i) l := by
  have hfree : ¬ (256 ≤ l ∨ (s.lane l).isSome = true) := by simp [hl, hlt]
  rw [State.laneTakes, if_neg hfree, hn]
  refine (if_neg (Nat.not_lt.mpr hslots)).trans ?_
  unfold State.beginItem
  cases s.firstNext i <;> rfl

theorem exec_laneTakesItem_begins {s : State} {l : Nat} {i : WorkItem} {m : MemResult} (hl : s.lane l = none) (hlt : l < 256) (hn : s.nextItem l = some i) (hm : i.messages = false)
    (hslots : s.slotsReserved + s.slotsFor i ≤ s.ch Ch.stageSlots) : exec (.laneTakesItem ⟨l, m⟩) s = .next (State.settleLane 64 (s.beginItem l i) l) := by
  rw [← State.laneTakes_begins hl hlt hn hslots]
  show execLaneTakesItem ⟨l, m⟩ s = _
  unfold execLaneTakesItem
  simp only [hl, hlt, if_true, hn]
  unfold WorkItem.messages at hm
  split
  · next x hw => simp [hw] at hm
  · next c hw => simp [hw] at hm
  · rfl

/-! ### Requests and descriptors (R146, R147) -/

theorem exec_requestSlotGrant_request {s : State} {l q : Nat} {w : Bool} {r : LaneRun} {i : WorkItem} {m : MemResult} (hr : s.lane l = some r) (hf : r.failing = none)
    (hi : s.item r.item = some i) (hn : s.nextRequest l r = some (q, w)) : exec (.requestSlotGrant ⟨.lane l, m⟩) s = .next (s.issueRequest l r q w) := by
  show Host.Outcome.next (s.laneIssues l m) = _
  simp [State.laneIssues, hr, hf, hi, hn]

theorem exec_requestSlotGrant_descriptor {s : State} {l : Nat} {r : LaneRun} {i : WorkItem} {m : MemResult} (hr : s.lane l = some r) (hf : r.failing = none)
    (hi : s.item r.item = some i) (hn : s.nextRequest l r = none) : exec (.requestSlotGrant ⟨.lane l, m⟩) s = .next (State.settleLane 64 (s.nextDescriptor l r i m) l) := by
  show Host.Outcome.next (s.laneIssues l m) = _
  simp [State.laneIssues, hr, hf, hi, hn]

/-- The place of piece `p` of the weights that delivery `k` reads (R180). -/
def State.weightAddr (s : State) (k : Consumer) (p : Nat) : Nat := s.slotBase k.stream k.version + 4096 * k.first + 256 * p

/-- The read of piece `p` of delivery `k` by the Quay of die `d`. -/
def State.weightRead (s : State) (d : Nat) (k : Consumer) (p : Nat) : Request := ⟨s.ferry.nextReq, 256 + d, k.id, false, s.weightAddr k p, 256, p, 0, false, [], false⟩

/-- A Quay whose feed needs its next piece, and that has a slot of the pool, reads it; the tile is not asked for whole before its last piece. -/
theorem exec_requestSlotGrant_weights {s : State} {d p : Nat} {c k : Consumer} {m : MemResult} (hc : s.skerry.consumers.find? (fun c => c.shard && c.die == d && decide (c.asked < c.count)) = some c)
    (hskip : s.skips c c.asked = false) (hk : s.weightPiece d = some (k, p)) (hroom : s.poolRoom (256 + d) false = true) (hturn : s.mustWait (.quay d) false = false)
    (hfill : s.filling (s.weightAddr k p) 256 = false) (hp : p % 16 ≠ 15) :
    exec (.requestSlotGrant ⟨.quay d, m⟩) s = .next ((s.leaveWait (.quay d)).sendRequest (s.weightRead d k p)) := by
  unfold State.weightAddr at hfill
  show Host.Outcome.next (s.quayIssues d) = _
  unfold State.quayIssues
  simp only [hc, hskip, hk, hroom, hturn, hfill, hp, Bool.not_true, Bool.or_self, Bool.false_eq_true, if_false]
  rfl

/-! ### Timers (R159) -/

/-- The lanes after a tick of timer `t`: those are let go whose next descriptor waits on it, with all before it issued. -/
def State.tickedLanes (s : State) (t : Nat) : SMap LaneRun :=
  s.ferry.lanes.map (fun e => if s.nextPace e.2 = some (1, t) ∧ e.2.allIssued then (e.1, { e.2 with ticked := true }) else e)

theorem exec_pacingTick_ticks {s : State} {t : Nat} (ht : t < 16) (hp : s.ch (Ch.timerPeriod + t) ≠ 0) :
    exec (.pacingTick t) s = .next { s with ferry := { s.ferry with lanes := s.tickedLanes t } } := by
  have hruns : ¬ (16 ≤ t ∨ s.ch (Ch.timerPeriod + t) = 0) := by simp [ht, hp]
  exact if_neg hruns

/-! ### Responses (R161, R162) -/

/-- What a response of each status does to the lane `r` whose request `q` it answers. -/
def State.laneAnswer (s : State) (q : Request) (r : LaneRun) : RespStatus → State
  | .ok => s.goodResponse q r
  | .busError => s.busResponse q r
  | .pageFault => (s.returned q).laneFails q.lane St.pageFault 0 q.addr q.desc (r.wordOf q.desc) q.lin
  | .reefLost => (s.returned q).laneFails q.lane St.reefLost 0 q.addr q.desc (r.wordOf q.desc) q.lin

/-- A response to a lane is taken, unless it is good and the port still moves the request's sectors. -/
theorem exec_requestResponse_answers {s : State} {tag : Nat} {status : RespStatus} {q : Request} {r : LaneRun} (hq : s.request tag = some q) (hlane : q.lane < 256)
    (hr : s.lane q.lane = some r) (hport : s.onLink q = false ∨ status ≠ .ok) :
    exec (.requestResponse tag status) s = .next (((s.laneAnswer q r status).afterResponse q.lane).closeRegions) := by
  have htaken : ¬ (s.onLink q = true ∧ status = .ok) := by simpa [imp_iff_not_or] using hport
  show Host.Outcome.next (s.respond tag status).closeRegions = _
  unfold State.respond
  simp only [hq, htaken, Nat.not_le.mpr hlane, hr, if_false]
  cases status <;> rfl

/-! ### Boundaries (R164, R165) -/

theorem exec_shadowTakeover_takes {s : State} {c l : Nat} {i : WorkItem} {r : LaneRun} (hi : s.headItem c = some i) (hl : s.laneOf c = some (l, r)) (harmed : i.armedChain = true)
    (hst : s.chf c ChanRec.state = Cn.running) (hv : s.chf c ChanRec.shadowValid ≠ 0) (hd : r.issued = []) (hf : r.failing = none) :
    exec (.shadowTakeover c) s = .next ((s.setFlds (s.chan c) [(ChanRec.shadowValid, 0), (ChanRec.curDesc, s.chf c ChanRec.shadow)]).modLane l
      (fun r => { r with next := if s.chf c ChanRec.shadow = 0 then .done else .at (s.chf c ChanRec.shadow), ticked := false })) := by
  show execShadowTakeover c s = _
  unfold execShadowTakeover
  simp [hi, hl, harmed, hst, hv, hd, hf]

/-- A STOPPING channel with nothing outstanding keeps the place that its item has come to, and gives its lane up. -/
theorem exec_channelStopped_stops {s : State} {c l a : Nat} {i : WorkItem} {r : LaneRun} (hi : s.headItem c = some i) (hl : s.laneOf c = some (l, r))
    (hst : s.chf c ChanRec.state = Cn.stopping) (hd : r.issued = []) (hf : r.failing = none) (hm : i.messages = false) (ha : r.next = .at a) :
    exec (.channelStopped c) s =
      .next ((((s.modItem i.id (fun i => { i with rest := some r.next })).setChf c ChanRec.curDesc a).setChf c ChanRec.state Cn.stopped).idleLane l) := by
  show execChannelStopped c s = _
  unfold execChannelStopped
  simp [hi, hl, hst, hd, hf, hm, ha]

/-- Settles O16: each row by what it asks of the lane or the Quay; a response by its status. -/
theorem ferriesWork : Obligations.FerriesWork := by
  intro s l
  refine ⟨fun i m hl hlt hn hm hslots => ?_, fun r i q w m => exec_requestSlotGrant_request, fun r i m => exec_requestSlotGrant_descriptor,
    fun d c k p hc hskip hk hroom hturn hfill hp m => exec_requestSlotGrant_weights hc hskip hk hroom hturn hfill hp,
    fun t ht hp => ⟨_, exec_pacingTick_ticks ht hp, rfl, rfl, rfl, rfl⟩, fun tag q r hq hlane hr => ?_, fun c i r => exec_shadowTakeover_takes, fun c i r a => exec_channelStopped_stops⟩
  · rw [exec_laneTakesItem_begins hl hlt hn hm hslots]
    unfold State.beginItem
    cases s.firstNext i <;> rfl
  · have answers : ∀ status, s.onLink q = false ∨ status ≠ .ok →
        exec (.requestResponse tag status) s = .next (((s.laneAnswer q r status).afterResponse q.lane).closeRegions) := fun _ => exec_requestResponse_answers hq hlane hr
    exact ⟨fun hport => answers .ok (.inl hport), answers .busError (.inr (by decide)), answers .pageFault (.inr (by decide)), answers .reefLost (.inr (by decide))⟩

end Sys2Proof.Machine
end

section
/-! PROOFS. Rings and their handles, the gradient drain, the expansion of tiles, reservations (O17). -/

namespace Sys2Proof.Machine

/-! ### ENABLE and DISABLE of a ring (R169) -/

/-- Action `a` of RING_CONTROL on ring `q` of die `d`, as far as the entry checks it whatever the state of the ring. -/
structure RingAction (s : State) (r : Req) (d q a : Nat) : Prop where
  die : d = RingCtl.die.get r.value
  ring : q = RingCtl.ring.get r.value
  checks : ChecksPass s 0x5042 0 r
  bits : onlyBits r.value [RingCtl.die, RingCtl.ring, actF] = true
  inTable : q < s.ringCount d
  action : actionIs r actF a = true

theorem exec_ringEnable_enables {s : State} {r : Req} {d q : Nat} (h : RingAction s r d q 1) (hst : s.rgf d q RingRec.state = 0)
    (hcw : s.cwState d = Cw.up ∨ s.cwState d = Cw.sleep) (hv : s.ringValid d q = true) :
    exec (.ringEnable r) s =
      .next ((s.setFlds (s.ringBase d q) [(RingRec.idx0, 0), (RingRec.idx1, 0), (RingRec.idx2, 0), (RingRec.idx3, 0), (RingRec.state, 1)]).okReply 0x5042 0 r) := by
  obtain ⟨rfl, rfl, hc, hb, hlt, ha⟩ := h
  have hact : ¬ (!actionIs r actF 1) = true := by simp [ha]
  show execRingEnable r s = _
  rw [execRingEnable, if_neg hact]
  exact congrArg _ (State.chartDo_ok hc (by simp [hb, hlt]) (by simpa [hst] using hcw) hv)

/-- DISABLE closes a ring of which no handle is held and that no loaded plan can name. -/
theorem exec_ringDisable_closes {s : State} {r : Req} {d q : Nat} (h : RingAction s r d q 2) (hst : s.rgf d q RingRec.state = 1)
    (hidx : ∀ i, i < s.stages d q → s.idx d q i = s.idx d q 0) (hplan : q < 5 → s.planLoaded = false) :
    exec (.ringDisable r) s = .next ((s.closeRing d q).okReply 0x5042 0 r) := by
  have hpassed : (List.range (s.stages d q)).all (fun i => s.idx d q i == s.idx d q 0) = true := List.all_eq_true.mpr (fun i hi => by simp [hidx i (List.mem_range.mp hi)])
  have hfree : (decide (q < 5) && s.planLoaded) = false := by simpa using hplan
  obtain ⟨rfl, rfl, hc, hb, hlt, ha⟩ := h
  have hact : ¬ (!actionIs r actF 2) = true := by simp [ha]
  show execRingDisable r s = _
  rw [execRingDisable, if_neg hact]
  exact congrArg _ (State.chartDo_ok hc (by simp [hb, hlt]) (by simp [hst, hpassed, hfree]) rfl)

/-! ### HANDLE_PASS (R170, R179) -/

/-- Stage `i` of a ring holds its handle back: it is the drain's, and a factor that the handle covers is still to be presented. -/
def State.drainHolds (s : State) (d q i : Nat) : Bool :=
  s.rgf d q (agentFld i) == Ag.drain && i == 1 &&
    (match s.tagOf d q (s.idx d q i), s.skerry.consumers.find? (fun c => c.die == d && c.ring == some q && c.drain) with
      | some t, some c => !s.handleShown d c t
      | _, _ => false)

theorem State.drainHolds_of_shown {s : State} {d q i : Nat} (h : ∀ t c, s.rgf d q (agentFld i) = Ag.drain → i = 1 → s.tagOf d q (s.idx d q i) = some t →
    s.skerry.consumers.find? (fun c => c.die == d && c.ring == some q && c.drain) = some c → s.handleShown d c t = true) : s.drainHolds d q i = false := by
  unfold State.drainHolds
  by_cases hdrain : s.rgf d q (agentFld i) = Ag.drain ∧ i = 1
  · obtain ⟨hagent, hi⟩ := hdrain
    split
    · next t c ht hc => simp [h t c hagent hi ht hc]
    · simp
  · have hother : (s.rgf d q (agentFld i) == Ag.drain && i == 1) = false := by simpa using hdrain
    rw [hother, Bool.false_and]

/-- Stage `i` passes its handle, which stage 1 thereby takes from its delivery (R175). -/
def State.passHandle (s : State) (d q i : Nat) : State :=
  match s.tagOf d q (s.idx d q i) with
  | some t => if i = 1 then (s.passStage d q i).consume d q t else s.passStage d q i
  | none => s.passStage d q i

section
variable {s : State} {d q i : Nat} {tag : HandleTag} {data : List Byte}
  (hd : d < 2) (hon : s.ringOn d q = true) (hi : i < s.stages d q) (hagent : s.rgf d q (agentFld i) = Ag.matrix ∨ s.rgf d q (agentFld i) = Ag.drain)
include hd hon hi hagent

/-- A stage that MATRIX or DRAIN serves goes by its place: the first fills a handle, a later one passes what it holds. -/
theorem execHandlePass_eq : execHandlePass d q i tag data s =
    if i = 0 then .next (s.matrixFills d tag data) else if !s.canTake d q i then .next s else if s.drainHolds d q i then .next s else .next ((s.passHandle d q i).deliverAll d) := by
  have hstage : ¬ (2 ≤ d ∨ (!s.ringOn d q) = true ∨ s.stages d q ≤ i) := by simp [hd, hon, hi]
  have hserved : ¬ (s.rgf d q (agentFld i) ≠ Ag.matrix ∧ s.rgf d q (agentFld i) ≠ Ag.drain) := by simpa [imp_iff_not_or] using hagent
  rw [execHandlePass, if_neg hstage]
  exact if_neg hserved

theorem exec_handlePass_fills (h0 : i = 0) : exec (.handlePass d q i tag data) s = .next (s.matrixFills d tag data) :=
  (execHandlePass_eq hd hon hi hagent).trans (if_pos h0)

theorem exec_handlePass_passes (h0 : i ≠ 0) (htake : s.canTake d q i = true) (hshown : s.drainHolds d q i = false) :
    exec (.handlePass d q i tag data) s = .next ((s.passHandle d q i).deliverAll d) := by
  refine (execHandlePass_eq hd hon hi hagent).trans ?_
  simp [h0, htake, hshown]

end

/-! ### The gradient drain (R179, R271) -/

theorem exec_drainRequest_waits {s : State} {d t form param : Nat} {c : Consumer} (hc : s.drainConsumer d = some c) (ht : t < s.drainTiles c.stream)
    (hnew : ∀ w ∈ (s.quay d).drainWait, w.1 ≠ t) :
    exec (.drainRequest d t form param) s = .next ((s.modQuay d (fun y => { y with drainWait := y.drainWait ++ [(t, form, param)] })).serveDrain d) := by
  have hfresh : (s.quay d).drainWait.any (fun w => w.1 == t) = false := List.any_eq_false.mpr (fun w hw => by simpa using hnew w hw)
  have hasks : ¬ (s.drainTiles c.stream ≤ t ∨ (s.quay d).drainWait.any (fun w => w.1 == t) = true) := by simp [ht, hfresh]
  show execDrainRequest d t form param s = _
  rw [execDrainRequest, hc]
  exact if_neg hasks

/-- The engine that derives drain tile `t` of stream `n` (R271). -/
def State.drainEngine (s : State) (n t : Nat) : Nat := 2 * (2048 * t * elemBytes (s.sf n StreamRec.elemType) / 4096 % 20) + s.sf n StreamRec.die

/-- A drain tile that waits, with what an engine that can begin makes of it, where its elements have come. -/
def State.derives (s : State) (d : Nat) (c : Consumer) (w : Nat × Nat × Nat) : Option (Nat × Bench × List Nat) :=
  if s.atUnit (s.drainEngine c.stream w.1) then (s.madeFactors d (c.ring.getD 3) c.stream w.1 w.2.1 w.2.2).map (fun fs => (w.1, fs)) else none

/-- The oldest drain tile that can be derived is derived and presented. -/
theorem exec_formDerivation_presents {s : State} {d t : Nat} {b : Bench} {fs : List Nat} {c : Consumer} (hc : s.drainConsumer d = some c) (hform : s.hasForm c.stream = false)
    (hp : (s.quay d).drainWait.findSome? (s.derives d c) = some (t, b, fs)) :
    exec (.formDerivation d) s = .next ((s.noteCounts (s.drainEngine c.stream t) noRef c.stream true b).present d t fs) := by
  have hmade : ¬ s.hasForm c.stream = true := by simp [hform]
  show execFormDerivation d s = _
  rw [execFormDerivation, hc]
  refine (if_neg hmade).trans ?_
  show (match (s.quay d).drainWait.findSome? (s.derives d c) with | none => _ | some p => _) = _
  rw [hp]
  rfl

/-! ### Expansion and reservations (R214, R240) -/

/-- A tile that is expanded stands in its Skerry's queue; one out of the held pool goes on from where it lies. -/
def State.enqueueTile (s : State) (i n t : Nat) (bs : List Byte) : State :=
  if s.residence n = Rs.quay then s else { s with skerry := { s.skerry with queue := s.skerry.queue ++ [⟨i, n, t, bs⟩] } }

/-- A tile that has left its slot and any prefetch behind it goes to consumer `i`, and what waited for it on the die goes on. -/
def State.tileLeaves (s : State) (i : Nat) (c : Consumer) : State :=
  (State.deliver 1024 (((s.unstage c.stream (c.first + c.asked)).settlePrefetch c.stream).notePeak ((c.first + c.asked) % 20)) i).fedDie c.die

theorem exec_egress_delivers {s t u : State} {i : Nat} {c : Consumer} {bs : List Byte} {clipped : Bool} (hc : s.consumer i = some c) (hcan : s.canExpand c = true)
    (hfirst : s.firstInLine c = true) (htile : s.egressTile c = (t, .ok (bs, clipped)))
    (hu : u = t.modConsumer i (fun c => { c with asked := c.asked + 1, clipSeen := c.clipSeen || clipped })) :
    exec (.egress i) s = .next ((u.enqueueTile i c.stream (c.first + c.asked) bs).tileLeaves i c) := by
  subst hu
  have hgoes : ¬ ((!s.canExpand c) = true ∨ (!s.firstInLine c) = true) := by simp [hcan, hfirst]
  show execEgress i s = _
  rw [execEgress, hc]
  refine (if_neg hgoes).trans ?_
  rw [htile]
  rfl

/-- The waiting consumer that is first in the order of urgency gets its reservation where the Skerries have entries for it. -/
theorem exec_reservationGrant_grants {s : State} {c : Consumer} {rest : List Consumer}
    (hc : (s.skerry.consumers.filter (fun c => !c.granted && s.started c)).mergeSort (fun a b => s.sourceUrgency a.source ≤ s.sourceUrgency b.source) = c :: rest)
    (hroom : s.entriesUsed + c.entries ≤ 2048) :
    exec .reservationGrant s = .next ((s.modConsumer c.id (fun c => { c with granted := true })).noteDrain c.id) := by
  show execReservationGrant s = _
  rw [execReservationGrant, hc]
  exact congrArg _ (if_pos hroom)

/-- Settles O17: each row by what it asks of the ring, the delivery or the consumer; an expanded tile by whether it lies in the held pool. -/
theorem quaysWork : Obligations.QuaysWork := by
  intro s d q
  refine ⟨fun r hdie hring hc hb hlt => ?_, fun i tag data hd hon hi hagent => ?_, fun c t form param => exec_drainRequest_waits, fun c p => exec_formDerivation_presents,
    fun i c t u bs clipped hc hcan hfirst htile hu => ?_, fun c rest => exec_reservationGrant_grants⟩
  · exact ⟨fun ha => exec_ringEnable_enables ⟨hdie, hring, hc, hb, hlt, ha⟩, fun ha => exec_ringDisable_closes ⟨hdie, hring, hc, hb, hlt, ha⟩⟩
  · exact ⟨exec_handlePass_fills hd hon hi hagent, fun h0 htake hshown => exec_handlePass_passes hd hon hi hagent h0 htake (State.drainHolds_of_shown hshown)⟩
  · rw [exec_egress_delivers hc hcan hfirst htile hu, State.enqueueTile]
    exact ⟨fun hquay => by rw [if_pos hquay]; rfl, fun hskerry => by rw [if_neg hskerry]; rfl⟩

end Sys2Proof.Machine
end

section
/-! PROOFS. TABLE_LOAD, TABLE_BUILD, the grant of a generation slot and the end of a first pass (O5). -/

namespace Sys2Proof.Machine

/-! ### TABLE_LOAD (R207) -/

/-- The checks of R207 that a command makes on the table it has read: a DEFAULT names no stream and comes from the plan's owner, any other a stream of its kind that has an index. -/
structure State.TablePasses (s : State) (d : Dispatched) (t : Nat × Nat × List Nat) : Prop where
  source : s.sourceTable d = .ok t
  default : t.2.1 = 1 → cmdGet d.word CmdTable.stream = noRef ∧ s.cmdContext d = s.ch Ch.planOwner
  own : t.2.1 = 0 → cmdGet d.word CmdTable.stream < s.streamCount ∧ hasIndex (s.sf (cmdGet d.word CmdTable.stream) StreamRec.classF) = true
    ∧ s.streamKind (cmdGet d.word CmdTable.stream) = t.1

/-- A table that passes its checks is loaded into the slot free for it, where nothing waits for one. -/
theorem State.tableLoad_loads {s : State} {d : Dispatched} {t : Nat × Nat × List Nat} {k : Nat} (h : s.TablePasses d t) (hwait : s.skerry.slotWait = [])
    (hslot : s.slotFor t.2.1 t.1 = some k) : s.tableLoad d true = (s.tableOverlaps d).loadInto d k t := by
  obtain ⟨hsource, hdefault, hown⟩ := h
  have hstray : ¬ (t.2.1 = 1 ∧ cmdGet d.word CmdTable.stream ≠ noRef) := fun ⟨h1, hn⟩ => hn (hdefault h1).1
  have hforeign : ¬ (t.2.1 = 1 ∧ s.cmdContext d ≠ s.ch Ch.planOwner) := fun ⟨h1, hc⟩ => hc (hdefault h1).2
  have hnone : ¬ (t.2.1 = 0 ∧ s.streamCount ≤ cmdGet d.word CmdTable.stream) := fun ⟨h0, hle⟩ => absurd (hown h0).1 (Nat.not_lt.mpr hle)
  have hunfit : ¬ (t.2.1 = 0 ∧ ((!hasIndex (s.sf (cmdGet d.word CmdTable.stream) StreamRec.classF)) = true ∨ s.streamKind (cmdGet d.word CmdTable.stream) ≠ t.1)) := by
    rintro ⟨h0, hindex | hkind⟩
    · simp [(hown h0).2.1] at hindex
    · exact hkind (hown h0).2.2
  unfold State.tableLoad
  simp only [hsource, if_neg hstray, if_neg hforeign, if_neg hnone, if_neg hunfit, hwait, hslot, List.isEmpty_nil, Bool.not_true, Bool.false_eq_true, and_false, if_false, if_true]

theorem exec_tableLoad_loads {c k : Nat} {s : State} {d : Dispatched} {t : Nat × Nat × List Nat} (h : s.cmd c Op.tableLoad = some d) (hready : d.stage = .ready)
    (hbytes : cmdGet d.word CmdTable.bytes ≠ 0) (hkind : cmdGet d.word CmdTable.kind = 0) (hfill : s.filling (cmdGet d.word CmdTable.source) (cmdGet d.word CmdTable.bytes) = false)
    (hsound : s.failing (cmdGet d.word CmdTable.source) (cmdGet d.word CmdTable.bytes) = none) (hpass : s.TablePasses d t) (hwait : s.skerry.slotWait = [])
    (hslot : s.slotFor t.2.1 t.1 = some k) : exec (.tableLoad c .ok) s = .next ((s.tableOverlaps d).loadInto d k t) := by
  rw [← State.tableLoad_loads hpass hwait hslot]
  show execTableLoad c .ok s = _
  unfold execTableLoad
  simp only [h, hready, hbytes, hkind, State.readEnds_none hfill hsound, ne_eq, not_true_eq_false, if_false, if_true]

/-! ### TABLE_BUILD (R201, R202) -/

/-- With no samples in memory the tiles are still to come: a first pass is armed. -/
theorem exec_tableBuild_arms {c : Nat} {m : MemResult} {s : State} {d : Dispatched} (h : s.cmd c Op.tableBuild = some d) (hready : d.stage = .ready)
    (hsamples : cmdGet d.word CmdTable.samples = 0) : exec (.tableBuild c m) s = .next (s.armPass d) := by
  show execTableBuild c m s = _
  unfold execTableBuild
  simp only [h, hready, hsamples, ne_eq, not_true_eq_false, if_false, if_true]

theorem exec_tableBuild_builds {c k : Nat} {s : State} {d : Dispatched} (h : s.cmd c Op.tableBuild = some d) (hready : d.stage = .ready)
    (hsamples : cmdGet d.word CmdTable.samples ≠ 0) (hkind : cmdGet d.word CmdTable.kind = 0)
    (hfill : s.filling (cmdGet d.word CmdTable.samples) (4096 * cmdGet d.word CmdTable.bytes) = false)
    (hsound : s.failing (cmdGet d.word CmdTable.samples) (4096 * cmdGet d.word CmdTable.bytes) = none) (hwait : s.skerry.slotWait = [])
    (hslot : s.slotFor 0 (s.streamKind (cmdGet d.word CmdTable.stream)) = some k) : exec (.tableBuild c .ok) s = .next (s.buildInto d k) := by
  show execTableBuild c .ok s = _
  unfold execTableBuild
  simp only [h, hready, hsamples, hkind, State.readEnds_none hfill hsound, hwait, hslot, List.isEmpty_nil, ne_eq, not_true_eq_false, if_false, if_true]

/-! ### TABLE_SLOT_GRANT (R205, R206) -/

/-- The first pass that has waited longest builds in the slot it is given. -/
theorem exec_tableSlotGrant_pass {n k : Nat} {rest : List SlotWaiter} {s : State} (hwait : s.skerry.slotWait = .pass n :: rest) (hslot : s.slotFor 0 (s.streamKind n) = some k) :
    exec .tableSlotGrant s = .next ((State.takeSlot { s with skerry := { s.skerry with slotWait := rest } } k (s.streamKind n) 0 n (s.sf n StreamRec.context)).modAux n
      (fun a => { a with pass := a.pass.map (fun p => { p with slot := some k }) })) := by
  show execTableSlotGrant s = _
  unfold execTableSlotGrant
  simp only [hwait, hslot]
  rfl

/-- The TABLE_BUILD that has waited longest builds its table in the slot it is given. -/
theorem exec_tableSlotGrant_build {tag k : Nat} {rest : List SlotWaiter} {s : State} {d : Dispatched} (hwait : s.skerry.slotWait = .cmd tag :: rest)
    (hd : s.dispatched.find? (fun e => e.tag == tag) = some d) (hop : cmdGet d.word Cmd.opcode = Op.tableBuild)
    (hslot : s.slotFor 0 (s.streamKind (cmdGet d.word CmdTable.stream)) = some k) :
    exec .tableSlotGrant s = .next (State.buildInto { s with skerry := { s.skerry with slotWait := rest } } d k) := by
  show execTableSlotGrant s = _
  unfold execTableSlotGrant
  simp only [hwait, hd, hop, hslot, if_true]

/-! ### FIRST_PASS (R202, R204) -/

/-- A first pass of KIND 0 whose sample is complete makes the table of it. -/
theorem exec_firstPass_makes {n k : Nat} {s : State} {p : FirstPass} (hp : (s.aux n).pass = some p) (hactive : p.active = true) (hkind : p.kind = 0) (hslot : p.slot = some k)
    (htiles : min p.sample (s.tiles n) ≤ p.tiles.length) (hshort : ¬ (s.tiles n < p.sample ∧ s.stateOf n = Ss.filling)) :
    exec (.firstPass n) s = .next (s.tableMade n p k) := by
  have hsampled : ¬ (p.tiles.length < min p.sample (s.tiles n) ∨ (s.tiles n < p.sample ∧ s.stateOf n = Ss.filling)) := not_or.mpr ⟨Nat.not_lt.mpr htiles, hshort⟩
  show execFirstPass n s = _
  unfold execFirstPass
  simp only [hp, hactive, hkind, hslot, if_neg hsampled, Bool.not_true, Bool.false_eq_true, if_false, if_true]

/-- Settles O5: TABLE_LOAD by the checks of `State.TablePasses`, TABLE_BUILD by whether it has samples, a grant by what waits, a first pass by its sample. -/
theorem tableCommandsComplete : Obligations.TableCommandsComplete := by
  intro c s d
  exact ⟨fun t k h hready hbytes hkind hfill hsound hsource hdefault hown => exec_tableLoad_loads h hready hbytes hkind hfill hsound ⟨hsource, hdefault, hown⟩,
    fun m => exec_tableBuild_arms, fun k => exec_tableBuild_builds, fun n k rest => exec_tableSlotGrant_pass, fun k rest => exec_tableSlotGrant_build,
    fun n k p hp hactive hkind hslot htiles hshort => ⟨_, _, rfl, rfl, exec_firstPass_makes hp hactive hkind hslot htiles hshort⟩⟩

end Sys2Proof.Machine
end

section
/-! PROOFS. The words of Shoal instructions have 64 bits, and each opcode is read back from its word (O55). -/

namespace Sys2Proof

/-- A field that lies in the low `n` bits keeps a word of `n` bits one of `n` bits. -/
theorem Fld.set_lt_two_pow {f : Fld} {n v : Nat} (h : f.lo ≤ f.hi) (hn : f.hi < n) (hv : v < 2 ^ n) (x : Nat) : f.set v x < 2 ^ n := by
  refine Nat.lt_pow_two_of_testBit _ (fun i hi => ?_)
  have hout : ¬ (f.lo ≤ i ∧ i ≤ f.hi) := by omega
  rw [Fld.testBit_set h, if_neg hout]
  exact Nat.testBit_lt_two_pow (Nat.lt_of_lt_of_le hv (Nat.pow_le_pow_right (by decide) hi))

/-- A word that is spelt field by field has as many bits as its fields reach. -/
theorem Fld.foldl_set_lt_two_pow {n : Nat} {fs : List (Fld × Nat)} (h : ∀ p ∈ fs, p.1.lo ≤ p.1.hi ∧ p.1.hi < n) {v : Nat} (hv : v < 2 ^ n) :
    fs.foldl (fun v p => p.1.set v p.2) v < 2 ^ n := by
  induction fs generalizing v with
  | nil => exact hv
  | cons p fs ih =>
    obtain ⟨⟨hlo, hhi⟩, hfs⟩ := List.forall_mem_cons.mp h
    exact ih hfs (Fld.set_lt_two_pow hlo hhi hv p.2)

end Sys2Proof

namespace Sys2Proof.Machine

theorem gWord_lt (op : Nat) (i : GForm) : gWord op i < 2 ^ 64 := by
  refine Fld.foldl_set_lt_two_pow ?_ (by decide)
  simp only [List.forall_mem_cons, List.not_mem_nil, false_imp_iff, implies_true, and_true]
  decide

theorem iWord_lt (op : Nat) (i : IForm) : iWord op i < 2 ^ 64 := by
  refine Fld.foldl_set_lt_two_pow ?_ (by decide)
  simp only [List.forall_mem_cons, List.not_mem_nil, false_imp_iff, implies_true, and_true]
  decide

/-- OP lies above every other field of the word, so that none of them writes over it (R254). -/
theorem op_gWord {op : Nat} (h : op < 256) (i : GForm) : InsnWord.op.get (gWord op i) = op := by
  simp (disch := decide) only [gWord, List.foldl_cons, List.foldl_nil, Fld.get_set_disjoint]
  exact Fld.get_set_self (by decide) h

theorem op_iWord {op : Nat} (h : op < 256) (i : IForm) : InsnWord.op.get (iWord op i) = op := by
  simp (disch := decide) only [iWord, List.foldl_cons, List.foldl_nil, Fld.get_set_disjoint]
  exact Fld.get_set_self (by decide) h

/-- Settles O55: a field written is read back, and no other field's write reaches its bits. -/
theorem instructionWordsRoundTrip : Obligations.InstructionWordsRoundTrip := by
  intro op hop
  exact ⟨fun i hwf => ⟨gFields_gWord op hwf, op_gWord hop i, gWord_lt op i⟩, fun i hwf => ⟨iFields_iWord op hwf, op_iWord hop i, iWord_lt op i⟩⟩

end Sys2Proof.Machine
end

section
/-! PROOFS. The instructions of a Shoal program and the meaning that an engine runs for each (R255). -/

namespace Sys2Proof.Machine

theorem exec_loop (e : Nat) (s : State) (i : IForm) : exec (.loop e i) s = .next (s.shoalI e 0x02 i (fun _ => semLoop i)) := rfl
theorem exec_brz (e : Nat) (s : State) (i : IForm) : exec (.brz e i) s = .next (s.shoalI e 0x03 i (fun _ => semBrz i)) := rfl
theorem exec_brnz (e : Nat) (s : State) (i : IForm) : exec (.brnz e i) s = .next (s.shoalI e 0x04 i (fun _ => semBrnz i)) := rfl
theorem exec_sli (e : Nat) (s : State) (i : IForm) : exec (.sli e i) s = .next (s.shoalI e 0x08 i (fun _ => semSli i)) := rfl
theorem exec_saddi (e : Nat) (s : State) (i : IForm) : exec (.saddi e i) s = .next (s.shoalI e 0x0A i (fun _ => semSaddi i)) := rfl
theorem exec_sshr (e : Nat) (s : State) (i : IForm) : exec (.sshr e i) s = .next (s.shoalI e 0x0C i (fun _ => semSshr i)) := rfl
theorem exec_sldk (e : Nat) (s : State) (i : IForm) : exec (.sldk e i) s = .next (s.shoalI e 0x0E i (fun _ => semSldk i)) := rfl
theorem exec_vldd (e : Nat) (s : State) (i : IForm) : exec (.vldd e i) s = .next (s.shoalI e 0x12 i (fun _ => semVldd i)) := rfl
theorem exec_vstd (e : Nat) (s : State) (i : IForm) : exec (.vstd e i) s = .next (s.shoalI e 0x13 i (fun _ => semVstd i)) := rfl
theorem exec_vbc (e : Nat) (s : State) (i : IForm) : exec (.vbc e i) s = .next (s.shoalI e 0x14 i (fun _ => semVbc i)) := rfl
theorem exec_vld (e : Nat) (s : State) (i : GForm) : exec (.vld e i) s = .next (s.shoalG e 0x10 i (fun s => semVld s i)) := rfl
theorem exec_sadd (e : Nat) (s : State) (i : GForm) : exec (.sadd e i) s = .next (s.shoalG e 0x09 i (fun _ => semSadd i)) := rfl
theorem exec_smul (e : Nat) (s : State) (i : GForm) : exec (.smul e i) s = .next (s.shoalG e 0x0B i (fun _ => semSmul i)) := rfl
theorem exec_sand (e : Nat) (s : State) (i : GForm) : exec (.sand e i) s = .next (s.shoalG e 0x0D i (fun _ => semSand i)) := rfl
theorem exec_vst (e : Nat) (s : State) (i : GForm) : exec (.vst e i) s = .next (s.shoalG e 0x11 i (fun _ => semVst i)) := rfl
theorem exec_vbcs (e : Nat) (s : State) (i : GForm) : exec (.vbcs e i) s = .next (s.shoalG e 0x15 i (fun _ => semVbcs i)) := rfl
theorem exec_vrand (e : Nat) (s : State) (i : GForm) : exec (.vrand e i) s = .next (s.shoalG e 0x18 i (fun _ => semVrand i)) := rfl
theorem exec_vult (e : Nat) (s : State) (i : GForm) : exec (.vult e i) s = .next (s.shoalG e 0x19 i (fun _ => semCmp vUlt i)) := rfl
theorem exec_vadd (e : Nat) (s : State) (i : GForm) : exec (.vadd e i) s = .next (s.shoalG e 0x20 i (fun _ => sem2 vAdd i)) := rfl
theorem exec_vsub (e : Nat) (s : State) (i : GForm) : exec (.vsub e i) s = .next (s.shoalG e 0x21 i (fun _ => sem2 vSub i)) := rfl
theorem exec_vmul (e : Nat) (s : State) (i : GForm) : exec (.vmul e i) s = .next (s.shoalG e 0x22 i (fun _ => sem2 vMul i)) := rfl
theorem exec_vfma (e : Nat) (s : State) (i : GForm) : exec (.vfma e i) s = .next (s.shoalG e 0x23 i (fun _ => semVfma i)) := rfl
theorem exec_vmax (e : Nat) (s : State) (i : GForm) : exec (.vmax e i) s = .next (s.shoalG e 0x24 i (fun _ => sem2 vMax i)) := rfl
theorem exec_vmin (e : Nat) (s : State) (i : GForm) : exec (.vmin e i) s = .next (s.shoalG e 0x25 i (fun _ => sem2 vMin i)) := rfl
theorem exec_vabs (e : Nat) (s : State) (i : GForm) : exec (.vabs e i) s = .next (s.shoalG e 0x26 i (fun _ => sem1 vAbs i)) := rfl
theorem exec_vneg (e : Nat) (s : State) (i : GForm) : exec (.vneg e i) s = .next (s.shoalG e 0x27 i (fun _ => sem1 vNeg i)) := rfl
theorem exec_vdiv (e : Nat) (s : State) (i : GForm) : exec (.vdiv e i) s = .next (s.shoalG e 0x28 i (fun _ => sem2 vDiv i)) := rfl
theorem exec_vsqrt (e : Nat) (s : State) (i : GForm) : exec (.vsqrt e i) s = .next (s.shoalG e 0x29 i (fun _ => sem1 vSqrt i)) := rfl
theorem exec_vrsqrt (e : Nat) (s : State) (i : GForm) : exec (.vrsqrt e i) s = .next (s.shoalG e 0x2A i (fun _ => sem1 vRsqrt i)) := rfl
theorem exec_vexp (e : Nat) (s : State) (i : GForm) : exec (.vexp e i) s = .next (s.shoalG e 0x2B i (fun _ => sem1 vExp i)) := rfl
theorem exec_vlog (e : Nat) (s : State) (i : GForm) : exec (.vlog e i) s = .next (s.shoalG e 0x2C i (fun _ => sem1 vLog i)) := rfl
theorem exec_vtanh (e : Nat) (s : State) (i : GForm) : exec (.vtanh e i) s = .next (s.shoalG e 0x2D i (fun _ => sem1 vTanh i)) := rfl
theorem exec_verf (e : Nat) (s : State) (i : GForm) : exec (.verf e i) s = .next (s.shoalG e 0x2E i (fun _ => sem1 vErf i)) := rfl
theorem exec_vsigm (e : Nat) (s : State) (i : GForm) : exec (.vsigm e i) s = .next (s.shoalG e 0x2F i (fun _ => sem1 vSigm i)) := rfl
theorem exec_vcgt (e : Nat) (s : State) (i : GForm) : exec (.vcgt e i) s = .next (s.shoalG e 0x30 i (fun _ => semCmp vGt i)) := rfl
theorem exec_vcge (e : Nat) (s : State) (i : GForm) : exec (.vcge e i) s = .next (s.shoalG e 0x31 i (fun _ => semCmp vGe i)) := rfl
theorem exec_vceq (e : Nat) (s : State) (i : GForm) : exec (.vceq e i) s = .next (s.shoalG e 0x32 i (fun _ => semCmp vEq i)) := rfl
theorem exec_vsel (e : Nat) (s : State) (i : GForm) : exec (.vsel e i) s = .next (s.shoalG e 0x33 i (fun _ => semVsel i)) := rfl
theorem exec_vmov (e : Nat) (s : State) (i : GForm) : exec (.vmov e i) s = .next (s.shoalG e 0x34 i (fun _ => semVmov i)) := rfl

end Sys2Proof.Machine
end

section
/-! PROOFS. The instructions of control and of the scalar registers, the moves of the vector registers, and the lanewise instructions (O39 to O41). -/

namespace Sys2Proof.Machine

/-! ### END -/

/-- END of an UPDATE's unit (R314). -/
theorem exec_endProg_update {e : Nat} {i : IForm} {v : Invocation} {s : State} (hi : i.wf = true) (hat : s.InsnAt e (iWord 0x01 i) v) (hv : v.stream = noRef) :
    exec (.endProg e i) s = .next (s.updateUnit e v) := by
  obtain ⟨hrun, hword⟩ := hat
  show execEndProg e i s = _
  simp only [execEndProg, hrun, hword, iFields_iWord _ hi, hv, ne_eq, not_true_eq_false, or_self, if_false, if_true]

/-- END of a unit that makes elements of a stream for a consumer (R273). -/
theorem exec_endProg_recompute {e : Nat} {i : IForm} {v : Invocation} {c : Consumer} {s : State} (hi : i.wf = true) (hat : s.InsnAt e (iWord 0x01 i) v) (hv : v.stream ≠ noRef)
    (hc : s.consumer v.consumer = some c) : exec (.endProg e i) s = .next (s.recomputeUnit e v c) := by
  obtain ⟨hrun, hword⟩ := hat
  show execEndProg e i s = _
  simp only [execEndProg, hrun, hword, iFields_iWord _ hi, hv, hc, ne_eq, not_true_eq_false, or_self, if_false]

/-! ### An instruction that the pc names and whose fields are its word's -/

section
variable {c : Instr} {s : State} {e op : Nat} {v : Invocation} {sem : Sem} {b : Bench} {r : Regs}

/-- An instruction in the immediate form whose meaning answers registers completes with them. -/
theorem exec_next_of_shoalI {i : IForm} (hc : ∀ s, exec c s = .next (s.shoalI e op i (fun _ => sem))) (hi : i.wf = true) (hat : s.InsnAt e (iWord op i) v)
    (hsem : sem (s.engineEnv e v) s.reader (s.insnBench e v) (s.engine e).regs = .ok (b, r)) : exec c s = .next (s.afterInsn e v b r) := by
  rw [hc, State.shoalI_runs (iFields_iWord op hi) hat hsem]

/-- The same of the register form. -/
theorem exec_next_of_shoalG {i : GForm} (hc : ∀ s, exec c s = .next (s.shoalG e op i (fun _ => sem))) (hi : i.wf = true) (hat : s.InsnAt e (gWord op i) v)
    (hsem : sem (s.engineEnv e v) s.reader (s.insnBench e v) (s.engine e).regs = .ok (b, r)) : exec c s = .next (s.afterInsn e v b r) := by
  rw [hc, State.shoalG_runs (gFields_gWord op hi) hat hsem]

end

/-- LOOP enters its body, or goes past it where the body or the number of runs is empty (R257). -/
theorem semLoop_eq (i : IForm) (env : Env) (rd : Reader) (b : Bench) (r : Regs) :
    semLoop i env rd b r = .ok (b, if r.sreg i.a = 0 ∨ i.imm % 4096 = 0 then { r with pc := r.pc + 1 + i.imm % 4096 }
      else { r with pc := r.pc + 1, loops := (r.pc + 1, r.pc + 1 + i.imm % 4096, r.sreg i.a - 1) :: r.loops }) := by
  unfold semLoop
  dsimp only
  split <;> rfl

/-- SSHR divides by a power of two. -/
theorem semSshr_eq (i : IForm) (env : Env) (rd : Reader) (b : Bench) (r : Regs) :
    semSshr i env rd b r = .ok (b, (r.setS i.d (r.sreg i.a / 2 ^ (i.imm % 64))).next) := by
  rw [semSshr, Nat.shiftRight_eq_div_pow]

/-- Settles O39: the word of a well-formed instruction spells its fields, so its meaning runs and leaves the registers it answers; END takes the branch of its invocation. -/
theorem scalarInstructionsComplete : Obligations.ScalarInstructionsComplete := by
  intro s e v r b hr hb
  subst hr hb
  refine ⟨fun i hi => ⟨fun hat => ⟨exec_endProg_update hi hat, fun c => exec_endProg_recompute hi hat⟩, fun hat => ?_, fun hat => ?_, fun hat => ?_, fun hat => ?_, fun hat => ?_,
    fun hat => ?_, fun hat => ?_⟩, fun i hi => ⟨fun hat => ?_, fun hat => ?_, fun hat => ?_⟩⟩
  · exact exec_next_of_shoalI (exec_loop e · i) hi hat (semLoop_eq ..)
  · exact exec_next_of_shoalI (exec_brz e · i) hi hat rfl
  · exact exec_next_of_shoalI (exec_brnz e · i) hi hat rfl
  · exact exec_next_of_shoalI (exec_sli e · i) hi hat rfl
  · exact exec_next_of_shoalI (exec_saddi e · i) hi hat rfl
  · exact exec_next_of_shoalI (exec_sshr e · i) hi hat (semSshr_eq ..)
  · exact exec_next_of_shoalI (exec_sldk e · i) hi hat rfl
  · exact exec_next_of_shoalG (exec_sadd e · i) hi hat rfl
  · exact exec_next_of_shoalG (exec_smul e · i) hi hat rfl
  · exact exec_next_of_shoalG (exec_sand e · i) hi hat rfl

/-- A load from a port that answers elements puts them in the enabled lanes, and −0 where there is none, which is counted (R253, R258). -/
theorem semVld_of_portElems {s : State} {i : GForm} {env : Env} {rd : Reader} {b b' : Bench} {r : Regs} {on : List Nat} {xs : List (Option Nat)}
    (hon : on = lanes.filter (fun l => nth (r.gate i.pred i.pnot) l false)) (h : s.portElems rd env i.b (on.map (fun l => (r.sreg i.a + l) % maxLane)) b = .ok (b', xs)) :
    semVld s i env rd b r = .ok (b'.clip env r (xs.filter Option.isNone).length, (r.setV i.d (r.gate i.pred i.pnot) (lanes.map (fun l =>
      ((((List.zip on xs).map (fun p => (p.1, p.2.getD negZero))).find? (fun p => p.1 == l)).map Prod.snd).getD 0))).next) := by
  rw [hon] at h ⊢
  unfold semVld
  dsimp only
  rw [h]

/-- Settles O40: the word of a well-formed instruction spells its fields, so its meaning runs; a load answers the elements that its port gives. -/
theorem vectorMovesComplete : Obligations.VectorMovesComplete := by
  intro s e v r b env hr hb henv
  subst hr hb henv
  refine ⟨fun i hi => ⟨fun hat => ?_, fun hat => ?_, fun hat => ?_⟩, fun i g hi hg => ?_⟩
  · exact exec_next_of_shoalI (exec_vldd e · i) hi hat rfl
  · exact exec_next_of_shoalI (exec_vstd e · i) hi hat rfl
  · exact exec_next_of_shoalI (exec_vbc e · i) hi hat rfl
  subst hg
  refine ⟨fun on b' xs hat hon hxs => ?_, fun p hat hp => ?_, fun hat => ?_, fun hat => ?_, fun hat => ?_, fun hat => ?_⟩
  · rw [exec_vld, State.shoalG_runs (gFields_gWord _ hi) hat (semVld_of_portElems hon hxs)]
  · subst hp
    exact exec_next_of_shoalG (exec_vst e · i) hi hat rfl
  · exact exec_next_of_shoalG (exec_vbcs e · i) hi hat rfl
  · exact exec_next_of_shoalG (exec_vrand e · i) hi hat rfl
  · exact exec_next_of_shoalG (exec_vsel e · i) hi hat rfl
  · exact exec_next_of_shoalG (exec_vmov e · i) hi hat rfl

/-! ### Lanewise operations -/

section
variable {c : Instr} {s : State} {e op : Nat} {v : Invocation} {i : GForm} {r : Regs} {m : NMode} {g : List Bool} {x y : List Nat}

/-- Any operation on V[A] alone, lane by lane. -/
theorem exec_sem1 {f : NMode → Bool → Nat → Nat} (hc : ∀ s, exec c s = .next (s.shoalG e op i (fun _ => sem1 f i))) (hi : i.wf = true)
    (hr : r = (s.engine e).regs) (hm : m = (s.engineEnv e v).mode) (hg : g = r.gate i.pred i.pnot) (hx : x = nats (r.vreg i.a)) (hat : s.InsnAt e (gWord op i) v) :
    exec c s = .next (s.afterInsn e v { s.insnBench e v with nans := nanLanes g [x] (x.map (f m i.bf)) } (r.setV i.d g (x.map (f m i.bf))).next) := by
  subst hr hm hg hx
  exact exec_next_of_shoalG hc hi hat (by simp only [sem1, State.insnBench_nans, Nat.zero_add])

/-- Any operation on V[A] and V[B]. -/
theorem exec_sem2 {f : NMode → Bool → Nat → Nat → Nat} (hc : ∀ s, exec c s = .next (s.shoalG e op i (fun _ => sem2 f i))) (hi : i.wf = true)
    (hr : r = (s.engine e).regs) (hm : m = (s.engineEnv e v).mode) (hg : g = r.gate i.pred i.pnot) (hx : x = nats (r.vreg i.a)) (hy : y = nats (r.vreg i.b))
    (hat : s.InsnAt e (gWord op i) v) :
    exec c s = .next (s.afterInsn e v { s.insnBench e v with nans := nanLanes g [x, y] (List.zipWith (f m i.bf) x y) }
      (r.setV i.d g (List.zipWith (f m i.bf) x y)).next) := by
  subst hr hm hg hx hy
  exact exec_next_of_shoalG hc hi hat (by simp only [sem2, State.insnBench_nans, Nat.zero_add])

/-- Any comparison of V[A] and V[B]. -/
theorem exec_semCmp {f : NMode → Nat → Nat → Bool} (hc : ∀ s, exec c s = .next (s.shoalG e op i (fun _ => semCmp f i))) (hi : i.wf = true)
    (hr : r = (s.engine e).regs) (hm : m = (s.engineEnv e v).mode) (hg : g = r.gate i.pred i.pnot) (hx : x = nats (r.vreg i.a)) (hy : y = nats (r.vreg i.b))
    (hat : s.InsnAt e (gWord op i) v) :
    exec c s = .next (s.afterInsn e v (s.insnBench e v) (r.setP i.d (List.zipWith (fun (c : Bool) (q : Bool × Bool) => if c then q.1 else q.2) g
      (List.zip (List.zipWith (f m) x y) (r.preg i.d)))).next) := by
  subst hr hm hg hx hy
  exact exec_next_of_shoalG hc hi hat rfl

end

/-- Settles O41: each list of the statement by the lemma of its kind of operation, with the equation of each instruction. -/
theorem lanewiseInstructionsComplete : Obligations.LanewiseInstructionsComplete := by
  intro s e v r b m i g x y z hr hb hm hi hg hx hy hz
  subst hb
  refine ⟨?unary, ?binary, fun w hat hw => ?fma, ?compare⟩
  case unary =>
    have key := fun (c : Instr) op f (hc : ∀ s, exec c s = .next (s.shoalG e op i (fun _ => sem1 f i))) => exec_sem1 (v := v) hc hi hr hm hg hx
    simp only [List.forall_mem_cons, List.not_mem_nil, false_imp_iff, implies_true, and_true]
    exact ⟨key _ _ _ (exec_vabs e · i), key _ _ _ (exec_vneg e · i), key _ _ _ (exec_vsqrt e · i), key _ _ _ (exec_vrsqrt e · i), key _ _ _ (exec_vexp e · i),
      key _ _ _ (exec_vlog e · i), key _ _ _ (exec_vtanh e · i), key _ _ _ (exec_verf e · i), key _ _ _ (exec_vsigm e · i)⟩
  case binary =>
    have key := fun (c : Instr) op f (hc : ∀ s, exec c s = .next (s.shoalG e op i (fun _ => sem2 f i))) => exec_sem2 (v := v) hc hi hr hm hg hx hy
    simp only [List.forall_mem_cons, List.not_mem_nil, false_imp_iff, implies_true, and_true]
    exact ⟨key _ _ _ (exec_vadd e · i), key _ _ _ (exec_vsub e · i), key _ _ _ (exec_vmul e · i), key _ _ _ (exec_vmax e · i), key _ _ _ (exec_vmin e · i),
      key _ _ _ (exec_vdiv e · i)⟩
  case fma =>
    subst hr hm hg hx hy hz hw
    exact exec_next_of_shoalG (exec_vfma e · i) hi hat (by simp only [semVfma, State.insnBench_nans, Nat.zero_add])
  case compare =>
    have key := fun (c : Instr) op f (hc : ∀ s, exec c s = .next (s.shoalG e op i (fun _ => semCmp f i))) => exec_semCmp (v := v) hc hi hr hm hg hx hy
    simp only [List.forall_mem_cons, List.not_mem_nil, false_imp_iff, implies_true, and_true]
    exact ⟨key _ _ _ (exec_vult e · i), key _ _ _ (exec_vcgt e · i), key _ _ _ (exec_vcge e · i), key _ _ _ (exec_vceq e · i)⟩

end Sys2Proof.Machine
end

section
/-! PROOFS. The program registry: REGISTER and RETIRE of a slot (O19). -/

namespace Sys2Proof.Machine

/-- REGISTER of a slot that is not VALID checks the program and marks its record (R247). -/
theorem exec_register_marks {s : State} {r : Req} {p : Nat} {m : MemResult} (hp : p = ProgCtl.index.get r.value) (hc : ChecksPass s 0x7400 3 r)
    (hbits : onlyBits r.value [ProgCtl.index, actF] = true) (hslot : p < s.ch Ch.progCount ∧ p < 0xFF00) (ha : actionIs r actF 1 = true) (hv : s.progValid p = false) :
    exec (.register r m) s = .next ((s.registerProgram p m).okReply 0x7400 3 r) := by
  subst hp
  show execRegister r m s = _
  have hact : ¬ (!actionIs r actF 1) = true := by rw [ha]; decide
  rw [execRegister, if_neg hact]
  exact congrArg _ (State.chartDo_ok hc (by simp only [hbits, hslot, and_self, decide_true, Bool.and_self]) (by simp only [hv, Bool.not_false]) rfl)

/-- The state without the program in any engine's store. -/
def State.dropHeld (s : State) (p : Nat) : State :=
  { s with engines := s.engines.map (fun e => (e.1, { e.2 with held := e.2.held.filter (· != p) })) }

/-- RETIRE of a VALID program that no plan names and nothing uses empties its record, and the engines' stores lose it (R248). -/
theorem exec_retire_empties {s : State} {r : Req} {p : Nat} (hp : p = ProgCtl.index.get r.value) (hc : ChecksPass s 0x7400 3 r)
    (hbits : onlyBits r.value [ProgCtl.index, actF] = true) (hslot : p < s.ch Ch.progCount ∧ p < 0xFF00) (ha : actionIs r actF 2 = true) (hv : s.progValid p = true)
    (hplan : s.planNamesProgram p = false) (huse : s.programInUse p = false) :
    exec (.retire r) s = .next (((s.dropHeld p).setFld (s.progAddr p) ProgRec.state 0).okReply 0x7400 3 r) := by
  subst hp
  show execRetire r s = _
  have hact : ¬ (!actionIs r actF 2) = true := by rw [ha]; decide
  rw [execRetire, if_neg hact]
  exact congrArg _ (State.chartDo_ok hc (by simp only [hbits, hslot, and_self, decide_true, Bool.and_self])
    (by simp only [hv, hplan, huse, Bool.not_false, Bool.and_self]) rfl)

/-- Settles O19: each action under the conditions of its clause. -/
theorem programSlotsComplete : Obligations.ProgramSlotsComplete := by
  intro s r p hp hc hbits hcount hbelow
  exact ⟨fun m => exec_register_marks hp hc hbits ⟨hcount, hbelow⟩, exec_retire_empties hp hc hbits ⟨hcount, hbelow⟩⟩

end Sys2Proof.Machine
end

section
/-! PROOFS. What keeps a register file of a Shoal engine well formed (R244): the writes of single registers, and each instruction that answers registers whatever it reads. -/

namespace Sys2Proof.Machine

/-! ### Register files -/

theorem Regs.wf_iff (r : Regs) : r.wf = true ↔ (r.v.length = 32 ∧ ∀ x ∈ r.v, x.length = 512) ∧ (r.s.length = 32 ∧ nth r.s 0 1 = 0)
    ∧ (r.p.length = 8 ∧ (∀ x ∈ r.p, x.length = 512) ∧ nth r.p 0 [] = allLanes) ∧ r.acc.length = 1024 := by
  simp only [Regs.wf, Bool.and_eq_true, beq_iff_eq, List.all_eq_true, allLanes, and_assoc]

@[simp] theorem length_lanes : lanes.length = 512 := List.length_range
theorem length_map_lanes {α : Type} (f : Nat → α) : (lanes.map f).length = 512 := by rw [List.length_map, length_lanes]
@[simp] theorem length_allLanes : allLanes.length = 512 := List.length_replicate
@[simp] theorem length_nats (ws : List Word) : (nats ws).length = ws.length := List.length_map ..

/-- A register of a list all of whose registers have one length has that length. -/
theorem length_nth_of_forall {α : Type} {l : List (List α)} {i n : Nat} (h : ∀ x ∈ l, x.length = n) (hi : i < l.length) : (nth l i []).length = n := by
  rw [nth, List.getD_eq_getElem _ _ hi]
  exact h _ (List.getElem_mem hi)

/-- A write of another register leaves the first. -/
theorem nth_zero_set {α : Type} (l : List α) {i : Nat} (hi : i ≠ 0) (x d : α) : nth (l.set i x) 0 d = nth l 0 d := by
  simp only [nth, List.getD_eq_getElem?_getD, List.getElem?_set_ne hi]

theorem forall_mem_set {α : Type} {p : α → Prop} {l : List α} {x : α} (h : ∀ y ∈ l, p y) (hx : p x) (i : Nat) : ∀ y ∈ l.set i x, p y := by
  intro y hy
  rcases List.mem_or_eq_of_mem_set hy with hy | rfl
  · exact h y hy
  · exact hx

section
variable {r : Regs} (hr : r.wf = true)
include hr

theorem Regs.length_vreg {i : Nat} (hi : i < 32) : (r.vreg i).length = 512 := by
  obtain ⟨⟨hlen, hall⟩, -⟩ := r.wf_iff.mp hr
  exact length_nth_of_forall hall (hlen ▸ hi)

theorem Regs.length_preg (i : Nat) : (r.preg i).length = 512 := by
  obtain ⟨-, -, ⟨hlen, hall, -⟩, -⟩ := r.wf_iff.mp hr
  exact length_nth_of_forall hall (Nat.lt_of_lt_of_eq (Nat.mod_lt i (by decide)) hlen.symm)

theorem Regs.length_gate (pred : Nat) (pnot : Bool) : (r.gate pred pnot).length = 512 := by
  rw [Regs.gate, List.length_map, Regs.length_preg hr]

/-- S0 ignores writes, and the other scalars leave it zero. -/
theorem Regs.wf_setS (i x : Nat) : (r.setS i x).wf = true := by
  obtain ⟨hv, ⟨hlen, hzero⟩, hp, hacc⟩ := r.wf_iff.mp hr
  unfold Regs.setS
  split
  case isTrue => exact hr
  case isFalse hi => exact (Regs.wf_iff _).mpr ⟨hv, ⟨by simpa using hlen, by rw [nth_zero_set _ hi, hzero]⟩, hp, hacc⟩

/-- A vector register written lane by lane keeps its 512 lanes. -/
theorem Regs.wf_setV {d : Nat} {g : List Bool} {xs : List Nat} (hd : d < 32) (hg : g.length = 512) (hx : xs.length = 512) : (r.setV d g xs).wf = true := by
  obtain ⟨⟨hlen, hall⟩, hs, hp, hacc⟩ := r.wf_iff.mp hr
  refine (Regs.wf_iff _).mpr ⟨⟨by simpa [Regs.setV] using hlen, forall_mem_set hall ?_ d⟩, hs, hp, hacc⟩
  simp [hg, hx, Regs.length_vreg hr hd]

/-- P0 ignores writes, and the other predicates leave it all ones. -/
theorem Regs.wf_setP (i : Nat) {x : List Bool} (hx : x.length = 512) : (r.setP i x).wf = true := by
  obtain ⟨hv, hs, ⟨hlen, hall, hones⟩, hacc⟩ := r.wf_iff.mp hr
  unfold Regs.setP
  split
  case isTrue => exact hr
  case isFalse hi => exact (Regs.wf_iff _).mpr ⟨hv, hs, ⟨by simpa using hlen, forall_mem_set hall hx _, by rw [nth_zero_set _ hi, hones]⟩, hacc⟩

theorem Regs.wf_setAcc {acc : List Word} (hacc : acc.length = 1024) (pc : Nat) : ({ r with acc := acc, pc := pc } : Regs).wf = true := by
  obtain ⟨hv, hs, hp, -⟩ := r.wf_iff.mp hr
  exact (Regs.wf_iff _).mpr ⟨hv, hs, hp, hacc⟩

end

/-! The pc, the loops and OUT are no part of the register file. -/

@[simp] theorem Regs.wf_next (r : Regs) : r.next.wf = r.wf := rfl
@[simp] theorem Regs.wf_settle (r : Regs) : r.settle.wf = r.wf := rfl
@[simp] theorem Regs.wf_setPc (r : Regs) (pc : Nat) : ({ r with pc := pc } : Regs).wf = r.wf := rfl
@[simp] theorem Regs.wf_setLoops (r : Regs) (pc : Nat) (ls : List (Nat × Nat × Nat)) : ({ r with pc := pc, loops := ls } : Regs).wf = r.wf := rfl
@[simp] theorem Regs.wf_putOut (r : Regs) (env : Env) (es : List (Nat × Nat)) : (r.putOut env es).1.wf = r.wf := rfl
@[simp] theorem storeLanes_wf (env : Env) (b : Bench) (r : Regs) (i : GForm) (f : Nat → Nat → Nat) : (storeLanes env b r i f).2.wf = r.wf := by
  rw [storeLanes, Regs.wf_next, Regs.wf_putOut]

/-! ### Fields of an instruction's word -/

theorem Fld.get_lt (f : Fld) (v : Nat) : f.get v < 2 ^ f.width := Nat.mod_lt _ (Nat.two_pow_pos _)

/-- The fields of any word are those of a well-formed instruction (R254). -/
theorem gFields_wf (w : Nat) : (gFields w).wf = true :=
  decide_eq_true ⟨Fld.get_lt InsnWord.pred w, Fld.get_lt InsnWord.d w, Fld.get_lt InsnWord.a w, Fld.get_lt InsnWord.b w, Fld.get_lt InsnWord.c w⟩

theorem iFields_wf (w : Nat) : (iFields w).wf = true :=
  decide_eq_true ⟨Fld.get_lt InsnWord.pred w, Fld.get_lt InsnWord.d w, Fld.get_lt InsnWord.a w, Fld.get_lt InsnWord.b w, Fld.get_lt InsnWord.imm w⟩

/-! ### Instructions -/

/-- The instruction answers registers whatever it reads, well-formed ones of well-formed ones. -/
def KeepsRegs (sem : Sem) : Prop := ∀ env rd b r, r.wf = true → ∃ x, sem env rd b r = .ok x ∧ x.2.wf = true

theorem keepsRegs_semLoop (i : IForm) : KeepsRegs (semLoop i) := fun env rd b r hr => ⟨_, semLoop_eq i env rd b r, by split <;> exact hr⟩
theorem keepsRegs_semBrz (i : IForm) : KeepsRegs (semBrz i) := fun _ _ _ _ hr => ⟨_, rfl, hr⟩
theorem keepsRegs_semBrnz (i : IForm) : KeepsRegs (semBrnz i) := fun _ _ _ _ hr => ⟨_, rfl, hr⟩
theorem keepsRegs_semSli (i : IForm) : KeepsRegs (semSli i) := fun _ _ _ _ hr => ⟨_, rfl, Regs.wf_setS hr ..⟩
theorem keepsRegs_semSadd (i : GForm) : KeepsRegs (semSadd i) := fun _ _ _ _ hr => ⟨_, rfl, Regs.wf_setS hr ..⟩
theorem keepsRegs_semSaddi (i : IForm) : KeepsRegs (semSaddi i) := fun _ _ _ _ hr => ⟨_, rfl, Regs.wf_setS hr ..⟩
theorem keepsRegs_semSmul (i : GForm) : KeepsRegs (semSmul i) := fun _ _ _ _ hr => ⟨_, rfl, Regs.wf_setS hr ..⟩
theorem keepsRegs_semSshr (i : IForm) : KeepsRegs (semSshr i) := fun _ _ _ _ hr => ⟨_, rfl, Regs.wf_setS hr ..⟩
theorem keepsRegs_semSand (i : GForm) : KeepsRegs (semSand i) := fun _ _ _ _ hr => ⟨_, rfl, Regs.wf_setS hr ..⟩
theorem keepsRegs_semSldk (i : IForm) : KeepsRegs (semSldk i) := fun _ _ _ _ hr => ⟨_, rfl, Regs.wf_setS hr ..⟩

theorem keepsRegs_semVstd (i : IForm) : KeepsRegs (semVstd i) := fun _ _ _ _ hr => ⟨_, rfl, hr⟩
theorem keepsRegs_semMz : KeepsRegs semMz := fun _ _ _ _ hr => ⟨_, rfl, Regs.wf_setAcc hr List.length_replicate _⟩
theorem keepsRegs_semVst (i : GForm) : KeepsRegs (semVst i) := fun _ _ _ _ hr => ⟨_, rfl, (storeLanes_wf ..).trans hr⟩
theorem keepsRegs_semVstf (i : GForm) : KeepsRegs (semVstf i) := fun _ _ _ _ hr => ⟨_, rfl, (storeLanes_wf ..).trans hr⟩
theorem keepsRegs_semMst (i : GForm) : KeepsRegs (semMst i) := by
  intro env rd b r hr
  refine ⟨_, rfl, ?_⟩
  rw [Regs.wf_next, Regs.wf_putOut, hr]

section
variable {i : IForm} (hi : i.wf = true)
include hi

theorem keepsRegs_semVldd : KeepsRegs (semVldd i) := by
  intro env rd b r hr
  obtain ⟨-, hd, -⟩ := of_decide_eq_true hi
  exact ⟨_, rfl, Regs.wf_setV hr hd length_allLanes (length_map_lanes _)⟩

theorem keepsRegs_semVbc : KeepsRegs (semVbc i) := by
  intro env rd b r hr
  obtain ⟨-, hd, -⟩ := of_decide_eq_true hi
  exact ⟨_, rfl, Regs.wf_setV hr hd length_allLanes (length_map_lanes _)⟩

theorem keepsRegs_semVqf : KeepsRegs (semVqf i) := by
  intro env rd b r hr
  obtain ⟨-, hd, ha, -⟩ := of_decide_eq_true hi
  exact ⟨_, rfl, Regs.wf_setV hr hd (Regs.length_gate hr ..) (by simp [Regs.length_vreg hr ha])⟩

end

section
variable {i : GForm} (hi : i.wf = true)
include hi

theorem keepsRegs_semVbcs : KeepsRegs (semVbcs i) := by
  intro env rd b r hr
  obtain ⟨-, hd, -⟩ := of_decide_eq_true hi
  exact ⟨_, rfl, Regs.wf_setV hr hd length_allLanes (length_map_lanes _)⟩

theorem keepsRegs_semVrand : KeepsRegs (semVrand i) := by
  intro env rd b r hr
  obtain ⟨-, hd, -⟩ := of_decide_eq_true hi
  exact ⟨_, rfl, Regs.wf_setV hr hd length_allLanes (length_map_lanes _)⟩

theorem keepsRegs_sem1 (f : NMode → Bool → Nat → Nat) : KeepsRegs (sem1 f i) := by
  intro env rd b r hr
  obtain ⟨-, hd, ha, -⟩ := of_decide_eq_true hi
  exact ⟨_, rfl, Regs.wf_setV hr hd (Regs.length_gate hr ..) (by simp [Regs.length_vreg hr ha])⟩

theorem keepsRegs_sem2 (f : NMode → Bool → Nat → Nat → Nat) : KeepsRegs (sem2 f i) := by
  intro env rd b r hr
  obtain ⟨-, hd, ha, hb, -⟩ := of_decide_eq_true hi
  exact ⟨_, rfl, Regs.wf_setV hr hd (Regs.length_gate hr ..) (by simp [Regs.length_vreg hr ha, Regs.length_vreg hr hb])⟩

theorem keepsRegs_semVfma : KeepsRegs (semVfma i) := by
  intro env rd b r hr
  obtain ⟨-, hd, ha, hb, hc⟩ := of_decide_eq_true hi
  exact ⟨_, rfl, Regs.wf_setV hr hd (Regs.length_gate hr ..) (by simp [Regs.length_vreg hr ha, Regs.length_vreg hr hb, Regs.length_vreg hr hc])⟩

theorem keepsRegs_semCmp (f : NMode → Nat → Nat → Bool) : KeepsRegs (semCmp f i) := by
  intro env rd b r hr
  obtain ⟨-, -, ha, hb, -⟩ := of_decide_eq_true hi
  exact ⟨_, rfl, Regs.wf_setP hr _ (by simp [Regs.length_vreg hr ha, Regs.length_vreg hr hb, Regs.length_gate hr, Regs.length_preg hr])⟩

theorem keepsRegs_semVsel : KeepsRegs (semVsel i) := by
  intro env rd b r hr
  obtain ⟨-, hd, ha, hb, -⟩ := of_decide_eq_true hi
  exact ⟨_, rfl, Regs.wf_setV hr hd (Regs.length_gate hr ..) (by simp [Regs.length_vreg hr ha, Regs.length_vreg hr hb, Regs.length_preg hr])⟩

theorem keepsRegs_semVmov : KeepsRegs (semVmov i) := by
  intro env rd b r hr
  obtain ⟨-, hd, ha, -⟩ := of_decide_eq_true hi
  exact ⟨_, rfl, Regs.wf_setV hr hd (Regs.length_gate hr ..) (by simp [Regs.length_vreg hr ha])⟩

theorem keepsRegs_semVsr : KeepsRegs (semVsr i) := by
  intro env rd b r hr
  obtain ⟨-, hd, ha, hb, -⟩ := of_decide_eq_true hi
  exact ⟨_, rfl, Regs.wf_setV hr hd (Regs.length_gate hr ..) (by simp [Regs.length_vreg hr ha, Regs.length_vreg hr hb])⟩

theorem keepsRegs_semVrsum : KeepsRegs (semVrsum i) := by
  intro env rd b r hr
  obtain ⟨-, hd, -⟩ := of_decide_eq_true hi
  exact ⟨_, rfl, Regs.wf_setV hr hd (Regs.length_gate hr ..) (length_map_lanes _)⟩

/-- VRMAX writes where a lane is active, and leaves its destination where none is. -/
theorem keepsRegs_semVrmax : KeepsRegs (semVrmax i) := by
  intro env rd b r hr
  obtain ⟨-, hd, -⟩ := of_decide_eq_true hi
  cases hact : (active (r.gate i.pred i.pnot) (nats (r.vreg i.a))).filterMap id with
  | nil => exact ⟨_, semVrmax_of_none hact, hr⟩
  | cons k ks => exact ⟨_, semVrmax_of_cons hact, Regs.wf_setV hr hd (Regs.length_gate hr ..) (length_map_lanes _)⟩

/-- VLD writes its destination alone. -/
theorem semVld_wf {s : State} {env : Env} {rd : Reader} {b : Bench} {r : Regs} {x : Bench × Regs} (hr : r.wf = true) (h : semVld s i env rd b r = .ok x) : x.2.wf = true := by
  obtain ⟨-, hd, -⟩ := of_decide_eq_true hi
  unfold semVld at h
  dsimp only at h
  split at h
  · cases h
  · cases h
    exact Regs.wf_setV hr hd (Regs.length_gate hr ..) (length_map_lanes _)

end

/-- MMA writes the accumulators alone. -/
theorem semMma_wf {s : State} {i : GForm} {env : Env} {rd : Reader} {b : Bench} {r : Regs} {x : Bench × Regs} (hr : r.wf = true) (h : semMma s i env rd b r = .ok x) :
    x.2.wf = true := by
  obtain ⟨acc, hacc, hx⟩ := semMma_frame h
  rw [hx]
  exact Regs.wf_setAcc hr hacc _

end Sys2Proof.Machine
end

section
/-! PROOFS. An engine that runs an instruction keeps every engine's register file well formed (O56). -/

namespace Sys2Proof.Machine

/-! ### The engines are out of reach of what an instruction counts -/

@[simp] theorem State.store_engines (s : State) (a : Nat) (bs : List Byte) : (s.store a bs).engines = s.engines := by
  obtain ⟨m, c, h, -, -⟩ := State.store_eq s a bs
  rw [h]

@[simp] theorem State.setFld_engines (s : State) (a : Nat) (f : Fld) (v : Nat) : (s.setFld a f v).engines = s.engines := State.store_engines _ _ _

@[simp] theorem State.ringWrite_engines (s : State) (r : Nat) : (s.ringWrite r).engines = s.engines := by
  unfold State.ringWrite
  dsimp only
  rw [State.setCh_engines]
  split
  · split <;> rfl
  · exact State.store_engines ..

@[simp] theorem State.raise_engines (s : State) (e : Ev) : (s.raise e).engines = s.engines := by
  unfold State.raise
  dsimp only
  split
  · unfold State.holdChain
    dsimp only
    repeat' split
    all_goals simp only [State.countSticky_engines, State.wake_engines, State.out_engines, State.blobChanged_engines]
  · unfold State.ringChain
    dsimp only
    split
    · rw [State.out_engines, foldl_keeps State.engines State.ringWrite_engines]
    · rfl

@[simp] theorem State.soundStream_engines (s : State) (n : Nat) (f : Fld) (k : Nat) : (s.soundStream n f k).engines = s.engines := by
  unfold State.soundStream State.sound
  split
  · rfl
  · exact State.setFld_engines ..

@[simp] theorem State.noteCounts_engines (s : State) (e task stream : Nat) (seen : Bool) (b : Bench) : (s.noteCounts e task stream seen b).engines = s.engines := by
  unfold State.noteCounts
  dsimp only
  repeat' split
  all_goals simp only [State.raise_engines, State.countSticky_engines, State.count_engines, State.soundStream_engines]

@[simp] theorem State.benchCounts_engines (s : State) (e : Nat) (v : Invocation) (b : Bench) : (s.benchCounts e v b).engines = s.engines := State.noteCounts_engines ..

/-! ### The table of the engines -/

theorem SMap.mem_of_find {α : Type} {m : SMap α} {i : Nat} {x : α} (h : m.find i = some x) : (i, x) ∈ m := by
  induction m with
  | nil => cases h
  | cons p m ih =>
    obtain ⟨k, y⟩ := p
    rw [SMap.find] at h
    split at h
    case isTrue hk =>
      cases h
      exact hk ▸ List.mem_cons_self
    case isFalse => exact List.mem_cons_of_mem _ (ih h)

theorem SMap.mem_put {α : Type} {m : SMap α} {i : Nat} {x : α} {p : Nat × α} (h : p ∈ m.put i x) : p = (i, x) ∨ p ∈ m := by
  induction m with
  | nil => exact .inl (List.mem_singleton.mp h)
  | cons q m ih =>
    obtain ⟨k, y⟩ := q
    rw [SMap.put] at h
    split at h
    · exact List.mem_cons.mp h
    · split at h
      · exact (List.mem_cons.mp h).imp_right (List.mem_cons_of_mem _)
      · rcases List.mem_cons.mp h with rfl | h
        · exact .inr List.mem_cons_self
        · exact (ih h).imp_right (List.mem_cons_of_mem _)

section
variable {s : State} (h : s.enginesWf = true)
include h

theorem State.regs_wf_engine (e : Nat) : (s.engine e).regs.wf = true := by
  unfold State.engine SMap.getD
  split
  case h_1 g hg => exact List.all_eq_true.mp h _ (SMap.mem_of_find hg)
  case h_2 => exact Regs.wf_reset

theorem State.enginesWf_setEngine (e : Nat) {g : Engine} (hg : g.regs.wf = true) : (s.setEngine e g).enginesWf = true := by
  refine List.all_eq_true.mpr (fun p hp => ?_)
  rcases SMap.mem_put hp with rfl | hp
  · exact hg
  · exact List.all_eq_true.mp h p hp

theorem State.enginesWf_afterInsn (e : Nat) (v : Invocation) (b : Bench) {r : Regs} (hr : r.wf = true) : (s.afterInsn e v b r).enginesWf = true := by
  rw [State.enginesWf, State.afterInsn, State.benchCounts_engines]
  exact State.enginesWf_setEngine h e hr

end

/-! ### Instructions -/

/-- Nothing happens where the pc does not name the instruction. -/
theorem State.shoal_of_not_insnAt {s : State} {e w : Nat} (h : ∀ v, ¬ s.InsnAt e w v) (sem : State → Sem) : s.shoal e w sem = s := by
  unfold State.shoal
  dsimp only
  split
  · rfl
  · next v hrun => exact if_pos (fun hw => h v ⟨hrun, hw⟩)

section
variable {s : State} (h : s.enginesWf = true) {e op : Nat} {sem : State → Sem}
include h

/-- An instruction of the register form keeps the register files well formed where it answers a well-formed one. -/
theorem State.enginesWf_shoalG {i : GForm}
    (hsem : i.wf = true → ∀ v, s.InsnAt e (gWord op i) v → ∃ x, sem s (s.engineEnv e v) s.reader (s.insnBench e v) (s.engine e).regs = .ok x ∧ x.2.wf = true) :
    (s.shoalG e op i sem).enginesWf = true := by
  by_cases hf : gFields (gWord op i) = i
  · by_cases hat : ∃ v, s.InsnAt e (gWord op i) v
    · obtain ⟨v, hat⟩ := hat
      obtain ⟨x, hx, hwf⟩ := hsem (hf ▸ gFields_wf _) v hat
      rw [State.shoalG_runs hf hat hx]
      exact State.enginesWf_afterInsn h e v x.1 hwf
    · rw [State.shoalG, if_pos hf, State.shoal_of_not_insnAt (not_exists.mp hat)]
      exact h
  · rw [State.shoalG, if_neg hf]
    exact h

/-- The same of the immediate form. -/
theorem State.enginesWf_shoalI {i : IForm}
    (hsem : i.wf = true → ∀ v, s.InsnAt e (iWord op i) v → ∃ x, sem s (s.engineEnv e v) s.reader (s.insnBench e v) (s.engine e).regs = .ok x ∧ x.2.wf = true) :
    (s.shoalI e op i sem).enginesWf = true := by
  by_cases hf : iFields (iWord op i) = i
  · by_cases hat : ∃ v, s.InsnAt e (iWord op i) v
    · obtain ⟨v, hat⟩ := hat
      obtain ⟨x, hx, hwf⟩ := hsem (hf ▸ iFields_wf _) v hat
      rw [State.shoalI_runs hf hat hx]
      exact State.enginesWf_afterInsn h e v x.1 hwf
    · rw [State.shoalI, if_pos hf, State.shoal_of_not_insnAt (not_exists.mp hat)]
      exact h
  · rw [State.shoalI, if_neg hf]
    exact h

end

/-- The command is an instruction of engine `e` that answers registers whatever it reads. -/
def RunsKeepingRegs (c : Instr) (e : Nat) : Prop :=
  (∃ op i sem, (∀ s, exec c s = .next (s.shoalG e op i (fun _ => sem))) ∧ (i.wf = true → KeepsRegs sem))
    ∨ ∃ op i sem, (∀ s, exec c s = .next (s.shoalI e op i (fun _ => sem))) ∧ (i.wf = true → KeepsRegs sem)

theorem RunsKeepingRegs.enginesWf {c : Instr} {e : Nat} (hc : RunsKeepingRegs c e) {s t : State} (h : s.enginesWf = true) (ht : exec c s = .next t) : t.enginesWf = true := by
  have hregs := State.regs_wf_engine h e
  obtain ⟨op, i, sem, hexec, hkeeps⟩ | ⟨op, i, sem, hexec, hkeeps⟩ := hc
  · cases (hexec s).symm.trans ht
    exact State.enginesWf_shoalG h (fun hi v _ => hkeeps hi _ _ _ _ hregs)
  · cases (hexec s).symm.trans ht
    exact State.enginesWf_shoalI h (fun hi v _ => hkeeps hi _ _ _ _ hregs)

theorem RunsKeepingRegs.ofG {c : Instr} {d e op : Nat} {i : GForm} {sem : Sem} (hc : ∀ s, exec c s = .next (s.shoalG d op i (fun _ => sem)))
    (hk : i.wf = true → KeepsRegs sem) (he : some d = some e) : RunsKeepingRegs c e := Option.some.inj he ▸ .inl ⟨op, i, sem, hc, hk⟩

theorem RunsKeepingRegs.ofI {c : Instr} {d e op : Nat} {i : IForm} {sem : Sem} (hc : ∀ s, exec c s = .next (s.shoalI d op i (fun _ => sem)))
    (hk : i.wf = true → KeepsRegs sem) (he : some d = some e) : RunsKeepingRegs c e := Option.some.inj he ▸ .inr ⟨op, i, sem, hc, hk⟩

/-- Every instruction that reads no source and writes no OUT is one of these. -/
theorem runsKeepingRegs_of_laneInsn {c : Instr} {e : Nat} (h : Instr.laneInsn c = some e) : RunsKeepingRegs c e := by
  cases c with
  | loop d i => exact .ofI (exec_loop d · i) (fun _ => keepsRegs_semLoop i) h
  | brz d i => exact .ofI (exec_brz d · i) (fun _ => keepsRegs_semBrz i) h
  | brnz d i => exact .ofI (exec_brnz d · i) (fun _ => keepsRegs_semBrnz i) h
  | sli d i => exact .ofI (exec_sli d · i) (fun _ => keepsRegs_semSli i) h
  | saddi d i => exact .ofI (exec_saddi d · i) (fun _ => keepsRegs_semSaddi i) h
  | sshr d i => exact .ofI (exec_sshr d · i) (fun _ => keepsRegs_semSshr i) h
  | sldk d i => exact .ofI (exec_sldk d · i) (fun _ => keepsRegs_semSldk i) h
  | vldd d i => exact .ofI (exec_vldd d · i) keepsRegs_semVldd h
  | vstd d i => exact .ofI (exec_vstd d · i) (fun _ => keepsRegs_semVstd i) h
  | vbc d i => exact .ofI (exec_vbc d · i) keepsRegs_semVbc h
  | vqf d i => exact .ofI (exec_vqf d · i) keepsRegs_semVqf h
  | mz d i => exact .ofI (exec_mz d · i) (fun _ => keepsRegs_semMz) h
  | sadd d i => exact .ofG (exec_sadd d · i) (fun _ => keepsRegs_semSadd i) h
  | smul d i => exact .ofG (exec_smul d · i) (fun _ => keepsRegs_semSmul i) h
  | sand d i => exact .ofG (exec_sand d · i) (fun _ => keepsRegs_semSand i) h
  | vbcs d i => exact .ofG (exec_vbcs d · i) keepsRegs_semVbcs h
  | vrand d i => exact .ofG (exec_vrand d · i) keepsRegs_semVrand h
  | vult d i => exact .ofG (exec_vult d · i) (keepsRegs_semCmp · _) h
  | vadd d i => exact .ofG (exec_vadd d · i) (keepsRegs_sem2 · _) h
  | vsub d i => exact .ofG (exec_vsub d · i) (keepsRegs_sem2 · _) h
  | vmul d i => exact .ofG (exec_vmul d · i) (keepsRegs_sem2 · _) h
  | vfma d i => exact .ofG (exec_vfma d · i) keepsRegs_semVfma h
  | vmax d i => exact .ofG (exec_vmax d · i) (keepsRegs_sem2 · _) h
  | vmin d i => exact .ofG (exec_vmin d · i) (keepsRegs_sem2 · _) h
  | vabs d i => exact .ofG (exec_vabs d · i) (keepsRegs_sem1 · _) h
  | vneg d i => exact .ofG (exec_vneg d · i) (keepsRegs_sem1 · _) h
  | vdiv d i => exact .ofG (exec_vdiv d · i) (keepsRegs_sem2 · _) h
  | vsqrt d i => exact .ofG (exec_vsqrt d · i) (keepsRegs_sem1 · _) h
  | vrsqrt d i => exact .ofG (exec_vrsqrt d · i) (keepsRegs_sem1 · _) h
  | vexp d i => exact .ofG (exec_vexp d · i) (keepsRegs_sem1 · _) h
  | vlog d i => exact .ofG (exec_vlog d · i) (keepsRegs_sem1 · _) h
  | vtanh d i => exact .ofG (exec_vtanh d · i) (keepsRegs_sem1 · _) h
  | verf d i => exact .ofG (exec_verf d · i) (keepsRegs_sem1 · _) h
  | vsigm d i => exact .ofG (exec_vsigm d · i) (keepsRegs_sem1 · _) h
  | vcgt d i => exact .ofG (exec_vcgt d · i) (keepsRegs_semCmp · _) h
  | vcge d i => exact .ofG (exec_vcge d · i) (keepsRegs_semCmp · _) h
  | vceq d i => exact .ofG (exec_vceq d · i) (keepsRegs_semCmp · _) h
  | vsel d i => exact .ofG (exec_vsel d · i) keepsRegs_semVsel h
  | vmov d i => exact .ofG (exec_vmov d · i) keepsRegs_semVmov h
  | vsr d i => exact .ofG (exec_vsr d · i) keepsRegs_semVsr h
  | vrsum d i => exact .ofG (exec_vrsum d · i) keepsRegs_semVrsum h
  | vrmax d i => exact .ofG (exec_vrmax d · i) keepsRegs_semVrmax h
  | _ => cases h

/-- Settles O56: the instruction's registers are well formed whatever it reads, or, of VLD and MMA, where their ports answer; every other engine keeps its own. -/
theorem registerFilesStayWellFormed : Obligations.RegisterFilesStayWellFormed := by
  intro s t hs
  refine ⟨fun c rest e hpending hlane hstep => ?_, fun e i hexec => ?_, fun e i v x hat hx hexec => ?_, fun e i v x hat hx hexec => ?_⟩
  · rw [step_of_pending_cons hpending] at hstep
    have hrest : State.enginesWf { s with pending := rest } = true := hs
    exact (runsKeepingRegs_of_laneInsn hlane).enginesWf hrest hstep
  · have hkeeps : ∀ {c}, RunsKeepingRegs c e → exec c s = .next t → t.enginesWf = true := fun hc => hc.enginesWf hs
    rcases hexec with h | h | h
    · exact hkeeps (.ofG (exec_vst e · i) (fun _ => keepsRegs_semVst i) rfl) h
    · exact hkeeps (.ofG (exec_vstf e · i) (fun _ => keepsRegs_semVstf i) rfl) h
    · exact hkeeps (.ofG (exec_mst e · i) (fun _ => keepsRegs_semMst i) rfl) h
  · cases (exec_vld e s i).symm.trans hexec
    refine State.enginesWf_shoalG hs (fun hi w hat' => ⟨x, ?_, semVld_wf hi (State.regs_wf_engine hs e) hx⟩)
    cases hat.1.symm.trans hat'.1
    exact hx
  · cases (exec_mma e s i).symm.trans hexec
    refine State.enginesWf_shoalG hs (fun _ w hat' => ⟨x, ?_, semMma_wf (State.regs_wf_engine hs e) hx⟩)
    cases hat.1.symm.trans hat'.1
    exact hx

end Sys2Proof.Machine
end

section
/-! PROOFS. What a command does on a buoy, and BIND, UNBIND and RESET (O3, O20, O52, O53). -/

namespace Sys2Proof.Machine

/-! ### The answer of a buoy to an operation -/

section
variable {s u : State} {ctx name n k : Nat} {b : Buoy} (hu : u = s.translates) (hn : n ≠ 0) (hfind : u.findBuoy ctx name = some (k, b)) (hlost : b.lost = false)
  (hkind : b.kind = Bk.semaphore)
include hu hn hfind hlost hkind

/-- Units that fit below LIMIT are added, and the waiters served (R284). -/
theorem State.signal_within (hle : b.count + n ≤ b.limit) :
    s.signal ctx name n = (((u.setBuoy k { b with count := b.count + n }).noteSignal k).serve k, .ended St.success 0) := by
  subst hu
  simp only [State.signal, hn, hfind, hlost, hkind, Nat.not_lt.mpr hle, Bool.false_eq_true, ne_eq, not_true_eq_false, if_false]

/-- Units that do not fit below LIMIT are an error (R286). -/
theorem State.signal_above (hlt : b.limit < b.count + n) : s.signal ctx name n = u.buoyError k ctx name 5 1 n := by
  subst hu
  simp only [State.signal, hn, hfind, hlost, hkind, hlt, Bool.false_eq_true, ne_eq, not_true_eq_false, if_false, if_true]

/-- Units that LIMIT allows are taken at once where they are there and nobody waits, and otherwise waited for, last in line (R284, R285). -/
theorem State.waitOn_within (who : Who) (hle : n ≤ b.limit) :
    s.waitOn ctx name n who = if b.waiters.isEmpty ∧ n ≤ b.count then (u.setBuoy k { b with count := b.count - n }, .ended St.success 0)
      else (u.setBuoy k { b with waiters := b.waiters ++ [⟨who, n⟩] }, .waits) := by
  subst hu
  simp only [State.waitOn, hn, hfind, hlost, hkind, Nat.not_lt.mpr hle, Bool.false_eq_true, ne_eq, not_true_eq_false, if_false]

/-- More units than LIMIT are never there: a WAIT for them is an error (R286). -/
theorem State.waitOn_above (who : Who) (hlt : b.limit < n) : s.waitOn ctx name n who = u.buoyError k ctx name 6 2 n := by
  subst hu
  simp only [State.waitOn, hn, hfind, hlost, hkind, hlt, Bool.false_eq_true, ne_eq, not_true_eq_false, if_false, if_true]

end

/-- An entry of the current round that finds room joins it, and completes the round where it fills it (R289). -/
theorem State.enterBarrier_current {s u : State} {ctx name e k : Nat} {b : Buoy} (who : Who) (hu : u = s.translates) (hfind : u.findBuoy ctx name = some (k, b))
    (hlost : b.lost = false) (hkind : b.kind = Bk.barrier) (hround : e % 2 ^ 32 = b.round) (hroom : b.entries.length < b.participants) :
    s.enterBarrier ctx name e who = (State.roundComplete 3 (u.setBuoy k { b with entries := b.entries ++ [⟨who, 1⟩] }) k, .waits) := by
  have hcurrent : (e + 2 ^ 32 - b.round) % 2 ^ 32 = 0 := by omega
  subst hu
  simp only [State.enterBarrier, hfind, hlost, hkind, hcurrent, Nat.not_le.mpr hroom, Bool.false_eq_true, ne_eq, not_true_eq_false, if_false, if_true]

/-! ### A command on its buoy -/

/-- The tag by which a command is found is its own. -/
theorem State.tag_of_cmd {s : State} {c op : Nat} {d : Dispatched} (h : s.cmd c op = some d) : d.tag = c := by
  have hfound := List.find?_some h
  simp only [Bool.and_eq_true, beq_iff_eq] at hfound
  exact hfound.1.1

/-- A command takes the answer of its buoy: it ends, or it waits. -/
def Dispatched.take (d : Dispatched) : State × BuoyEnd → State
  | (s, .ended status detail) => s.endOnBuoy d status detail
  | (s, .waits) => s

/-- A command that meets an error of its buoy ends with BUOY_ERROR once the error is counted and reported (R292). -/
theorem Dispatched.take_buoyError {d : Dispatched} {u : State} {k ctx name cause op arg : Nat} (hevent : u.nextEvent ≠ 0) :
    d.take (u.buoyError k ctx name cause op arg) =
      ((u.countSticky Ch.buoyErrors).raise ⟨0x0501, k, name + cause * 2 ^ 32 + op * 2 ^ 40, arg, some ctx, []⟩).endCmd d St.buoyError u.nextEvent := by
  have hsuccess : St.buoyError ≠ St.success := by decide
  have hobject : St.buoyError ≠ St.noObject := by decide
  simp only [State.buoyError, Dispatched.take, State.endOnBuoy, State.endWith, hsuccess, hobject, hevent, if_false]

section
variable {c : Nat} {s : State} {d : Dispatched} (hready : d.stage = .ready) (hcount : cmdGet d.word CmdBuoy.count ≠ 0) (haway : s.buoyAway d.word = false)
include hready hcount haway

/-- A ready SIGNAL acts on the local buoy it names, the use of a running plan's name reported (R288). -/
theorem exec_signal_ready (hcmd : s.cmd c Op.signal = some d) :
    exec (.signal c) s = .next (d.take ((s.meetsPlan d.queue (s.cmdContext d) (cmdGet d.word CmdBuoy.buoy)).signal (s.cmdContext d) (cmdGet d.word CmdBuoy.buoy)
      (cmdGet d.word CmdBuoy.count))) := by
  show execSignal c s = _
  simp only [execSignal, hcmd, hready, hcount, haway, Bool.false_eq_true, if_false]
  split <;> next h => rw [h]; rfl

/-- A ready WAIT or entry is left waiting, and acts on the local buoy it names. -/
theorem State.waitRow_ready (op n : Nat) (act : State → State × BuoyEnd) :
    s.waitRow d op n act = d.take (act ((s.setStage d.tag .waiting 0).meetsPlan d.queue (s.cmdContext d) (cmdGet d.word CmdBuoy.buoy))) := by
  simp only [State.waitRow, hready, hcount, haway, Bool.false_eq_true, if_false]
  split <;> next h => rw [h]; rfl

variable (hcmd : s.cmd c Op.wait = some d)
include hcmd

theorem exec_wait_ready (hkind : cmdGet d.word CmdBuoy.barrier = 0) :
    exec (.wait c) s = .next (d.take (((s.setStage c .waiting 0).meetsPlan d.queue (s.cmdContext d) (cmdGet d.word CmdBuoy.buoy)).waitOn (s.cmdContext d)
      (cmdGet d.word CmdBuoy.buoy) (cmdGet d.word CmdBuoy.count) (.cmd c))) := by
  show execWait c s = _
  simp only [execWait, hcmd, Option.filter_some, hkind, beq_self_eq_true, if_true]
  rw [State.waitRow_ready hready hcount haway, State.tag_of_cmd hcmd]

theorem exec_barrierEntry_ready (hkind : cmdGet d.word CmdBuoy.barrier = 1) :
    exec (.barrierEntry c) s = .next (d.take (((s.setStage c .waiting 0).meetsPlan d.queue (s.cmdContext d) (cmdGet d.word CmdBuoy.buoy)).enterBarrier (s.cmdContext d)
      (cmdGet d.word CmdBuoy.buoy) (cmdGet d.word CmdBuoy.round) (.cmd c))) := by
  show execBarrierEntry c s = _
  simp only [execBarrierEntry, hcmd, Option.filter_some, hkind, beq_self_eq_true, if_true]
  rw [State.waitRow_ready hready hcount haway, State.tag_of_cmd hcmd]

end

/-- Settles O3: each command by what its buoy answers. -/
theorem buoyCommandsComplete : Obligations.BuoyCommandsComplete := by
  intro c k s u v d b hready haway hcount hlost hu hv
  refine ⟨fun hcmd hfind hkind hle => ?_, fun hcmd hfind hbarrier hkind hle => ?_, fun hcmd hfind hbarrier hkind hround hlt hroom => ?_⟩
  · rw [exec_signal_ready hready hcount haway hcmd, State.signal_within hu hcount hfind hlost hkind hle]
    rfl
  · rw [exec_wait_ready hready hcount haway hcmd hbarrier, State.waitOn_within hv hcount hfind hlost hkind _ hle]
    split <;> rfl
  · rw [Nat.mod_eq_of_lt hlt] at hround
    rw [exec_barrierEntry_ready hready hcount haway hcmd hbarrier, State.enterBarrier_current _ hv hfind hlost hkind hround hroom]
    rfl

/-- Settles O52: both commands take the error that their semaphore answers. -/
theorem buoyErrorsEndCommands : Obligations.BuoyErrorsEndCommands := by
  intro s u v c k n name d b hready haway hname hn hcount hu hv hlost hkind
  subst hname hn
  refine ⟨fun hcmd hfind hevent hlt => ?_, fun hcmd hfind hevent hbarrier hlt => ?_⟩
  · rw [exec_signal_ready hready hcount haway hcmd, State.signal_above hu hcount hfind hlost hkind hlt, Dispatched.take_buoyError hevent]
  · rw [exec_wait_ready hready hcount haway hcmd hbarrier, State.waitOn_above hv hcount hfind hlost hkind _ hlt, Dispatched.take_buoyError hevent]

/-! ### Rounds of a barrier (R290) -/

/-- A value put in a table replaces the one put there before. -/
theorem SMap.put_put {α : Type} (m : SMap α) (i : Nat) (v w : α) : (m.put i v).put i w = m.put i w := by
  induction m with
  | nil => simp [SMap.put]
  | cons e m ih =>
    obtain ⟨j, x⟩ := e
    rcases Nat.lt_trichotomy i j with h | h | h
    · simp [SMap.put, h]
    · simp [SMap.put, h]
    · simp [SMap.put, Nat.lt_asymm h, Nat.ne_of_gt h, ih]

theorem State.setBuoy_setBuoy (s : State) (k : Nat) (b b' : Buoy) : (s.setBuoy k b).setBuoy k b' = s.setBuoy k b' := by
  simp only [State.setBuoy, SMap.put_put]

theorem State.find_setBuoy (s : State) (k : Nat) (b : Buoy) : (s.setBuoy k b).buoys.find k = some b := SMap.find_put_self ..

/-- An answer to a waiter is for its command, or leaves as a message. -/
theorem State.releaseWho_eq (s : State) (w : Who) (status detail : Nat) :
    ∃ ds cs os, s.releaseWho w status detail = { s with dispatched := ds, cascade := cs, outbox := os } := by
  cases w with
  | remote pkg op =>
    unfold State.releaseWho
    dsimp only
    split
    · exact ⟨_, _, _, rfl⟩
    · exact ⟨_, _, _, rfl⟩
  | cmd tag => exact ⟨_, _, _, rfl⟩
  | task x => exact ⟨_, _, _, rfl⟩
  | gone => exact ⟨_, _, _, rfl⟩

theorem State.releaseAll_eq (s : State) (ws : List Waiter) (status detail : Nat) :
    ∃ ds cs os, s.releaseAll ws status detail = { s with dispatched := ds, cascade := cs, outbox := os } := by
  induction ws generalizing s with
  | nil => exact ⟨_, _, _, rfl⟩
  | cons w ws ih =>
    obtain ⟨ds, cs, os, hw⟩ := s.releaseWho_eq w.who status detail
    obtain ⟨ds', cs', os', hws⟩ := ih (s.releaseWho w.who status detail)
    exact ⟨ds', cs', os', hws.trans (by rw [hw])⟩

@[simp] theorem State.releaseAll_buoys (s : State) (ws : List Waiter) (status detail : Nat) : (s.releaseAll ws status detail).buoys = s.buoys := by
  obtain ⟨ds, cs, os, h⟩ := s.releaseAll_eq ws status detail
  rw [h]

@[simp] theorem State.releaseAll_ch (s : State) (ws : List Waiter) (status detail key : Nat) : (s.releaseAll ws status detail).ch key = s.ch key := by
  obtain ⟨ds, cs, os, h⟩ := s.releaseAll_eq ws status detail
  rw [h]
  rfl

/-- A barrier with one more entry in its current round (R289). -/
def Buoy.joined (b : Buoy) (w : Waiter) : Buoy := { b with entries := b.entries ++ [w] }

/-- A barrier whose current round has completed: the parked entries make the next. -/
def Buoy.turned (b : Buoy) : Buoy := { b with round := (b.round + 1) % 2 ^ 32, entries := b.parked, parked := [] }

/-- The state in which the current round of barrier `k`, which is `b`, has completed: every entry of it is released. -/
def State.turnRound (s : State) (k : Nat) (b : Buoy) : State := (s.setBuoy k b.turned).releaseAll b.entries St.success 0

section
variable {s : State} {k : Nat} {b : Buoy} (hfind : s.buoys.find k = some b)
include hfind

/-- A round that lacks an entry goes on. -/
theorem State.roundComplete_open (fuel : Nat) (hroom : b.entries.length < b.participants) : State.roundComplete fuel s k = s := by
  cases fuel with
  | zero => rfl
  | succ fuel => simp only [State.roundComplete, hfind, Nat.not_le.mpr hroom, false_and, and_false, if_false]

/-- Outside a group a full round completes, and the next is looked at. -/
theorem State.roundComplete_full (fuel : Nat) (hkind : b.kind = Bk.barrier) (hfull : b.participants ≤ b.entries.length) (hgroup : s.ch Ch.groupId = 0) :
    State.roundComplete (fuel + 1) s k = State.roundComplete fuel (s.turnRound k b) k := by
  have hfree : s.epochHolds b = false := by simp [State.epochHolds, hgroup]
  simp only [State.roundComplete, hfind, hkind, hfull, hfree, Bool.not_false, and_self, if_true, State.turnRound, Buoy.turned]

end

theorem State.find_turnRound (s : State) (k : Nat) (b : Buoy) : (s.turnRound k b).buoys.find k = some b.turned := by
  rw [State.turnRound, State.releaseAll_buoys, State.find_setBuoy]

theorem State.ch_turnRound (s : State) (k : Nat) (b : Buoy) (key : Nat) : (s.turnRound k b).ch key = s.ch key := State.releaseAll_ch ..

/-- Settles O53: round R is full with the entry, and R + 1 where the parked ones fill it; the round after it has no entry, and PARTICIPANTS is not 0. -/
theorem roundsComplete : Obligations.RoundsComplete := by
  intro s u v c k d b hcmd hready hbarrier hcount haway hv hfind hlost hkind hround hlt hlast hgroup hu
  have hturn : (v.setBuoy k (b.joined ⟨.cmd c, 1⟩)).turnRound k (b.joined ⟨.cmd c, 1⟩) = u := by
    rw [State.turnRound, State.setBuoy_setBuoy, hu]
    rfl
  have hfull : b.participants ≤ (b.joined ⟨.cmd c, 1⟩).entries.length := by simp [Buoy.joined, hlast]
  have hcurrent : exec (.barrierEntry c) s = .next (State.roundComplete 2 u k) := by
    rw [exec_barrierEntry_ready hready hcount haway hcmd hbarrier, State.enterBarrier_current _ hv hfind hlost hkind hround (by omega), Dispatched.take,
      ← hturn, ← State.roundComplete_full (State.find_setBuoy v k (b.joined ⟨.cmd c, 1⟩)) 2 hkind hfull hgroup]
    rfl
  have hfound : u.buoys.find k = some b.turned := by
    rw [← hturn, State.find_turnRound]
    rfl
  have hgroup' : u.ch Ch.groupId = 0 := by
    rw [← hturn, State.ch_turnRound]
    exact hgroup
  refine ⟨fun hroom => ?_, fun hparked => ?_⟩
  · rw [hcurrent, State.roundComplete_open hfound 2 hroom]
  · have hempty : b.turned.turned.entries.length < b.turned.turned.participants := by
      show 0 < b.participants
      omega
    rw [hcurrent, State.roundComplete_full hfound 1 hkind hparked.ge hgroup', State.roundComplete_open (State.find_turnRound ..) 1 hempty]
    simp only [State.turnRound, Buoy.turned, Nat.mod_add_mod, Nat.add_assoc, Nat.reduceAdd]

/-! ### BIND, UNBIND and RESET (R281, R283) -/

/-- A BIND of a free name in a context that exists, with values that R281 allows for its kind, takes a free buoy. -/
theorem exec_buoyBind_binds {s : State} {r : Req} {k : Nat} (hc : ChecksPass s 0x6001 0 r)
    (hkind : BindRec.kind.get r.value = Bk.semaphore ∨ BindRec.kind.get r.value = Bk.barrier) (howner : BindRec.owner.get r.value ≠ 0)
    (hctx : (s.contexts.getD (BindRec.context.get r.value) ⟨0, 0, 0, 0⟩).state ≠ 0) (hfree : s.findBuoy (BindRec.context.get r.value) (BindRec.name.get r.value) = none)
    (hk : s.freeBuoy = some k)
    (hsem : BindRec.kind.get r.value = Bk.semaphore → BindRec.limit.get r.value ≠ 0 ∧ BindRec.initial.get r.value ≤ BindRec.limit.get r.value ∧ BindRec.participants.get r.value = 0)
    (hbar : BindRec.kind.get r.value = Bk.barrier → BindRec.limit.get r.value = 0 ∧ BindRec.participants.get r.value ≠ 0) :
    exec (.buoyBind r) s = .next ((s.setBuoy k (Buoy.bind (BindRec.context.get r.value) (BindRec.name.get r.value) (BindRec.kind.get r.value) (BindRec.owner.get r.value)
      (BindRec.limit.get r.value) (BindRec.initial.get r.value) (BindRec.participants.get r.value))).okReply 0x6001 0 r) := by
  have hrange : (bindAct s r.value).range = true := by rcases hkind with h | h <;> simp [bindAct, h, howner]
  have hstate : (bindAct s r.value).state = true := by simp [bindAct, hctx, hfree, hk]
  have hparams : (bindAct s r.value).params = true := by
    rcases hkind with h | h
    · simp [bindAct, h, hsem h]
    · simp [bindAct, h, hbar h]
  show execBuoyBind r s = _
  rw [execBuoyBind, State.chartDo_ok hc hrange hstate hparams]
  simp only [bindAct, hk]

section
variable {s : State} {r : Req} {k : Nat} {b : Buoy} (hc : ChecksPass s 0x6002 0 r) (hbits : onlyBits r.value [BuoyCtl.name, BuoyCtl.context, BuoyCtl.action] = true)
  (hfind : s.findBuoy (BuoyCtl.context.get r.value) (BuoyCtl.name.get r.value) = some (k, b)) (hwait : b.waiters = []) (hpark : b.parked = []) (howner : b.owner ≠ Bo.plan)
  (hplan : s.planLoaded = true → s.planUsesName (BuoyCtl.context.get r.value) (BuoyCtl.name.get r.value) = false)
include hc hbits hfind hwait hpark howner hplan

/-- An action of BUOY_CONTROL acts on a buoy that nobody waits on and no plan has. -/
theorem State.chartDo_buoyCtl (effect : Nat → Buoy → State → State) :
    s.chartDo 0x6002 0 r (buoyCtlAct s r.value effect) = (effect k b s).okReply 0x6002 0 r := by
  have hunused : (s.planLoaded && s.planUsesName (BuoyCtl.context.get r.value) (BuoyCtl.name.get r.value)) = false := by simpa using hplan
  have hstate : (buoyCtlAct s r.value effect).state = true := by simp [buoyCtlAct, hfind, hwait, hpark, howner, hunused]
  rw [State.chartDo_ok hc hbits hstate rfl]
  simp only [buoyCtlAct, hfind]

theorem exec_unbind_frees (ha : actionIs r BuoyCtl.action 1 = true) :
    exec (.unbind r) s = .next ((discardEntries b { s with buoys := s.buoys.erase k }).okReply 0x6002 0 r) := by
  show execUnbind r s = _
  rw [execUnbind, if_pos ha, State.chartDo_buoyCtl hc hbits hfind hwait hpark howner hplan]

theorem exec_buoyReset_resets (ha : actionIs r BuoyCtl.action 2 = true) :
    exec (.buoyReset r) s = .next ((discardEntries b (s.setBuoy k (resetBuoy b))).okReply 0x6002 0 r) := by
  show execBuoyReset r s = _
  rw [execBuoyReset, if_pos ha, State.chartDo_buoyCtl hc hbits hfind hwait hpark howner hplan]

end

/-- Settles O20: BIND by its checks, UNBIND and RESET by those they share. -/
theorem buoyControlsComplete : Obligations.BuoyControlsComplete := by
  intro s r k b
  refine ⟨exec_buoyBind_binds, fun hc hbits hfind hwait hpark howner hplan => ⟨exec_unbind_frees hc hbits hfind hwait hpark howner hplan, fun ha hkind => ?_, fun ha hkind => ?_⟩⟩
  · rw [exec_buoyReset_resets hc hbits hfind hwait hpark howner hplan ha, resetBuoy, if_pos hkind, discardEntries]
  · rw [exec_buoyReset_resets hc hbits hfind hwait hpark howner hplan ha, resetBuoy, if_neg hkind, discardEntries]

end Sys2Proof.Machine
end

section
/-! PROOFS. Counts stay at or below LIMIT and rounds at or below PARTICIPANTS (O54). Most operations leave the buoys and the late tasks as they are, one lemma for each; those that change a buoy keep it within its limits. -/

namespace Sys2Proof.Machine

/-! ### What does not touch the buoys -/

/-- The buoys, and the late tasks for which a signal may begin a search (R89). -/
def State.buoyView (s : State) : SMap Buoy × List TaskRef := (s.buoys, s.plan.lateSeen)

@[simp] theorem State.out_buoyView (s : State) (o : Output) : (s.out o).buoyView = s.buoyView := rfl

@[simp] theorem State.drew_buoyView (s : State) (n : Nat) : (s.drew n).buoyView = s.buoyView := rfl

@[simp] theorem State.setCh_buoyView (s : State) (key v : Nat) : (s.setCh key v).buoyView = s.buoyView := rfl

@[simp] theorem State.countSticky_buoyView (s : State) (key n : Nat) : (s.countSticky key n).buoyView = s.buoyView := rfl

@[simp] theorem State.blobChanged_buoyView (s : State) (key : Nat) : (s.blobChanged key).buoyView = s.buoyView := rfl

@[simp] theorem State.undispatch_buoyView (s : State) (d : Dispatched) : (s.undispatch d).buoyView = s.buoyView := rfl

@[simp] theorem State.wake_buoyView (s : State) : s.wake.buoyView = s.buoyView := by
  unfold State.wake
  split <;> rfl

@[simp] theorem State.store_buoyView (s : State) (a : Nat) (bs : List Byte) : (s.store a bs).buoyView = s.buoyView := by
  obtain ⟨m, c, h, -, -⟩ := State.store_eq s a bs
  rw [h]
  rfl

@[simp] theorem State.setQ_buoyView (s : State) (q : Nat) (f : Fld) (v : Nat) : (s.setQ q f v).buoyView = s.buoyView := State.store_buoyView ..

@[simp] theorem State.ringWrite_buoyView (s : State) (r : Nat) : (s.ringWrite r).buoyView = s.buoyView := by
  unfold State.ringWrite
  dsimp only
  split
  · split <;> simp
  · simp

@[simp] theorem State.ringChain_buoyView (s : State) (chain : List Nat) : (s.ringChain chain).buoyView = s.buoyView := by
  unfold State.ringChain
  dsimp only
  split
  · exact foldl_keeps State.buoyView State.ringWrite_buoyView chain s
  · simp

@[simp] theorem State.holdChain_buoyView (s : State) (chain : List Nat) : (s.holdChain chain).buoyView = s.buoyView := by
  have hheld : State.buoyView { s with events := { s.events with held := s.events.held ++ [chain] } } = s.buoyView := rfl
  simp only [State.holdChain, apply_ite State.buoyView, State.wake_buoyView, State.out_buoyView, State.blobChanged_buoyView, State.countSticky_buoyView, hheld, ite_self]

@[simp] theorem State.raise_buoyView (s : State) (e : Ev) : (s.raise e).buoyView = s.buoyView := by
  unfold State.raise
  dsimp only
  split
  · exact State.holdChain_buoyView ..
  · exact State.ringChain_buoyView ..

@[simp] theorem State.sectorDetected_buoyView (s : State) (sec n t : Nat) (ctx : Option Nat) : (s.sectorDetected sec n t ctx).buoyView = s.buoyView := by
  unfold State.sectorDetected
  dsimp only
  split <;> simp

@[simp] theorem State.readFault_buoyView (s : State) (a n : Nat) (ctx : Option Nat) : (s.readFault a n ctx).buoyView = s.buoyView := by
  unfold State.readFault
  split <;> simp

@[simp] theorem State.drainFault_buoyView (s : State) (q : Nat) : (s.drainFault q).buoyView = s.buoyView := by
  unfold State.drainFault
  dsimp only
  split <;> simp

@[simp] theorem State.releaseAll_buoyView (s : State) (ws : List Waiter) (status detail : Nat) : (s.releaseAll ws status detail).buoyView = s.buoyView := by
  obtain ⟨ds, cs, os, h⟩ := s.releaseAll_eq ws status detail
  rw [h]
  rfl

@[simp] theorem State.noteSignal_buoyView (s : State) (k : Nat) : (s.noteSignal k).buoyView = s.buoyView := by
  unfold State.noteSignal
  split <;> rfl

@[simp] theorem State.buoyError_buoyView (s : State) (k ctx name cause op arg : Nat) : (s.buoyError k ctx name cause op arg).1.buoyView = s.buoyView := by
  simp [State.buoyError]

@[simp] theorem State.meetsPlan_buoyView (s : State) (q ctx name : Nat) : (s.meetsPlan q ctx name).buoyView = s.buoyView := by
  unfold State.meetsPlan
  dsimp only
  split <;> simp

@[simp] theorem State.queueError_buoyView (s : State) (q cause : Nat) : (s.queueError q cause).buoyView = s.buoyView := by
  simp [State.queueError]

@[simp] theorem State.writeRecord_buoyView (s : State) (m : MemResult) (q w status detail : Nat) : (s.writeRecord m q w status detail).buoyView = s.buoyView := by
  unfold State.writeRecord
  dsimp only
  split <;> simp

@[simp] theorem State.reply_buoyView (s : State) (op index sub : Nat) (r : Req) (rep : ChReply) : (s.reply op index sub r rep).buoyView = s.buoyView := by
  have hsend : ∀ (t : State) (dst kind arg : Nat) (payload : List Byte), (t.send dst kind arg payload).buoyView = t.buoyView := fun _ _ _ _ _ => rfl
  unfold State.reply
  dsimp only
  split <;> split <;> simp [hsend]

/-! ### Buoys within their limits -/

/-- A semaphore begins with and holds at most LIMIT units; a barrier's current round and its next hold at most PARTICIPANTS entries (R286, R289). -/
def Buoy.Within (b : Buoy) : Prop :=
  if b.kind = Bk.semaphore then b.initial ≤ b.limit ∧ b.count ≤ b.limit else b.entries.length ≤ b.participants ∧ b.parked.length ≤ b.participants

theorem Buoy.within_semaphore {b : Buoy} (h : b.kind = Bk.semaphore) : b.Within ↔ b.initial ≤ b.limit ∧ b.count ≤ b.limit := by
  rw [Buoy.Within, if_pos h]

theorem Buoy.within_barrier {b : Buoy} (h : b.kind ≠ Bk.semaphore) : b.Within ↔ b.entries.length ≤ b.participants ∧ b.parked.length ≤ b.participants := by
  rw [Buoy.Within, if_neg h]

/-- Units that are taken, whoever goes on waiting. -/
theorem Buoy.Within.lower {b : Buoy} (h : b.Within) {n : Nat} (hn : n ≤ b.count) (ws : List Waiter) : Buoy.Within { b with count := n, waiters := ws } := by
  by_cases hkind : b.kind = Bk.semaphore
  · obtain ⟨hinitial, hcount⟩ := (Buoy.within_semaphore hkind).mp h
    exact (Buoy.within_semaphore (b := { b with count := n, waiters := ws }) hkind).mpr ⟨hinitial, hn.trans hcount⟩
  · exact (Buoy.within_barrier (b := { b with count := n, waiters := ws }) hkind).mpr ((Buoy.within_barrier hkind).mp h)

/-- Units that LIMIT allows. -/
theorem Buoy.Within.withCount {b : Buoy} (h : b.Within) (hkind : b.kind = Bk.semaphore) {n : Nat} (hn : n ≤ b.limit) (lost : Bool) :
    Buoy.Within { b with count := n, lost := lost } :=
  (Buoy.within_semaphore (b := { b with count := n, lost := lost }) hkind).mpr ⟨((Buoy.within_semaphore hkind).mp h).1, hn⟩

/-- Entries that PARTICIPANTS allows. -/
theorem Buoy.within_withEntries {b : Buoy} (hkind : b.kind ≠ Bk.semaphore) {es ps : List Waiter} (hes : es.length ≤ b.participants) (hps : ps.length ≤ b.participants)
    (round : Nat) (lost : Bool) : Buoy.Within { b with round := round, lost := lost, entries := es, parked := ps } :=
  (Buoy.within_barrier (b := { b with round := round, lost := lost, entries := es, parked := ps }) hkind).mpr ⟨hes, hps⟩

/-- A buoy that is reset holds INITIAL units, or no entry of its current round (R283). -/
theorem Buoy.Within.reset {b : Buoy} (h : b.Within) : (resetBuoy b).Within := by
  unfold resetBuoy
  split
  · next hkind => exact h.withCount hkind ((Buoy.within_semaphore hkind).mp h).1 false
  · next hkind => exact Buoy.within_withEntries hkind (Nat.zero_le _) ((Buoy.within_barrier hkind).mp h).2 b.round false

/-- A fresh buoy is within its limits where INITIAL is, whatever its kind (R281). -/
theorem Buoy.within_bind {ctx name kind owner limit initial participants : Nat}
    (h : (if kind = Bk.semaphore then limit != 0 && decide (initial ≤ limit) && participants == 0 else limit == 0 && participants != 0) = true) :
    (Buoy.bind ctx name kind owner limit initial participants).Within := by
  by_cases hkind : kind = Bk.semaphore
  · rw [if_pos hkind] at h
    have hinitial : initial ≤ limit := by
      simp only [Bool.and_eq_true, decide_eq_true_eq] at h
      exact h.1.2
    refine (Buoy.within_semaphore hkind).mpr ⟨hinitial, ?_⟩
    rw [Buoy.bind, if_pos hkind]
    exact hinitial
  · exact (Buoy.within_barrier hkind).mpr ⟨Nat.zero_le _, Nat.zero_le _⟩

/-- A write whose status is OK has passed the check of its parameters (R483). -/
theorem State.params_of_writeStatus_ok {s : State} {index sub : Nat} {r : Req} {act : ChAct} (h : s.writeStatus index sub r act = Cs.ok) : act.params = true := by
  by_contra hparams
  rw [Bool.not_eq_true] at hparams
  revert h
  unfold State.writeStatus
  simp only [hparams, Bool.not_false, if_true]
  split
  · decide
  · repeat' split
    all_goals decide

theorem State.buoysWf_iff {s : State} : s.buoysWf = true ↔ ∀ p ∈ s.buoys, p.2.Within := by
  simp only [State.buoysWf, List.all_eq_true, Buoy.Within]
  refine forall₂_congr (fun p _ => ?_)
  split <;> exact decide_eq_true_iff

/-- Every buoy is within its limits, and no task waits for a search. -/
def State.Settled (s : State) : Prop := s.buoysWf = true ∧ s.plan.lateSeen = []

/-- What is settled stays so where the buoys and the late tasks are the same. -/
theorem State.Settled.of_view {s t : State} (h : s.Settled) (hv : t.buoyView = s.buoyView) : t.Settled := by
  obtain ⟨hb, hl⟩ := Prod.mk.inj hv
  exact ⟨by rw [State.buoysWf, hb]; exact h.1, hl.trans h.2⟩

/-- A semaphore serves no more units than it holds. -/
theorem serveWaiters_le (n : Nat) (ws : List Waiter) : (serveWaiters n ws).1 ≤ n := by
  induction ws generalizing n with
  | nil => exact le_rfl
  | cons w ws ih =>
    unfold serveWaiters
    split
    · exact le_rfl
    · split
      · exact (ih _).trans (Nat.sub_le ..)
      · exact le_rfl

namespace State.Settled

variable {s : State} (h : s.Settled)
include h

theorem within_of_find {k : Nat} {b : Buoy} (hfind : s.buoys.find k = some b) : b.Within := State.buoysWf_iff.mp h.1 _ (SMap.mem_of_find hfind)

theorem within_of_findBuoy {ctx name k : Nat} {b : Buoy} (hfind : s.findBuoy ctx name = some (k, b)) : b.Within :=
  State.buoysWf_iff.mp h.1 _ (List.mem_of_find?_eq_some hfind)

theorem setBuoy (k : Nat) {b : Buoy} (hb : b.Within) : (s.setBuoy k b).Settled := by
  refine ⟨State.buoysWf_iff.mpr (fun p hp => ?_), h.2⟩
  rcases SMap.mem_put hp with rfl | hp
  · exact hb
  · exact State.buoysWf_iff.mp h.1 p hp

theorem eraseBuoy (k : Nat) : State.Settled { s with buoys := s.buoys.erase k } :=
  ⟨State.buoysWf_iff.mpr (fun p hp => State.buoysWf_iff.mp h.1 p (List.mem_of_mem_filter hp)), h.2⟩

/-! ### Semaphores (R284 to R287) -/

theorem serve (k : Nat) : (s.serve k).Settled := by
  unfold State.serve
  split
  · exact h
  · next b hfind =>
    split
    · exact h
    · have hserved := h.setBuoy k ((h.within_of_find hfind).lower (serveWaiters_le b.count b.waiters) (serveWaiters b.count b.waiters).2.2)
      exact hserved.of_view (State.releaseAll_buoyView ..)

theorem signal (ctx name n : Nat) : (s.signal ctx name n).1.Settled := by
  have ht : s.translates.Settled := h.of_view rfl
  unfold State.signal
  split
  · exact h
  · dsimp only
    split
    · exact ht
    · next k b hfind =>
      split
      · exact ht
      · split
        · exact ht.of_view (State.buoyError_buoyView ..)
        · next hkind =>
          split
          · exact ht.of_view (State.buoyError_buoyView ..)
          · next hle =>
            have hadded := ht.setBuoy k ((ht.within_of_findBuoy hfind).withCount (not_not.mp hkind) (Nat.not_lt.mp hle) b.lost)
            exact (hadded.of_view (State.noteSignal_buoyView ..)).serve k

theorem waitOn (ctx name n : Nat) (who : Who) : (s.waitOn ctx name n who).1.Settled := by
  have ht : s.translates.Settled := h.of_view rfl
  unfold State.waitOn
  split
  · exact h
  · dsimp only
    split
    · exact ht
    · next k b hfind =>
      split
      · exact ht.of_view rfl
      · split
        · exact ht.of_view (State.buoyError_buoyView ..)
        · split
          · exact ht.of_view (State.buoyError_buoyView ..)
          · have hb := ht.within_of_findBuoy hfind
            split
            · exact ht.setBuoy k (hb.lower (Nat.sub_le b.count n) b.waiters)
            · exact ht.setBuoy k (hb.lower le_rfl _)

/-! ### Barriers (R289, R290) -/

theorem roundComplete (fuel k : Nat) : (State.roundComplete fuel s k).Settled := by
  induction fuel generalizing s with
  | zero => exact h
  | succ fuel ih =>
    unfold State.roundComplete
    split
    · exact h
    · next b hfind =>
      split
      · next hdone =>
        have hkind : b.kind ≠ Bk.semaphore := by rw [hdone.1]; decide
        have hparked := ((Buoy.within_barrier hkind).mp (h.within_of_find hfind)).2
        have hturned := h.setBuoy k (Buoy.within_withEntries (ps := []) hkind hparked (Nat.zero_le _) ((b.round + 1) % 2 ^ 32) b.lost)
        exact ih (hturned.of_view (State.releaseAll_buoyView ..))
      · exact h

theorem enterBarrier (ctx name e : Nat) (who : Who) : (s.enterBarrier ctx name e who).1.Settled := by
  have ht : s.translates.Settled := h.of_view rfl
  have herror : ∀ k cause arg, (s.translates.buoyError k ctx name cause 3 arg).1.Settled := fun _ _ _ => ht.of_view (State.buoyError_buoyView ..)
  have hroom : ∀ {ws : List Waiter} {n : Nat}, ¬ n ≤ ws.length → (ws ++ [Waiter.mk who 1]).length ≤ n := by
    intro ws n hn
    rw [List.length_append, List.length_singleton]
    omega
  unfold State.enterBarrier
  dsimp only
  split
  · exact ht
  · next k b hfind =>
    split
    · exact ht.of_view rfl
    · split
      · exact herror ..
      · next hkind =>
        have hkind : b.kind ≠ Bk.semaphore := by rw [not_not.mp hkind]; decide
        have hb := (Buoy.within_barrier hkind).mp (ht.within_of_findBuoy hfind)
        split
        · split
          · exact herror ..
          · next hlt => exact (ht.setBuoy k (Buoy.within_withEntries hkind (hroom hlt) hb.2 b.round b.lost)).roundComplete 3 k
        · split
          · split
            · exact herror ..
            · next hlt => exact State.Settled.of_view (ht.setBuoy k (Buoy.within_withEntries hkind hb.1 (hroom hlt) b.round b.lost)) rfl
          · exact herror ..

/-! ### The end of a command (R136) -/

/-- A command that ends may signal; its record, its interrupt and its event leave the buoys as they are. -/
theorem finish (m : MemResult) (q w status detail : Nat) : (s.finish m q w status detail).Settled := by
  have hsignal : ((s.meetsPlan q (s.q q QueueDesc.context) (cmdGet w Cmd.compBuoy)).signal (s.q q QueueDesc.context) (cmdGet w Cmd.compBuoy) (cmdGet w Cmd.compCount)).1.Settled :=
    State.Settled.signal (h.of_view (State.meetsPlan_buoyView ..)) ..
  unfold State.finish
  dsimp only
  by_cases hc : status = St.success ∧ cmdGet w Cmd.signal = 1 ∧ cmdGet w Cmd.compCount ≠ 0
  · rw [if_pos hc]
    refine hsignal.of_view ?_
    simp only [apply_ite State.buoyView, State.raise_buoyView, State.out_buoyView, State.writeRecord_buoyView, ite_self]
  · rw [if_neg hc]
    refine h.of_view ?_
    simp only [apply_ite State.buoyView, State.raise_buoyView, State.out_buoyView, State.writeRecord_buoyView, ite_self]

theorem drain (fuel q : Nat) : (State.drain fuel s q).Settled := by
  induction fuel generalizing s with
  | zero => exact h
  | succ fuel ih =>
    unfold State.drain
    dsimp only
    split
    · exact h
    · split
      · split
        · exact ih (State.Settled.finish (h.of_view (by simp)) ..)
        · exact h
      · split
        · exact h.of_view (State.setQ_buoyView ..)
        · exact h

theorem endCmd (d : Dispatched) (status detail : Nat) : (s.endCmd d status detail).Settled := by
  have hcomplete : (s.complete d status detail).Settled := by
    rw [State.complete_eq]
    exact ((h.of_view (State.undispatch_buoyView s d)).finish ..).drain ..
  rw [State.endCmd, State.recheckSlips_of_none hcomplete.2]
  exact hcomplete.of_view rfl

theorem endOnBuoy (d : Dispatched) (status detail : Nat) : (s.endOnBuoy d status detail).Settled := by
  unfold State.endOnBuoy State.endWith
  split
  · exact h.endCmd ..
  · split
    · exact h.endCmd ..
    · split
      · exact State.Settled.endCmd (h.of_view (State.drew_buoyView ..)) ..
      · exact h.endCmd ..

/-! ### Commands and writes of the Chart -/

omit h in
/-- A command takes the answer of its buoy. -/
theorem take (d : Dispatched) {p : State × BuoyEnd} (hp : p.1.Settled) : (d.take p).Settled := by
  obtain ⟨t, _ | _⟩ := p
  · exact hp.endOnBuoy ..
  · exact hp

theorem waitRow (d : Dispatched) (op n : Nat) {act : State → State × BuoyEnd} (hact : ∀ {t : State}, t.Settled → (act t).1.Settled) : (s.waitRow d op n act).Settled := by
  cases hstage : d.stage with
  | ready =>
    by_cases hcount : cmdGet d.word CmdBuoy.count = 0
    · simp only [State.waitRow, hstage, hcount, if_true]
      exact h.endCmd ..
    · cases haway : s.buoyAway d.word with
      | true =>
        simp only [State.waitRow, hstage, hcount, haway, if_false, if_true]
        exact h.of_view rfl
      | false =>
        rw [State.waitRow_ready hstage hcount haway]
        exact take d (hact (h.of_view (State.meetsPlan_buoyView ..)))
  | granted =>
    simp only [State.waitRow, hstage]
    exact h.endCmd ..
  | ownerLost =>
    simp only [State.waitRow, hstage]
    exact h.endOnBuoy ..
  | underway | waiting | resetEnded =>
    simp only [State.waitRow, hstage]
    exact h

/-- A write of the Chart keeps the limits where its effect does, once its checks let it through. -/
theorem chartDo (index sub : Nat) (r : Req) {act : ChAct} (hact : s.writeStatus index sub r act = Cs.ok → (act.effect s).Settled) : (s.chartDo index sub r act).Settled := by
  unfold State.chartDo State.writeReply
  split
  · exact h.of_view rfl
  · refine State.Settled.of_view ?_ (State.reply_buoyView ..)
    dsimp only
    split
    · next hok => exact hact hok
    · split
      · exact h.of_view rfl
      · exact h

theorem exec_signal {t : State} {c : Nat} (hexec : exec (.signal c) s = .next t) : t.Settled := by
  have hrow : execSignal c s = .next t := hexec
  cases hcmd : s.cmd c Op.signal with
  | none =>
    simp only [execSignal, hcmd, Host.Outcome.next.injEq] at hrow
    exact hrow ▸ h
  | some d =>
    cases hstage : d.stage with
    | ready =>
      by_cases hcount : cmdGet d.word CmdBuoy.count = 0
      · simp only [execSignal, hcmd, hstage, hcount, if_true, Host.Outcome.next.injEq] at hrow
        exact hrow ▸ h.endCmd ..
      · cases haway : s.buoyAway d.word with
        | true =>
          simp only [execSignal, hcmd, hstage, hcount, haway, if_false, if_true, Host.Outcome.next.injEq] at hrow
          exact hrow ▸ h.of_view rfl
        | false =>
          cases (exec_signal_ready hstage hcount haway hcmd).symm.trans hexec
          exact take d (State.Settled.signal (h.of_view (State.meetsPlan_buoyView ..)) ..)
    | ownerLost =>
      simp only [execSignal, hcmd, hstage, Host.Outcome.next.injEq] at hrow
      exact hrow ▸ h.endOnBuoy ..
    | underway | waiting | granted | resetEnded =>
      simp only [execSignal, hcmd, hstage, Host.Outcome.next.injEq] at hrow
      exact hrow ▸ h

theorem exec_wait {t : State} {c : Nat} (hexec : exec (.wait c) s = .next t) : t.Settled := by
  have hexec : execWait c s = .next t := hexec
  unfold execWait at hexec
  split at hexec
  · cases hexec
    exact h
  · cases hexec
    exact h.waitRow _ _ _ (fun ht => ht.waitOn ..)

theorem exec_barrierEntry {t : State} {c : Nat} (hexec : exec (.barrierEntry c) s = .next t) : t.Settled := by
  have hexec : execBarrierEntry c s = .next t := hexec
  unfold execBarrierEntry at hexec
  split at hexec
  · cases hexec
    exact h
  · cases hexec
    exact h.waitRow _ _ _ (fun ht => ht.enterBarrier ..)

theorem exec_nop {t : State} {c : Nat} (hexec : exec (.nop c) s = .next t) : t.Settled := by
  have hexec : execNop c s = .next t := hexec
  unfold execNop at hexec
  split at hexec
  · cases hexec
    exact h
  · cases hexec
    exact h.endCmd ..

/-- A BIND that its checks let through binds a buoy within its limits (R281). -/
theorem exec_buoyBind {t : State} {r : Req} (hexec : exec (.buoyBind r) s = .next t) : t.Settled := by
  cases hexec
  refine h.chartDo _ _ _ (fun hok => ?_)
  have hparams : (bindAct s r.value).params = true := State.params_of_writeStatus_ok hok
  unfold bindAct at hparams ⊢
  dsimp only at hparams ⊢
  split
  · exact h.setBuoy _ (Buoy.within_bind hparams)
  · exact h

/-- An action of BUOY_CONTROL keeps the limits where it does so on the buoy that it finds. -/
theorem chartDo_buoyCtl (r : Req) {effect : Nat → Buoy → State → State} (heffect : ∀ k b, b.Within → (effect k b s).Settled) :
    (s.chartDo 0x6002 0 r (buoyCtlAct s r.value effect)).Settled := by
  refine h.chartDo _ _ _ (fun _ => ?_)
  unfold buoyCtlAct
  dsimp only
  split
  · exact h
  · next k b hfind => exact heffect k b (h.within_of_findBuoy hfind)

theorem exec_unbind {t : State} {r : Req} (hexec : exec (.unbind r) s = .next t) : t.Settled := by
  have hexec : execUnbind r s = .next t := hexec
  unfold execUnbind at hexec
  split at hexec
  · cases hexec
    exact h.chartDo_buoyCtl r (fun k b _ => (h.eraseBuoy k).of_view (State.releaseAll_buoyView ..))
  · cases hexec
    exact h

theorem exec_buoyReset {t : State} {r : Req} (hexec : exec (.buoyReset r) s = .next t) : t.Settled := by
  have hexec : execBuoyReset r s = .next t := hexec
  unfold execBuoyReset at hexec
  split at hexec
  · cases hexec
    exact h.chartDo_buoyCtl r (fun k b hb => (h.setBuoy k hb.reset).of_view (State.releaseAll_buoyView ..))
  · cases hexec
    exact h

end State.Settled

/-- Settles O54: the state stays settled, by one lemma for each command. -/
theorem buoysStayWithinLimits : Obligations.BuoysStayWithinLimits := by
  intro s t c rest hwf hlate hpending hc hstep
  rw [step_of_pending_cons hpending] at hstep
  have hs : State.Settled { s with pending := rest } := ⟨hwf, hlate⟩
  have ht : t.Settled := by
    rcases hc with ⟨n, rfl | rfl | rfl | rfl⟩ | ⟨r, rfl | rfl | rfl⟩
    · exact hs.exec_signal hstep
    · exact hs.exec_wait hstep
    · exact hs.exec_barrierEntry hstep
    · exact hs.exec_nop hstep
    · exact hs.exec_buoyBind hstep
    · exact hs.exec_unbind hstep
    · exact hs.exec_buoyReset hstep
  exact ht.1

end Sys2Proof.Machine
end

section
/-! PROOFS. EXPORT, IMPORT and UPDATE of a shard, and the lane that carries a command's transfer (O12). -/

namespace Sys2Proof.Machine

/-! ### EXPORT and IMPORT begin on their channel (R323, R375) -/

theorem exec_exportCmd_begins {c : Nat} {s : State} {d : Dispatched} (h : s.readyCmd c Op.exportC = some d) (hn : cmdGet d.word CmdExport.bytes ≠ 0)
    (hacc : s.replicaRefused d.word = none) :
    exec (.exportCmd c) s = .next ((s.setStage c .underway (s.exportedVersion d.word)).addItem (cmdGet d.word CmdExport.channel) (.cmd c) (.carry c) (cmdGet d.word Cmd.urgency)) := by
  unfold State.readyCmd at h
  show execExportCmd c s = _
  simp only [execExportCmd, h, hn, hacc, if_false]

/-- An IMPORT of a record or of differences is carried whole. -/
theorem exec_importCmd_carries {c : Nat} {s : State} {d : Dispatched} (h : s.readyCmd c Op.importC = some d) (hn : cmdGet d.word CmdExport.bytes ≠ 0)
    (hacc : s.replicaRefused d.word = none) (hkind : cmdGet d.word CmdExport.objectKind ≠ 0) :
    exec (.importCmd c) s = .next ((s.setStage c .underway 0).addItem (cmdGet d.word CmdExport.channel) (.cmd c) (.carry c) (cmdGet d.word Cmd.urgency)) := by
  unfold State.readyCmd at h
  show execImportCmd c s = _
  simp only [execImportCmd, h, hn, hacc, hkind, ne_eq, not_false_eq_true, if_true, if_false]

/-- An IMPORT of a stream that memory holds stores all its tiles, as a STOW of them would. -/
theorem exec_importCmd_stows {c : Nat} {s t : State} {d : Dispatched} (h : s.readyCmd c Op.importC = some d) (hn : cmdGet d.word CmdExport.bytes ≠ 0)
    (hacc : s.replicaRefused d.word = none) (hkind : cmdGet d.word CmdExport.objectKind = 0) (hhere : cmdGet d.word CmdExport.remote = 0)
    (hdrop : s.cls (cmdGet d.word CmdExport.object) ≠ Cl.drop) (hregen : s.cls (cmdGet d.word CmdExport.object) ≠ Cl.regen)
    (hfill : s.fillWhole (cmdGet d.word CmdExport.object) = .filling t) :
    exec (.importCmd c) s = .next ((t.setStage c .underway 0).addItem (cmdGet d.word CmdExport.channel) (.cmd c)
      (.stow (cmdGet d.word CmdExport.object) 0 (t.tiles (cmdGet d.word CmdExport.object)) (cmdGet d.word CmdExport.address)) (cmdGet d.word Cmd.urgency)) := by
  unfold State.readyCmd at h
  show execImportCmd c s = _
  simp only [execImportCmd, h, hn, hacc, hkind, hhere, hdrop, hregen, hfill, ne_eq, not_true_eq_false, or_self, zero_ne_one, if_false]

/-! ### A lane takes a command's transfer (R144, R322; log entry 100) -/

theorem exec_laneTakesItem_carries {s : State} {l c : Nat} {i : WorkItem} {m : MemResult} (hl : s.lane l = none) (hlt : l < 256) (hn : s.nextItem l = some i) (hw : i.work = .carry c) :
    exec (.laneTakesItem ⟨l, m⟩) s = .next ((s.runItem l i .done).carryStart i c m) := by
  show execLaneTakesItem ⟨l, m⟩ s = _
  simp only [execLaneTakesItem, hl, hlt, hn, hw, if_true]

/-- A command found by its tag has that tag. -/
theorem State.tag_of_find_dispatched {s : State} {c : Nat} {d : Dispatched} (h : s.dispatched.find? (fun e => e.tag == c) = some d) : d.tag = c := by
  simpa using List.find?_some h

/-- An export record whose parts can all be read goes to its address in one piece. -/
theorem State.exportRun_record {s t : State} {d : Dispatched} {a : Nat} {ps : List Part} (hacc : s.replicaRefused d.word = none) (hkind : cmdGet d.word CmdExport.objectKind = 1)
    (ha : s.shardOpt (cmdGet d.word CmdExport.object) = some a)
    (hp : (s.setStage d.tag .underway (s.exportedVersion d.word)).exportPayload (cmdGet d.word CmdExport.object) a = (t, ps, none)) (hs : t.checkWords = []) :
    s.exportRun d .ok = t.exportTo d .ok [(cmdGet d.word CmdExport.address, t.exportHeader (cmdGet d.word CmdExport.object) a (partBytes ps) ++ partBytes ps)] := by
  have hread : (ps.filterMap (fun p => p.2.1.bind (fun x => t.failing x p.1.length))).head? = none := by
    simp [State.failing_sound t _ _ hs]
  simp only [State.exportRun, hacc, hkind, ha, hp, hread, one_ne_zero, OfNat.one_ne_ofNat, if_false]

/-- An IMPORT reads its bytes from this package's memory where they are sound. -/
theorem State.importRun_reads {s : State} {d : Dispatched} (hhere : cmdGet d.word CmdExport.remote = 0)
    (hs : s.failing (cmdGet d.word CmdExport.address) (cmdGet d.word CmdExport.bytes) = none) :
    s.importRun d .ok = s.importWith d (s.rd (cmdGet d.word CmdExport.address) (cmdGet d.word CmdExport.bytes)) := by
  simp only [State.importRun, hhere, hs, zero_ne_one, ne_eq, not_true_eq_false, if_false]

theorem State.carryStart_export {s : State} {i : WorkItem} {c : Nat} {m : MemResult} {d : Dispatched} (hd : s.dispatched.find? (fun e => e.tag == c) = some d)
    (hop : cmdGet d.word Cmd.opcode = Op.exportC) : s.carryStart i c m = s.exportRun d m := by
  simp only [State.carryStart, hd, hop, if_true]

theorem State.carryStart_import {s : State} {i : WorkItem} {c : Nat} {m : MemResult} {d : Dispatched} (hd : s.dispatched.find? (fun e => e.tag == c) = some d)
    (hop : cmdGet d.word Cmd.opcode = Op.importC) : s.carryStart i c m = s.importRun d m := by
  have hout : cmdGet d.word Cmd.opcode ≠ Op.exportC := by rw [hop]; decide
  simp only [State.carryStart, hd, hout, if_false]

/-! ### UPDATE (R321) -/

/-- State that lies in memory needs no staging buffer, so none is in another shard's hands. -/
theorem State.stagedByOther_of_memory {s : State} {k a : Nat} (h : s.reefState a = false) : s.stagedByOther k a = false := by
  simp only [State.stagedByOther, h, Bool.false_and]

/-- An UPDATE whose state lies in memory, whose slot is unpinned and whose engine is free, and its turn come, pins the version before and starts on its engine. -/
theorem exec_update_starts {c a k v args : Nat} {s : State} {d : Dispatched} (h : s.readyCmd c Op.update = some d) (hk : k = cmdGet d.word CmdUpdate.shard) (ha : s.shardOpt k = some a)
    (hv : v = (s.shf k ShardRec.currentVersion + 1) % 65536) (hargs : args = (if cmdGet d.word CmdUpdate.args = 0 then s.fld a OptRec.args else cmdGet d.word CmdUpdate.args))
    (hreef : s.reefState a = false) (hfree : s.engineFree (cmdGet d.word CmdUpdate.engine) = true)
    (hturn : s.engineTurn (cmdGet d.word CmdUpdate.engine) (cmdGet d.word Cmd.urgency) = true) (hpins : s.slotUnpinned k v none = true)
    (habort : (s.shard k).abortNext = false) (hlost : (s.shard k).lostState = none) (hsound : s.updateFailing k a v (cmdGet d.word CmdUpdate.grad) args = none) :
    exec (.update c .ok) s = .next (((s.setStage c .underway 0).modShard k (fun z => { z with pins := (v + 65535) % 65536 :: z.pins })).updateStart (cmdGet d.word CmdUpdate.engine) (.cmd c) k a v
      (cmdGet d.word CmdUpdate.program) (cmdGet d.word CmdUpdate.grad) args) := by
  have hserves : ¬ s.ch (Ch.engineState + 256 * cmdGet d.word CmdUpdate.engine) = 2 := by rw [State.engineState_of_free hfree]; decide
  unfold State.readyCmd at h
  subst hk hv hargs
  show execUpdate c .ok s = _
  unfold execUpdate
  simp only [h, ha, hserves, hfree, State.stagedByOther_of_memory hreef, hturn, hpins, hreef, habort, hlost, hsound, Bool.not_true, Bool.false_eq_true, false_and, or_self, ne_eq,
    not_true_eq_false, if_false]

/-- Settles O12: EXPORT, IMPORT and UPDATE under the conditions of their clauses; a lane by the opcode of the command that it carries. -/
theorem shardCommandsComplete : Obligations.ShardCommandsComplete := by
  intro c a s t d
  refine ⟨exec_exportCmd_begins, exec_importCmd_carries, exec_importCmd_stows, ?_, ?_, fun k v args => exec_update_starts⟩
  · rintro l i _ ps hlt hl hn hw rfl hd hop hacc hkind ha hp hs
    rw [exec_laneTakesItem_carries hl hlt hn hw, State.carryStart_export hd hop, State.exportRun_record hacc hkind ha (State.tag_of_find_dispatched hd ▸ hp) hs]
  · rintro l i _ hlt hl hn hw rfl hd hop hhere hs
    rw [exec_laneTakesItem_carries hl hlt hn hw, State.carryStart_import hd hop, State.importRun_reads hhere hs]

end Sys2Proof.Machine
end

section
/-! PROOFS. The messages DATA and DATA_DONE, once they are taken (O32). -/

namespace Sys2Proof.Machine

@[simp] theorem State.shardCount_addInbox (s : State) (key : Inbox) (bs : List Byte) : (s.addInbox key bs).shardCount = s.shardCount := rfl
@[simp] theorem State.shf_addInbox (s : State) (key : Inbox) (bs : List Byte) (k : Nat) (x : Fld) : (s.addInbox key bs).shf k x = s.shf k x := rfl

/-- What DATA of a kind that is only kept leaves: its bytes wait alone under their key, or join those that have come under it (log entry 13). -/
def State.keepData (s : State) (kind place : Nat) (bs : List Byte) : Option State :=
  if kind = Dk.streamRec then some (s.putInbox (.streamRec (place % 2 ^ 24)) bs)
  else if kind = Dk.streamGen then some (s.putInbox (.streamGen (place % 2 ^ 24) (place / 2 ^ 24)) bs)
  else if kind = Dk.streamFixed then some (s.addInbox (.streamFixed (place % 2 ^ 24)) bs)
  else if kind = Dk.streamTile then some (s.putInbox (.streamTile (place % 2 ^ 24) (place / 2 ^ 24)) bs)
  else if kind = Dk.version then some (s.addInbox (.version (place % 2 ^ 32) (place / 2 ^ 32)) bs)
  else if kind = Dk.importBytes then some (s.addInbox (.bytes place) bs)
  else none

/-- The key of a piece of a contribution: its shard's number, and which contribution it is. -/
abbrev gradientKey (place : Nat) : Inbox := .gradient (place % 2 ^ 32) (place / 2 ^ 32 % 2 ^ 12) (place / 2 ^ 44)

section
variable {s u : State} {f : Frame} {kind place : Nat} (hu : u = s.afterFrame f) (hkind : kind = frameArg f / 2 ^ 56) (hplace : place = frameArg f % 2 ^ 56)
include hu hkind hplace

/-! ### DATA that is kept (R310, R317, R404) -/

theorem exec_data_keeps {v : State} (h : MessageTaken s Mk.data f) (hkeep : u.keepData kind place f.payload = some v) : exec (.data f) s = .next v := by
  show execData f s = _
  rw [execData, State.message_taken h, ← hu, ← hplace, ← hkind]
  clear hkind
  unfold State.keepData at hkeep
  split_ifs at hkeep <;> (subst kind; cases hkeep; rfl)

/-- A contribution to a shard that the plan does not name is kept. -/
theorem exec_data_gradient_keeps (h : MessageTaken s Mk.data f) (hk : kind = Dk.gradient) (hno : ∀ k ∈ List.range u.shardCount, u.shf k ShardRec.shardId ≠ place % 2 ^ 32) :
    exec (.data f) s = .next (u.addInbox (gradientKey place) f.payload) := by
  have hfind : (List.range u.shardCount).find? (fun k => u.shf k ShardRec.shardId == place % 2 ^ 32) = none := by simpa using hno
  show execData f s = _
  rw [execData, State.message_taken h, ← hu, ← hplace, ← hkind]
  subst hk
  simp only [State.shardCount_addInbox, State.shf_addInbox, hfind]
  rfl

/-- A contribution to a shard that the plan names lands as far as it has come. -/
theorem exec_data_gradient_lands {k a : Nat} {v : State} (h : MessageTaken s Mk.data f) (hk : kind = Dk.gradient) (hv : v = u.addInbox (gradientKey place) f.payload)
    (hfind : (List.range v.shardCount).find? (fun k => v.shf k ShardRec.shardId == place % 2 ^ 32) = some k) (ha : v.shardOpt k = some a) :
    exec (.data f) s = .next (v.landRemote k a) := by
  show execData f s = _
  rw [execData, State.message_taken h, ← hu, ← hplace, ← hkind]
  subst hk hv
  simp only [hfind, ha]
  rfl

/-! ### Lent Reef (R402) -/

/-- The borrower's bytes, whole and within what it was lent, are stored. -/
theorem exec_data_reefWrite {p : Nat} {bs : List Byte} {t : State} (h : MessageTaken s Mk.data f) (hk : kind = Dk.reefWrite) (hm : u.memberAt (frameSrc f) = some p)
    (hbs : unpackBlock (place % 4096) f.payload = some bs) (hlent : place + bs.length ≤ u.ch (Ch.lendBytes + 256 * p))
    (hstore : u.reefStore (u.ch (Ch.lendBase + 256 * p) + place) bs = (t, none)) : exec (.data f) s = .next t := by
  show execData f s = _
  rw [execData, State.message_taken h, ← hu, ← hplace, ← hkind]
  subst hk
  simp only [hm, hbs, hlent, hstore, if_true]
  rfl

/-- What the borrower asks for, within what it was lent, is read and sent to it. -/
theorem exec_data_reefAsk {p : Nat} {bs : List Byte} {t : State} (h : MessageTaken s Mk.data f) (hk : kind = Dk.reefAsk) (hm : u.memberAt (frameSrc f) = some p)
    (hlent : place + sliceNat f.payload 8 4 ≤ u.ch (Ch.lendBytes + 256 * p)) (hread : u.reefRead (u.ch (Ch.lendBase + 256 * p) + place) (sliceNat f.payload 8 4) = (t, .ok bs)) :
    exec (.data f) s = .next (t.sendData (frameSrc f) Dk.reefRead 0 (f.payload.take 8 ++ packBlock (place % 4096) bs)) := by
  show execData f s = _
  rw [execData, State.message_taken h, ← hu, ← hplace, ← hkind]
  subst hk
  simp only [hm, hlent, hread, if_true]
  rfl

/-! ### DATA_DONE -/

/-- A DATA_DONE that is an answer ends what this package sent or asked for. -/
theorem exec_dataDone_answers (h : MessageTaken s Mk.dataDone f) (ha : sliceNat f.payload 1 1 = 1) :
    exec (.dataDone f) s = .next (u.answered (frameSrc f) kind place (sliceNat f.payload 0 1)) := by
  show execDataDone f s = _
  rw [execDataDone, State.message_taken h, ← hu, ← hplace, ← hkind]
  exact congrArg _ (if_pos ha)

/-- The end of a stream or of a version that a peer sends is kept with its status, and the EXCHANGEs that run look again. -/
theorem exec_dataDone_ends (h : MessageTaken s Mk.dataDone f) (ha : sliceNat f.payload 1 1 ≠ 1) (hk : kind = Dk.streamRec ∨ kind = Dk.version) :
    exec (.dataDone f) s = .next (u.putInbox (.ended (frameSrc f) kind place) (leBytes 1 (sliceNat f.payload 0 1))).retryExchanges := by
  have hgrad : ¬ kind = Dk.gradient := by rcases hk with rfl | rfl <;> decide
  show execDataDone f s = _
  rw [execDataDone, State.message_taken h, ← hu, ← hplace, ← hkind]
  exact congrArg _ ((if_neg ha).trans ((if_neg hgrad).trans (if_pos hk)))

end

/-- Settles O32: a DATA that is taken by its kind, a DATA_DONE by whether it is an answer. -/
theorem dataMessagesAct : Obligations.DataMessagesAct := by
  intro s u f kind place hu hkind hplace
  refine ⟨fun h => ⟨?_, ?_, ?_, ?_, exec_data_gradient_keeps hu hkind hplace h, fun k a v => exec_data_gradient_lands hu hkind hplace h, ?_, ?_,
      fun p bs t => exec_data_reefWrite hu hkind hplace h, fun p t bs => exec_data_reefAsk hu hkind hplace h⟩,
    fun h => ⟨exec_dataDone_answers hu hkind hplace h, exec_dataDone_ends hu hkind hplace h⟩⟩
  all_goals
    intro hk
    exact exec_data_keeps hu hkind hplace h (by rw [hk]; rfl)

end Sys2Proof.Machine
end

section
/-! PROOFS. MOD_CONTROL of a Reef module in each of its actions, and the Reef window of the server cores (O21, O22). -/

namespace Sys2Proof.Machine

theorem not_not_actionIs {r : Req} {f : Fld} {a : Nat} (h : actionIs r f a = true) : ¬ (!actionIs r f a) = true := by simp [h]

/-! ### MOD_CONTROL (R339 to R342) -/

section
variable {s : State} {p : Nat} {r : Req} (hc : ChecksPass s (0x4100 + p) 3 r)
include hc

/-- An admission starts on a module with a sound identity that is PRESENT or whose link did not train. -/
theorem State.chartDo_admit {erase : Bool} (hbits : onlyBits r.value [actF, ModCtl.hours] = true) (hm : s.modState p = Ms.present ∨ s.modState p = Ms.trainFault)
    (hid : identityOk (s.ch (Ch.modId + 256 * p)) = true) (hh : erase = true → ModCtl.hours.get r.value = 0) :
    s.chartDo (0x4100 + p) 3 r (admitAct s p r erase) = ((admitAct s p r erase).effect s).okReply (0x4100 + p) 3 r := by
  have hrange : (admitAct s p r erase).range = true := by
    cases erase
    case false => simp only [admitAct, hbits, Bool.not_false, Bool.true_or, Bool.and_self]
    case true => simp only [admitAct, hbits, hh rfl, BEq.rfl, Bool.or_true, Bool.and_self]
  have hstate : (admitAct s p r erase).state = true := by rcases hm with h | h <;> simp only [admitAct, h, hid, BEq.rfl, Bool.or_true, Bool.true_or, Bool.and_self]
  exact State.chartDo_ok hc hrange hstate rfl

theorem exec_admitKeep_starts (hbits : onlyBits r.value [actF, ModCtl.hours] = true) (hm : s.modState p = Ms.present ∨ s.modState p = Ms.trainFault)
    (hid : identityOk (s.ch (Ch.modId + 256 * p)) = true) (ha : actionIs r actF 1 = true) :
    exec (.admitKeep p r) s = .next (((s.wake.setModState p Ms.training).modPort p
      (fun q => { q with erase := false, hours := ModCtl.hours.get r.value, admitting := 0 })).admitStep p 1 |>.okReply (0x4100 + p) 3 r) := by
  show execAdmitKeep p r s = _
  rw [execAdmitKeep, if_neg (not_not_actionIs ha), State.chartDo_admit (erase := false) hc hbits hm hid nofun]
  rfl

/-- ADMIT_ERASE ages no band, so its hours are 0. -/
theorem exec_admitErase_starts (hbits : onlyBits r.value [actF, ModCtl.hours] = true) (hm : s.modState p = Ms.present ∨ s.modState p = Ms.trainFault)
    (hid : identityOk (s.ch (Ch.modId + 256 * p)) = true) (ha : actionIs r actF 2 = true) (hh : ModCtl.hours.get r.value = 0) :
    exec (.admitErase p r) s = .next (((s.wake.setModState p Ms.training).modPort p
      (fun q => { q with erase := true, hours := 0, admitting := 0 })).admitStep p 1 |>.okReply (0x4100 + p) 3 r) := by
  show execAdmitErase p r s = _
  rw [execAdmitErase, if_neg (not_not_actionIs ha), State.chartDo_admit hc hbits hm hid (fun _ => hh)]
  simp only [admitAct, hh]

theorem exec_remove_drains (hbits : onlyBits r.value [actF] = true) (ha : actionIs r actF 3 = true) (hm : s.modState p = Ms.admitted) (hset : bit (s.ch Ch.reefSet) p = false) :
    exec (.remove p r) s = .next ((((s.setModState p Ms.draining).modPort p (fun q => { q with scrub := none })).settleDraining p).wake.okReply (0x4100 + p) 3 r) := by
  show execRemove p r s = _
  rw [execRemove, if_neg (not_not_actionIs ha)]
  exact congrArg _ (State.chartDo_ok hc hbits (by simp [hm, hset]) rfl)

theorem exec_reidentify_asks (hbits : onlyBits r.value [actF] = true) (ha : actionIs r actF 4 = true) (hm : s.modState p = Ms.idFault) :
    exec (.reidentify p r) s = .next (((s.setModState p Ms.identifying).out (.wire2Low p)).okReply (0x4100 + p) 3 r) := by
  show execReidentify p r s = _
  rw [execReidentify, if_neg (not_not_actionIs ha)]
  exact congrArg _ (State.chartDo_ok hc hbits (by simp [hm]) rfl)

end

/-- Settles O21: each action by the module states that R339 and R342 give it. -/
theorem moduleControlsComplete : Obligations.ModuleControlsComplete := by
  intro s p r hc
  exact ⟨fun hbits hm hid => ⟨exec_admitKeep_starts hc hbits hm hid, exec_admitErase_starts hc hbits hm hid⟩,
    fun hbits => ⟨exec_remove_drains hc hbits, exec_reidentify_asks hc hbits⟩⟩

/-! ### The window (R352, R353) -/

theorem exec_windowOffset_slides {s : State} {r : Req} (hc : ChecksPass s 0x1130 2 r) (hframe : r.value % 4096 = 0) (hlt : r.value < 2 ^ 52) :
    exec (.windowOffset r) s = .next ((State.setCh { s.flushWindow with window := [] } Ch.windowOffset r.value).okReply 0x1130 2 r) := by
  show execWindowOffset r s = _
  rw [execWindowOffset]
  exact congrArg _ (State.chartDo_ok hc (by simp only [hframe, hlt, BEq.rfl, decide_true, Bool.and_self]) rfl rfl)

theorem exec_windowFlush_flushes {s : State} {r : Req} (hc : ChecksPass s 0x1130 3 r) (ha : actionIs r actF 1 = true) (hbits : onlyBits r.value [actF] = true) :
    exec (.windowFlush r) s = .next (s.flushWindow.okReply 0x1130 3 r) := by
  show execWindowFlush r s = _
  rw [execWindowFlush, if_neg (not_not_actionIs ha)]
  exact congrArg _ (State.chartDo_ok hc hbits rfl rfl)

/-- Settles O22: the offset and the flush by their checks, loads and stores by whether all three domains are awake. -/
theorem windowCompletes : Obligations.WindowCompletes := by
  intro s r
  exact ⟨exec_windowOffset_slides, exec_windowFlush_flushes,
    fun a n => ⟨fun h => if_neg (not_not_intro h), fun h => if_pos h⟩, fun a bs => ⟨fun h => if_neg (not_not_intro h), fun h => if_pos h⟩⟩

end Sys2Proof.Machine
end

section
/-! PROOFS. The identity and the absence of a module, and the replies of its sideband (O35). -/

namespace Sys2Proof.Machine

/-! ### Replies, by their RESULT (R336) -/

section
variable {s : State} {p cmd reply : Nat} {busy ack : State → State}

theorem State.stepReply_ack (h : sbResult cmd reply = 0) : s.stepReply p cmd reply busy ack = ack (s.modPort p (fun q => { q with exchange := none })) := by
  simp only [State.stepReply, h]

theorem State.stepReply_busy (h : sbResult cmd reply = 1) : s.stepReply p cmd reply busy ack = busy (s.modPort p (fun q => { q with exchange := none })) := by
  simp only [State.stepReply, h]

theorem sbResult_le_two (cmd reply : Nat) : sbResult cmd reply ≤ 2 := by
  unfold sbResult
  split
  · exact le_rfl
  · exact Nat.min_le_right ..

theorem State.stepReply_nak (h : 2 ≤ sbResult cmd reply) :
    s.stepReply p cmd reply busy ack = (s.modPort p (fun q => { q with exchange := none })).handshakeFails p := by
  simp only [State.stepReply, le_antisymm (sbResult_le_two cmd reply) h]

end

/-! ### Identity and absence (R335, R339) -/

theorem exec_moduleIdentity_reads {s : State} {p : Nat} (a b : BitVec 12) (ok : Bool) (h : s.modState p = Ms.absent ∨ s.modState p = Ms.identifying) :
    exec (.moduleIdentity p a b ok) s = .next (if ok ∧ a = b ∧ setBits 12 a.toNat % 2 = 1 then
      ((s.setCh (Ch.modState + 256 * p) Ms.identifying).setCh (Ch.modId + 256 * p) a.toNat).setModState p Ms.present
      else (s.setCh (Ch.modState + 256 * p) Ms.identifying).setModState p Ms.idFault) := by
  have hread : ¬ (s.modState p ≠ Ms.absent ∧ s.modState p ≠ Ms.identifying) := by simpa [or_iff_not_imp_left] using h
  show execModuleIdentity p a b ok s = _
  rw [execModuleIdentity, if_neg hread, apply_ite Host.Outcome.next]

theorem exec_moduleAbsent_discards {s : State} {p : Nat} (h : s.modState p ∈ [Ms.present, Ms.idFault, Ms.trainFault, Ms.safe, Ms.lost]) :
    exec (.moduleAbsent p) s = .next ((s.setModState p Ms.absent).modPort p
      (fun q => { q with bands := [], admitting := 0, exchange := none, scrub := none, reloc := none, defects := [], warned := [] })) := by
  show execModuleAbsent p s = _
  rw [execModuleAbsent, if_pos (List.contains_iff_mem.mpr h)]

/-! ### The steps of an admission (R340, R341) -/

section
variable {s u : State} {p w : Nat} {r : BitVec 32}

/-- STATUS outside a handshake is a reading over the sleep bus. -/
theorem exec_status_reads (h : s.asked p Sb.status = some w) (hr : sbResult Sb.status r.toNat = 0) (hk : (s.port p).step = 0) :
    exec (.status p r) s = .next ((s.statusTemperature p r.toNat).modPort p (fun q => { q with exchange := none })) := by
  show execStatus p r s = _
  simp only [execStatus, h, hr, hk, if_true]

/-- STATUS of a handshake leads from its first step to LANES, from its fifth to PHY_RESULT. -/
theorem exec_status_goesOn (h : s.asked p Sb.status = some w) (hr : sbResult Sb.status r.toNat = 0) (hk : (s.port p).step ≠ 0) :
    exec (.status p r) s = .next (((s.statusTemperature p r.toNat).modPort p (fun q => { q with exchange := none })).admitStep p (if (s.port p).step = 1 then 2 else 6)) := by
  show execStatus p r s = _
  simp only [execStatus, h, hr, hk, if_true, if_false, State.stepReply_ack hr]

variable (hu : u = s.modPort p (fun q => { q with exchange := none }))
include hu

/-- LANES trains the lanes that detect a far end, is asked again, or fails the handshake. -/
theorem exec_lanes_replies (h : s.asked p Sb.lanes = some w) :
    (sbResult Sb.lanes r.toNat = 0 → exec (.lanes p r) s = .next ((u.modPort p (fun q => { q with locked := r.toNat % 256 })).admitStep p 3))
    ∧ (sbResult Sb.lanes r.toNat = 1 → exec (.lanes p r) s = .next (u.askModule p Sb.lanes (SbWord.data.get w)))
    ∧ (2 ≤ sbResult Sb.lanes r.toNat → exec (.lanes p r) s = .next (u.handshakeFails p)) := by
  show (_ → execLanes p r s = _) ∧ (_ → execLanes p r s = _) ∧ (_ → execLanes p r s = _)
  subst hu
  simp only [execLanes, h]
  exact ⟨fun hr => congrArg _ (State.stepReply_ack hr), fun hr => congrArg _ (State.stepReply_busy hr), fun hr => congrArg _ (State.stepReply_nak hr)⟩

theorem exec_preset_goesOn (h : s.asked p Sb.preset = some w) (hr : sbResult Sb.preset r.toNat = 0) : exec (.preset p r) s = .next (u.admitStep p 4) := by
  show execPreset p r s = _
  simp only [execPreset, h, State.stepReply_ack hr, hu]

theorem exec_phyStart_goesOn (h : s.asked p Sb.phyStart = some w) (hr : sbResult Sb.phyStart r.toNat = 0) : exec (.phyStart p r) s = .next (u.admitStep p 5) := by
  show execPhyStart p r s = _
  simp only [execPhyStart, h, State.stepReply_ack hr, hu]

/-- PHY_RESULT goes on with the lanes that the link uses. -/
theorem exec_phyResult_goesOn {l : Nat} (h : s.asked p Sb.phyResult = some w) (hr : sbResult Sb.phyResult r.toNat = 0) (hl : lanesUsed r.toNat = some l) :
    exec (.phyResult p r) s = .next ((u.modPort p (fun q => { q with locked := l })).admitStep p 7) := by
  show execPhyResult p r s = _
  simp only [execPhyResult, h, State.stepReply_ack hr, hl, hu]

theorem exec_linkUp_decides (h : s.asked p Sb.linkUp = some w) (hr : sbResult Sb.linkUp r.toNat = 0) (found : Option ModuleData) :
    exec (.linkUp p ⟨r, found⟩) s = .next (u.linkIsUp p (SbWord.data.get w % 256) found) := by
  show execLinkUp p ⟨r, found⟩ s = _
  simp only [execLinkUp, h, State.stepReply_ack hr, hu]

/-! ### Scrubs and wakes over the sleep bus (R347, R429) -/

theorem exec_scrubBand_replies (h : s.asked p Sb.scrubBand = some w) : exec (.scrubBand p r) s = .next (u.scrubReply p Sb.scrubBand r.toNat) := by
  show execScrubBand p r s = _
  simp only [execScrubBand, h, hu]

theorem exec_scrubPoll_replies (h : s.asked p Sb.scrubPoll = some w) : exec (.scrubPoll p r) s = .next (u.scrubReply p Sb.scrubPoll r.toNat) := by
  show execScrubPoll p r s = _
  simp only [execScrubPoll, h, hu]

/-- WAKE is asked again while the module is BUSY. -/
theorem exec_wake_replies (h : s.asked p Sb.wake = some w) : exec (.wake p r) s = .next (if sbResult Sb.wake r.toNat = 1 then u.askModule p Sb.wake 0 else u) := by
  show execWake p r s = _
  simp only [execWake, h, hu]
  split
  case h_1 hr => rw [if_pos hr]
  case h_2 hr => rw [if_neg hr]

end

/-- Settles O35: each reply by its RESULT, in the state in which its request is no longer awaited. -/
theorem moduleSidebandActs : Obligations.ModuleSidebandActs := by
  intro s u p hu
  refine ⟨exec_moduleIdentity_reads, exec_moduleAbsent_discards, fun w r => ⟨fun h hr => ⟨exec_status_reads h hr, fun hk => ?_, fun hk => ?_⟩, exec_lanes_replies hu,
      exec_preset_goesOn hu, exec_phyStart_goesOn hu, fun l => exec_phyResult_goesOn hu, exec_linkUp_decides hu, exec_scrubBand_replies hu, exec_scrubPoll_replies hu,
      exec_wake_replies hu⟩, fun h => if_neg h⟩
  · rw [exec_status_goesOn h hr (by rw [hk]; decide), if_pos hk]
  · rw [exec_status_goesOn h hr (by rw [hk]; decide), if_neg (by rw [hk]; decide)]

end Sys2Proof.Machine
end

section
/-! PROOFS. A module's alarms and wires; scrubs, relocations, and the ages and records of its bands (O36). -/

namespace Sys2Proof.Machine

/-! ### The early-removal warning, pulses, the busy warning (R337, R338, R343) -/

theorem exec_earlyRemovalWarning_leaves {s : State} {p : Nat} (hm : s.modState p = Ms.admitted) :
    exec (.earlyRemovalWarning p) s = .next ((s.setModState p Ms.leaving).modPort p (fun q => { q with scrub := none })) :=
  congrArg _ (if_pos hm)

section
variable {s : State} {p : Nat} (hm : s.modState p = Ms.admitted ∨ s.modState p = Ms.leaving ∨ s.modState p = Ms.draining)
include hm

/-- A pulse of wire 2 of 2 µs or more acts by its length. -/
theorem exec_attentionPulse_acts {us : Nat} (hus : 2 ≤ us) :
    exec (.attentionPulse ⟨p, us⟩) s = .next (if us ≤ 20 then s.sendControl p Sb.status 0 else if us < 50 then s.countSticky (Ch.alarmErrors + 256 * p) else s.earlyWarning p) := by
  have hserved : [Ms.training, Ms.admitted, Ms.leaving, Ms.draining].contains (s.modState p) = true := by rcases hm with h | h | h <;> rw [h] <;> rfl
  have hup : s.modState p ≠ Ms.training := by rcases hm with h | h | h <;> rw [h] <;> decide
  show execAttentionPulse ⟨p, us⟩ s = _
  simp only [execAttentionPulse, hserved, hup, Nat.not_lt.mpr hus, Bool.not_true, Bool.false_eq_true, or_self, if_false]
  split_ifs <;> rfl

/-- The busy warning carries the time that it counts. -/
theorem exec_moduleBusy_counts : exec (.moduleBusy p) s =
    .next ((s.count (Ch.busyTime + 256 * p) 64 100000).raise ⟨0x0105, p, (s.ch (Ch.busyTime + 256 * p) + 100000) % 2 ^ 64, 0, none, []⟩) := by
  have hserved : ¬ (s.modState p ≠ Ms.admitted ∧ s.modState p ≠ Ms.leaving ∧ s.modState p ≠ Ms.draining) := by
    rcases hm with h | h | h <;> simp [h]
  show execModuleBusy p s = _
  rw [execModuleBusy, if_neg hserved]
  simp only [State.count, State.ch_setCh, if_true]

end

/-! ### Alarm words (R337) -/

theorem exec_alarmWord_unframed (s : State) (p : Nat) (w : BitVec 16) : exec (.alarmWord p w false) s = .next (s.countSticky (Ch.alarmErrors + 256 * p)) := rfl

theorem exec_alarmWord_temperature {s : State} {p : Nat} {w : BitVec 16} (hk : w.toNat / 8192 = 0) :
    exec (.alarmWord p w true) s = .next (s.setTemperature p (signedOf 13 w.toNat)) := by
  have hkind : ¬ ((!true) = true ∨ 4 ≤ w.toNat / 8192) := by rw [hk]; decide
  show execAlarmWord p w true s = _
  rw [execAlarmWord, if_neg hkind, if_pos hk]

/-- A GROWN word makes a band that no metadata lie in defective, a free value (log entry 66). -/
theorem exec_alarmWord_grown {s : State} {p : Nat} {w : BitVec 16} (hk : w.toNat / 8192 = 2) (hw : w.toNat % 8192 ≠ 0) (hm : s.modState p = Ms.admitted) :
    ∃ b, b < firstMetaBand ∧ exec (.alarmWord p w true) s = .next (State.startRelocation 64 ((s.drew 1).defective p b 0) p) := by
  have hkind : ¬ ((!true) = true ∨ 4 ≤ w.toNat / 8192) := by rw [hk]; decide
  have hgrown : ¬ (s.modState p ≠ Ms.admitted ∨ w.toNat % 8192 = 0) := by simp [hm, hw]
  refine ⟨(Config.freeWord s.freeCount).toNat % firstMetaBand, Nat.mod_lt _ (by decide), ?_⟩
  show execAlarmWord p w true s = _
  rw [execAlarmWord, if_neg hkind, if_neg (by rw [hk]; decide), if_pos hk, if_neg hgrown]

/-! ### Relocations (R349, R350) -/

/-- A relocation moves its band to the FREE band with the least WEAR; one for a grown defect is counted and reported. -/
theorem exec_relocationComplete_moves {s u v : State} {p b reason nb : Nat} {l : List Nat} (hb : (s.port p).reloc = some (b, reason)) (hn : (s.port p).leastWorn = some nb)
    (hu : u = s.modPort p (fun q => { q.moveBand b nb (4 + reason) with
      reloc := none, defects := q.defects.filter (fun d => d.1 != b), waiting := [], poisoned := q.poisoned ++ l.map (fun f => 16384 * BandRec.logical.get ((s.port p).band b) + f % 16384) }))
    (hv : v = (if reason = 1 then u else (u.countSticky (Ch.defectsGrown + 256 * p)).raise ⟨0x0109, p, b, l.length, none, []⟩)) :
    exec (.relocationComplete p l) s = .next ((State.startRelocation 64 (v.spareFloor p) p).settleDraining p) := by
  subst hu hv
  show execRelocationComplete p l s = _
  simp only [execRelocationComplete, hb, hn]

/-! ### Ages and records of bands (R344, R346) -/

/-- The bands of a port after one more hour at a factor. -/
def Port.aged (q : Port) (h : Nat) : Port :=
  { q with scrubsHour := 0, bands := q.bands.map (fun e => if BandRec.state.get e.2 = Bs.mapped then (e.1, BandRec.age.set e.2 (min 8191 (BandRec.age.get e.2 + h))) else e) }

/-- Where no MAPPED band reaches an age of 168, the update of the only module's ages raises no event. -/
theorem exec_ageUpdate_ages {s : State} {p h : Nat} (hp : s.recordPorts = [p]) (hh : h = ageFactor (signedOf 32 (s.ch (Ch.temperature + 256 * p))))
    (hyoung : ∀ e ∈ (s.port p).bands, BandRec.state.get e.2 = Bs.mapped → BandRec.age.get e.2 < 168 → min 8191 (BandRec.age.get e.2 + h) < 168) :
    exec .ageUpdate s = .next (State.startRelocation 64 (s.modPort p (fun q => q.aged h)) p) := by
  have hnone : ((s.port p).bands.filter (fun e => BandRec.state.get e.2 == Bs.mapped)).filter
      (fun e => BandRec.age.get e.2 < 168 && decide (168 ≤ min 8191 (BandRec.age.get e.2 + h))) = [] := by
    rw [List.filter_eq_nil_iff]
    intro e he hcross
    obtain ⟨hmem, hmapped⟩ := List.mem_filter.mp he
    obtain ⟨hlt, hge⟩ := Bool.and_eq_true_iff.mp hcross
    exact absurd (of_decide_eq_true hge) (Nat.not_le.mpr (hyoung e hmem (eq_of_beq hmapped) (of_decide_eq_true hlt)))
  show execAgeUpdate s = _
  subst hh
  simp only [execAgeUpdate, hp, List.foldl_cons, List.foldl_nil, hnone, Port.aged]

/-! ### Scrubs (R346, R347) -/

theorem exec_scrubDue_asks {s : State} {p b : Nat} (hfree : (s.port p).scrub = none) (hreach : s.scrubReach p = true) (hb : s.scrubNext p = some b) :
    exec (.scrubDue p) s = .next ((s.modPort p (fun q => { q with scrub := some b, scrubsHour := q.scrubsHour + 1 })).scrubAsk p Sb.scrubBand b) := by
  show execScrubDue p s = _
  simp only [execScrubDue, hfree, hreach, hb, Option.isSome_none, Bool.not_true, Bool.false_eq_true, if_false]

/-- Settles O36: a pulse by its length, an alarm word by its kind, each other row under the conditions of its clause. -/
theorem moduleUpkeepActs : Obligations.ModuleUpkeepActs := by
  intro s p
  refine ⟨exec_earlyRemovalWarning_leaves, fun hm => ⟨fun us hus => ⟨fun hle => ?_, fun hlo hhi => ?_, fun hge => ?_⟩, exec_moduleBusy_counts hm⟩,
    fun w => ⟨exec_alarmWord_unframed s p w, exec_alarmWord_temperature, exec_alarmWord_grown⟩, fun b reason nb l u v => exec_relocationComplete_moves,
    fun h => exec_ageUpdate_ages, rfl, fun b => exec_scrubDue_asks⟩
  · rw [exec_attentionPulse_acts hm hus, if_pos hle]
  · rw [exec_attentionPulse_acts hm hus, if_neg (Nat.not_le.mpr hlo), if_pos hhi]
  · rw [exec_attentionPulse_acts hm hus, if_neg (by omega), if_neg (Nat.not_lt.mpr hge)]

end Sys2Proof.Machine
end

section
/-! PROOFS. Frames of a Reef link, out and in, and their replay (O37). -/

namespace Sys2Proof.Machine

/-! ### Frames out (R332, R333) -/

section
variable {s : State} {p : Nat} (hready : s.linkReady p = true)
include hready

/-- A read begins for the oldest request that needs one. -/
theorem exec_readFrame_asks {q : Request} {t : Transfer} {v : State} (hq : (s.unserved p).find? (fun q => !q.write || q.partSector) = some q)
    (hcool : (q.write && s.tooWarm p) = false) (hv : s.beginTransfer p q false = some (v, t)) :
    exec (.readFrame p) s = .next (v.sendLink p 1 t.mask t.frame 0 t.tag zeroSector (crc32c zeroSector)) := by
  show execReadFrame p s = _
  simp only [execReadFrame, hready, hq, hcool, hv, Bool.not_true, Bool.false_eq_true, if_false]

/-- A write under way goes on with its next sector. -/
theorem exec_writeFrame_goesOn {t : Transfer} (ht : (s.port p).transfers.find? (fun t => t.write && t.left != 0) = some t) :
    exec (.writeFrame p) s = .next (s.sendSector p t) := by
  show execWriteFrame p s = _
  simp only [execWriteFrame, hready, ht, Bool.not_true, Bool.false_eq_true, if_false]

/-- With none under way the oldest write that needs no merge begins. -/
theorem exec_writeFrame_begins {q : Request} {t : Transfer} {v : State} (hnone : (s.port p).transfers.find? (fun t => t.write && t.left != 0) = none)
    (hq : (s.unserved p).find? (fun q => q.write && !q.partSector) = some q) (hcool : s.tooWarm p = false) (hv : s.beginTransfer p q true = some (v, t)) :
    exec (.writeFrame p) s = .next (v.sendSector p t) := by
  show execWriteFrame p s = _
  simp only [execWriteFrame, hready, hnone, hq, hcool, hv, Bool.not_true, Bool.false_eq_true, if_false]

end

/-! ### Frames in (R333) -/

/-- A transfer that has received the sector `k`, whose check word holds. -/
def Transfer.receive (y : Transfer) (k : Nat) (bs : List Byte) : Transfer := { y with left := y.left - 2 ^ k, got := y.got.put k bs }

/-- The port of transfer `t` whose sector `k` has come sound: the transfers with its tag have received it, and the frame holds it. -/
def Port.takeSector (q : Port) (t : Transfer) (k : Nat) (bs : List Byte) : Port :=
  { ({ q with transfers := q.transfers.map (fun y => if y.tag = t.tag then y.receive k bs else y) } : Port).putFrame t.frame (256 * k) bs with
    badSectors := q.badSectors.filter (· != 16 * t.frame + k) }

@[simp] theorem Port.takeSector_transfers (q : Port) (t : Transfer) (k : Nat) (bs : List Byte) :
    (q.takeSector t k bs).transfers = q.transfers.map (fun y => if y.tag = t.tag then y.receive k bs else y) := rfl

/-- A sector whose check word holds is taken into the transfer that awaits it. -/
theorem exec_dataFrame_takes {s u : State} {p : Nat} {f : LinkFrame} {t : Transfer} (h : LinkTaken s p 3 f) (hu : u = s.afterLink p f)
    (hok : f.sectorCheck.toNat = crc32c f.payload)
    (ht : (u.port p).transfers.find? (fun t => t.tag == LinkHdr.tag.get f.header.toNat && !t.write && bit t.left (LinkHdr.sector.get f.header.toNat)) = some t) :
    exec (.dataFrame p f) s = .next (u.modPort p (fun q => q.takeSector t (LinkHdr.sector.get f.header.toNat) f.payload)) := by
  show execDataFrame p f s = _
  rw [execDataFrame, State.fromModule_taken h, ← hu]
  simp only [ht, hok, BEq.rfl, Bool.not_true, Bool.or_false, if_true]
  rfl

/-- The end of a transfer is that of its write or of its read. -/
theorem exec_doneFrame_ends {s u : State} {p : Nat} {f : LinkFrame} {t : Transfer} (h : LinkTaken s p 4 f) (hu : u = s.afterLink p f)
    (ht : (u.port p).transfers.find? (fun t => t.tag == LinkHdr.tag.get f.header.toNat) = some t) :
    exec (.doneFrame p f) s = .next (State.startRelocation 64 ((if t.write then u.writeDone p t (LinkHdr.status.get f.header.toNat)
      else u.readDone p t (LinkHdr.status.get f.header.toNat) (f.payload.headD 0).toNat).settleDraining p) p) := by
  show execDoneFrame p f s = _
  rw [execDoneFrame, State.fromModule_taken h, ← hu]
  simp only [ht]

section
variable {s : State} {p r : Nat} {f : LinkFrame} (h : LinkTaken s p 5 f) (hr : r = leNat (f.payload.take 4))
include h hr

theorem exec_controlFrame_scrub (hcmd : SbWord.cmd.get r = Sb.scrubBand ∨ SbWord.cmd.get r = Sb.scrubPoll) :
    exec (.controlFrame p f) s = .next ((s.afterLink p f).scrubReply p (SbWord.cmd.get r) r) := by
  have hother : SbWord.cmd.get r ≠ Sb.status := by rcases hcmd with hc | hc <;> rw [hc] <;> decide
  show execControlFrame p f s = _
  rw [execControlFrame, State.fromModule_taken h, ← hr]
  exact congrArg _ ((if_neg hother).trans (if_pos hcmd))

theorem exec_controlFrame_status (hcmd : SbWord.cmd.get r = Sb.status) (hack : sbResult Sb.status r = 0) :
    exec (.controlFrame p f) s = .next ((s.afterLink p f).statusTemperature p r) := by
  show execControlFrame p f s = _
  rw [execControlFrame, State.fromModule_taken h, ← hr]
  exact congrArg _ ((if_pos hcmd).trans (if_pos (by rw [hcmd, hack])))

end

/-! ### Replay (R334) -/

section
variable {s : State} {p : Nat} (hready : s.linkReady p = true)
include hready

/-- After seven replays the link has failed. -/
theorem exec_linkReplay_fails (h : 7 ≤ (s.port p).replays) : exec (.linkReplay p) s = .next (s.linkFails p) := by
  show execLinkReplay p s = _
  simp only [execLinkReplay, hready, h, Bool.not_true, Bool.false_eq_true, if_false, if_true]

/-- Every unacknowledged frame goes out again, and the replay is counted. -/
theorem exec_linkReplay_sends (h : (s.port p).replays < 7) :
    exec (.linkReplay p) s = .next ((s.port p).unacked.foldl (fun (s : State) f => s.out (.linkFrame p f))
      ((s.modPort p (fun q => { q with replays := q.replays + 1 })).countSticky (Ch.linkReplays + 256 * p) (max 1 (s.port p).unacked.length))) := by
  show execLinkReplay p s = _
  simp only [execLinkReplay, hready, Nat.not_le.mpr h, Bool.not_true, Bool.false_eq_true, if_false]

end

/-- Settles O37: frames out by the request or the transfer they serve, frames in by the state their header leaves, a replay by how many went before. -/
theorem linkFramesAct : Obligations.LinkFramesAct := by
  intro s p
  refine ⟨fun q t v hready => exec_readFrame_asks hready, fun hready => ⟨fun t => exec_writeFrame_goesOn hready, fun q t v => exec_writeFrame_begins hready⟩, ?_,
    fun f u t => exec_doneFrame_ends, fun f r h hr => ⟨exec_controlFrame_scrub h hr, exec_controlFrame_status h hr⟩,
    fun hready => ⟨exec_linkReplay_fails hready, exec_linkReplay_sends hready⟩⟩
  intro f u t h hu hok ht
  refine ⟨_, exec_dataFrame_takes h hu hok ht, State.modPort_mem .., State.modPort_chart .., ?_⟩
  rw [State.modPort_port, if_pos rfl, Port.takeSector_transfers]
  rfl

end Sys2Proof.Machine
end

section
/-! PROOFS. The pairing of two packages' copies: COPY_PARTNER, the feeds and CORRELATED_OVERRIDE (O23). -/

namespace Sys2Proof.Machine

section
variable {s : State} {r : Req}

/-- COPY_PARTNER with no partner, while no write of it is held, ends the pairing at once. -/
theorem exec_copyPartner_clears (hc : ChecksPass s 0x9181 1 r) (hnone : r.value = noRef) (hask : s.cascade.pairAsk = none) :
    exec (.copyPartner r) s = .next (((((s.setCh Ch.copyPartner noRef).setCh Ch.partnerFeedA 0).setCh Ch.partnerFeedB 0).setCh Ch.pairState Pair.none).okReply 0x9181 1 r) := by
  show execCopyPartner r s = _
  simp only [execCopyPartner, if_pos hnone]
  rw [State.chartDo_ok hc (by simp only [hnone, BEq.rfl, Bool.true_or]) (by simp only [hask, Option.isNone_none, Bool.and_self]) (by simp only [hnone, BEq.rfl, Bool.true_or]), hnone]

/-- COPY_PARTNER with another package that can be reached is held until that package's feeds have come. -/
theorem exec_copyPartner_asks (hc : ChecksPass s 0x9181 1 r) (hlt : r.value < 4096) (hvalid : s.pkgValid r.value = true) (hother : r.value ≠ s.self)
    (hreached : (s.peer r.value).lost = false) (hask : s.cascade.pairAsk = none) :
    exec (.copyPartner r) s = .next ((State.chartHold { s with cascade := { s.cascade with pairAsk := some (r, r.value, none) } } r).askFeeds r.value 1) := by
  have ⟨hfree, _⟩ := hc
  have hsome : r.value ≠ noRef := (hlt.trans (by decide)).ne
  show execCopyPartner r s = _
  rw [execCopyPartner, if_neg hsome, if_neg]
  rintro (hbusy | hstatus | hlost)
  · exact Bool.false_ne_true (hfree.symm.trans hbusy)
  · refine hstatus (State.writeStatus_ok hc ?_ ?_ ?_)
    · simp only [hlt, decide_true, Bool.or_true]
    · simp only [hask, Option.isNone_none, Bool.and_self]
    · simp only [hvalid, bne_iff_ne.mpr hother, Bool.and_self, Bool.or_true]
  · exact Bool.false_ne_true (hreached.symm.trans hlost)

/-- A write of a feed settles the pairing, and a partner is asked for its own feeds again. -/
theorem exec_feedWrite_settles {sub : Nat} {t : State} (hsub : sub = 1 ∨ sub = 2) (hc : ChecksPass s 0x9180 sub r)
    (ht : t = (s.setCh (if sub = 1 then Ch.feedA else Ch.feedB) r.value).settlePair) :
    exec (.feedWrite sub r) s = .next ((if t.ch Ch.pairState = Pair.none then t else t.askFeeds (t.ch Ch.copyPartner) 3).okReply 0x9180 sub r) := by
  have hfeed : ¬ (sub ≠ 1 ∧ sub ≠ 2) := by omega
  subst ht
  show execFeedWrite sub r s = _
  rw [execFeedWrite, if_neg hfeed]
  exact congrArg _ (State.chartDo_ok hc rfl rfl rfl)

theorem exec_correlatedOverride_settles (hc : ChecksPass s 0x9181 4 r) :
    exec (.correlatedOverride r) s = .next ((s.setCh Ch.correlatedOverride r.value).settlePair.okReply 0x9181 4 r) :=
  congrArg Host.Outcome.next (State.chartDo_ok hc rfl rfl rfl)

end

/-- Settles O23: COPY_PARTNER by whether it names a partner, the feeds and CORRELATED_OVERRIDE by their effect on the pairing. -/
theorem pairingCompletes : Obligations.PairingCompletes := by
  intro s r
  exact ⟨exec_copyPartner_clears, exec_copyPartner_asks, fun sub t => exec_feedWrite_settles, exec_correlatedOverride_settles⟩

end Sys2Proof.Machine
end

section
/-! PROOFS. Messages and link frames that are damaged or out of turn (O58). -/

namespace Sys2Proof.Machine

/-! ### Cascade messages (R393, R394) -/

/-- A message that R393 discards is counted, whatever its kind. -/
theorem State.message_discarded {s : State} {f : Frame} (hd : s.discards f = true) (kind : Nat) (take : State → Nat → Nat → State) :
    s.message kind f take = s.countSticky Ch.msgDiscards := if_pos hd

/-- A message that is not next in its sender's sequence leaves its ACK and the wake. -/
theorem State.message_outOfTurn {s : State} {kind : Nat} {f : Frame} (hd : s.discards f = false) (hk : MsgHdr.kind.get f.header.toNat = kind)
    (hq : MsgHdr.seq.get f.header.toNat ≠ ((s.peer (frameSrc f)).rxSeq + 1) % 65536) (take : State → Nat → Nat → State) :
    s.message kind f take = (s.takeAck (frameSrc f) (MsgHdr.ack.get f.header.toNat)).wake := by
  have hturn : MsgHdr.seq.get f.header.toNat ≠ (((s.takeAck (frameSrc f) (MsgHdr.ack.get f.header.toNat)).wake.peer (frameSrc f)).rxSeq + 1) % 65536 := by
    rw [State.peer_wake, State.takeAck_rxSeq]
    exact hq
  simp only [State.message, hd, hk, Bool.false_eq_true, ne_eq, not_true_eq_false, if_false]
  exact if_pos hturn

/-- The commands of the cascade's messages, each with its kind. -/
def messageCommands (f : Frame) : List (Nat × Instr) :=
  [(Mk.heartbeat, .heartbeat f), (Mk.buoyOp, .buoyOp f), (Mk.buoyReply, .buoyReply f), (Mk.data, .data f), (Mk.dataDone, .dataDone f), (Mk.epochReport, .epochReport f),
    (Mk.digestRoot, .digestRoot f), (Mk.treeRequest, .treeRequest f), (Mk.treeData, .treeData f), (Mk.chartRequest, .chartRequest f), (Mk.chartReply, .chartReply f),
    (Mk.memberNotice, .memberNotice f)]

/-- A CHART_REQUEST that is not taken serves no access. -/
theorem exec_chartRequest_notTaken {s : State} {f : Frame} (h : ¬ MessageTaken s Mk.chartRequest f) :
    exec (.chartRequest f) s = .next (s.message Mk.chartRequest f (fun s _ _ => s)) := by
  have hstale : (!s.discards f && MsgHdr.kind.get f.header.toNat == Mk.chartRequest
      && MsgHdr.seq.get f.header.toNat == ((s.peer (MsgHdr.srcPackage.get f.header.toNat)).rxSeq + 1) % 65536) = false := by
    rw [← Bool.not_eq_true]
    simpa [MessageTaken, frameSrc, and_assoc] using h
  show execChartRequest f s = _
  simp only [execChartRequest, hstale, Bool.not_false, if_true]

/-- Each of these commands acts by its message alone, where the message is not taken. -/
theorem exec_messageCommand_notTaken {s : State} {f : Frame} : ∀ p ∈ messageCommands f, ¬ MessageTaken s p.1 f →
    ∃ take, exec p.2 s = .next (s.message p.1 f take) := by
  simp only [messageCommands, List.forall_mem_cons, List.not_mem_nil, false_imp_iff, implies_true, and_true]
  exact ⟨fun _ => ⟨_, rfl⟩, fun _ => ⟨_, rfl⟩, fun _ => ⟨_, rfl⟩, fun _ => ⟨_, rfl⟩, fun _ => ⟨_, rfl⟩, fun _ => ⟨_, rfl⟩, fun _ => ⟨_, rfl⟩, fun _ => ⟨_, rfl⟩,
    fun _ => ⟨_, rfl⟩, fun h => ⟨_, exec_chartRequest_notTaken h⟩, fun _ => ⟨_, rfl⟩, fun _ => ⟨_, rfl⟩⟩

/-! ### Frames of a Reef link (R333, R334) -/

section
variable {s : State} {p : Nat} {g : LinkFrame} (hserves : s.moduleServes p true = true)
include hserves

/-- A frame that fails its check is counted. -/
theorem State.fromModule_damaged (hsound : linkSound g = false) (kind : Nat) (take : State → State) :
    s.fromModule p kind g take = s.countSticky (Ch.linkReplays + 256 * p) := by
  simp only [State.fromModule, hserves, hsound, Bool.not_true, Bool.not_false, Bool.false_eq_true, if_false, if_true]

/-- A sound frame that is not next in its module's sequence leaves its ACK. -/
theorem State.fromModule_outOfTurn (hsound : linkSound g = true) (hq : LinkHdr.seq.get g.header.toNat ≠ ((s.port p).rxSeq + 1) % 4096) (kind : Nat) (take : State → State) :
    s.fromModule p kind g take = s.linkAck p (LinkHdr.ack.get g.header.toNat) := by
  have hturn : LinkHdr.seq.get g.header.toNat ≠ (((s.linkAck p (LinkHdr.ack.get g.header.toNat)).port p).rxSeq + 1) % 4096 := by
    rw [State.linkAck_rxSeq]
    exact hq
  simp only [State.fromModule, hserves, hsound, Bool.not_true, Bool.false_eq_true, if_false]
  exact if_pos (.inl hturn)

end

/-- The commands of a module's frames, each with its kind. -/
def frameCommands (p : Nat) (g : LinkFrame) : List (Nat × Instr) := [(3, .dataFrame p g), (4, .doneFrame p g), (5, .controlFrame p g)]

/-- Each of these commands acts by its frame alone. -/
theorem exec_frameCommand {s : State} {p : Nat} {g : LinkFrame} : ∀ q ∈ frameCommands p g, ∃ take, exec q.2 s = .next (s.fromModule p q.1 g take) := by
  simp only [frameCommands, List.forall_mem_cons, List.not_mem_nil, false_imp_iff, implies_true, and_true]
  exact ⟨⟨_, rfl⟩, ⟨_, rfl⟩, ⟨_, rfl⟩⟩

/-- Settles O58: a message by whether R393 discards it, a link frame by its check; neither is taken, so what would take it plays no part. -/
theorem outOfTurnMessagesAreNotTaken : Obligations.OutOfTurnMessagesAreNotTaken := by
  rintro s f _ rfl
  refine ⟨fun p hp => ⟨fun hd => ?_, fun hd hk hq => ?_⟩, fun p g hserves q hq => ⟨fun hsound => ?_, fun hsound _ hturn => ?_⟩⟩
  · obtain ⟨take, he⟩ := exec_messageCommand_notTaken p hp (fun h : MessageTaken s p.1 f => Bool.false_ne_true (h.1.symm.trans hd))
    rw [he, State.message_discarded hd]
  · obtain ⟨take, he⟩ := exec_messageCommand_notTaken p hp (fun ⟨_, _, hseq⟩ => hq hseq)
    rw [he, State.message_outOfTurn hd hk hq]
  · obtain ⟨take, he⟩ := exec_frameCommand (s := s) q hq
    rw [he, State.fromModule_damaged hserves hsound]
  · obtain ⟨take, he⟩ := exec_frameCommand (s := s) q hq
    rw [he, State.fromModule_outOfTurn hserves hsound hturn]

end Sys2Proof.Machine
end

section
/-! PROOFS. Registered regions and host sessions (O24). -/

namespace Sys2Proof.Machine

/-! ### ENABLE and DISABLE (R383) -/

section
variable {s : State} {r : Req} {g : Nat} (hg : g = RegCtl.index.get r.value) (hc : ChecksPass s 0x2010 3 r) (hbits : onlyBits r.value [RegCtl.index, actF] = true)
  (hlt : g < s.ch Ch.regCount)
include hg hc hbits hlt

theorem exec_regionEnable_enables (ha : actionIs r actF 1 = true) (hstate : s.fld (s.regBase g) DevRegion.state = 0) (hsound : s.failing (s.regBase g) 32 = none)
    (hvalid : s.regionValid g = true) : exec (.regionEnable r) s = .next ((s.setFld (s.regBase g) DevRegion.state 1).wake.okReply 0x2010 3 r) := by
  subst hg
  show execRegionEnable r s = _
  rw [execRegionEnable, if_neg (not_not_actionIs ha)]
  exact congrArg _ (State.chartDo_ok hc (by simp [hbits, hlt]) (by simp [hstate, hsound]) hvalid)

theorem exec_regionDisable_closes (ha : actionIs r actF 2 = true) (hstate : s.fld (s.regBase g) DevRegion.state = 1) :
    exec (.regionDisable r) s = .next ((s.closeRegion g).wake.okReply 0x2010 3 r) := by
  subst hg
  show execRegionDisable r s = _
  rw [execRegionDisable, if_neg (not_not_actionIs ha)]
  exact congrArg _ (State.chartDo_ok hc (by simp [hbits, hlt]) (by simp [hstate]) rfl)

end

/-- With no other DISABLE waiting, one of a busy region waits, and one of an idle region is done at once (log entry 81). -/
theorem State.closeRegion_of_none_closing {s : State} (h : s.closing = []) (g : Nat) :
    s.closeRegion g = if s.regionBusy g then { s with closing := [g] } else s.setFld (s.regBase g) DevRegion.state 0 := by
  have hbusy : State.regionBusy { s with closing := [g] } g = s.regionBusy g := rfl
  have hnone : ({ s with closing := [] } : State) = s := by rw [← h]
  simp only [State.closeRegion, State.closeRegions, h, List.contains_nil, Bool.false_eq_true, if_false, List.nil_append, List.filter_cons, List.filter_nil, hbusy]
  cases s.regionBusy g
  case true => rfl
  case false => rw [← hnone]; rfl

/-! ### Sessions (R388, R390) -/

section
variable {s : State} {r : Req} (hc : ChecksPass s 0x1100 3 r) (hbits : onlyBits r.value [Attach.nonce, Attach.action] = true) (hnonce : Attach.nonce.get r.value ≠ 0)
include hc hbits hnonce

/-- A request of a session with a nonce other than 0 acts where its own condition holds. -/
theorem attachAct_ok {ok : Bool} (hok : ok = true) (effect : State → State) : attachAct s r ok effect = (effect s).okReply 0x1100 3 r :=
  State.chartDo_ok hc (by simp [hbits, hnonce]) hok rfl

theorem exec_attach_attaches (ha : actionIs r Attach.action 1 = true) (hstate : s.ch Ch.sessionState = Sn.detached) :
    exec (.attach r) s = .next ((s.attached (Attach.nonce.get r.value)).okReply 0x1100 3 r) := by
  show execAttach r s = _
  rw [execAttach, if_neg (not_not_actionIs ha), attachAct_ok hc hbits hnonce (by simp [hstate])]

theorem exec_takeover_attaches (ha : actionIs r Attach.action 2 = true) (hstate : s.ch Ch.sessionState ≠ Sn.detached) :
    exec (.takeover r) s = .next ((s.attached (Attach.nonce.get r.value)).okReply 0x1100 3 r) := by
  show execTakeover r s = _
  rw [execTakeover, if_neg (not_not_actionIs ha), attachAct_ok hc hbits hnonce (by simp [hstate])]

theorem exec_detach_detaches (ha : actionIs r Attach.action 3 = true) (hmine : Attach.nonce.get r.value = s.ch Ch.sessionId) :
    exec (.detach r) s = .next (((s.setCh Ch.sessionState Sn.detached).setCh Ch.sessionId 0).okReply 0x1100 3 r) := by
  show execDetach r s = _
  rw [execDetach, if_neg (not_not_actionIs ha), attachAct_ok hc hbits hnonce (by simp [hmine])]

end

/-- The state in which a session has lost its host, before the event that reports it. -/
def State.orphaned (s : State) : State := { s.setCh Ch.sessionState Sn.orphaned with clock := { s.clock with orphan := 0 } }

/-- A session whose heartbeat is missed is ORPHANED and reported. -/
theorem exec_heartbeatTimeout_orphans {s : State} (hstate : s.ch Ch.sessionState = Sn.attached) (hlimit : s.ch Ch.heartbeatLimit ≠ 0) :
    exec .heartbeatTimeout s = .next (s.orphaned.raise ⟨0x0B08, noRef, s.ch Ch.sessionId, Sn.orphaned, none, []⟩) := by
  have hid : (s.setCh Ch.sessionState Sn.orphaned).ch Ch.sessionId = s.ch Ch.sessionId := by
    rw [State.ch_setCh, if_neg (by decide)]
  have hlive : ¬ (s.ch Ch.sessionState ≠ Sn.attached ∨ s.ch Ch.heartbeatLimit = 0) := not_or.mpr ⟨not_not.mpr hstate, hlimit⟩
  show execHeartbeatTimeout s = _
  rw [execHeartbeatTimeout, if_neg hlive, ← hid]
  rfl

/-- Settles O24: each control under the conditions of its clause; a DISABLE by whether its region is busy. -/
theorem hostControlsComplete : Obligations.HostControlsComplete := by
  intro s r
  refine ⟨fun g hg hc hbits hlt => ⟨exec_regionEnable_enables hg hc hbits hlt, fun ha hstate => ⟨exec_regionDisable_closes hg hc hbits hlt ha hstate, fun h => ?_⟩⟩,
    fun hc hbits hnonce => ⟨exec_attach_attaches hc hbits hnonce, exec_takeover_attaches hc hbits hnonce, exec_detach_detaches hc hbits hnonce⟩, fun hstate hlimit => ?_⟩
  · exact State.closeRegion_of_none_closing h g
  · exact ⟨s.orphaned, rfl, rfl, rfl, rfl, exec_heartbeatTimeout_orphans hstate hlimit⟩

end Sys2Proof.Machine
end

section
/-! PROOFS. HEARTBEAT, BUOY_OP and BUOY_REPLY, once they are taken (O31). -/

namespace Sys2Proof.Machine

/-! ### HEARTBEAT (R397) -/

/-- A member's claim settles the group, or is reported where it does not agree with this package's. -/
theorem exec_heartbeat_settles {s u v : State} {f : Frame} {p : Nat} {ok : Bool} (hu : u = s.afterFrame f) (h : MessageTaken s Mk.heartbeat f)
    (hp : u.memberAt (frameSrc f) = some p) (hmember : bit (u.ch Ch.members) p = true)
    (hok : ok = (frameArg f % 256 == u.masterPosition && frameArg f / 256 % 256 == u.ch Ch.members))
    (hv : v = (u.setPeer (frameSrc f) { u.peer (frameSrc f) with heard := true, agrees := ok }).settleGroup) :
    exec (.heartbeat f) s = .next (if ok = true then v else
      v.raise ⟨0x0B0A, v.ch Ch.groupId, p, frameArg f / 256 % 256 + frameArg f % 256 % 8 * 256, none, []⟩) := by
  subst hv hok hu
  show execHeartbeat f s = _
  rw [execHeartbeat, State.message_taken h]
  simp only [hp, hmember, Bool.not_true, Bool.false_eq_true, if_false, Nat.zero_mul, Nat.add_zero]

/-! ### BUOY_OP (R298) -/

/-- A BUOY_OP that is taken answers its issuer what ends at once; what waits is answered once it is released. -/
def State.answerOp (f : Frame) : State × BuoyEnd → State
  | (s, .waits) => s.recheckSlips
  | (s, .ended st _) => (s.send (frameSrc f) Mk.buoyReply (frameArg f % 2 ^ 32 + st * 2 ^ 32) []).recheckSlips

/-- What operation `op` of a BUOY_OP does on the buoy it names. -/
def State.opDoes (s : State) (f : Frame) (ctx name n op : Nat) : State × BuoyEnd :=
  if op = 1 then s.signal ctx name n
  else if op = 2 then s.waitOn ctx name n (.remote (frameSrc f) (frameArg f % 2 ^ 32))
  else s.enterBarrier ctx name n (.remote (frameSrc f) (frameArg f % 2 ^ 32))

section
variable {s u : State} {f : Frame} {name n ctx op k : Nat} {b : Buoy} (hu : u = s.afterFrame f) (h : MessageTaken s Mk.buoyOp f) (hname : name = leNat (f.payload.take 4))
  (hn : n = leNat ((f.payload.drop 4).take 4)) (hctx : ctx = leNat ((f.payload.drop 8).take 2)) (hop : op = leNat ((f.payload.drop 10).take 2))
  (hfind : u.findBuoy ctx name = some (k, b))
include hu h hname hn hctx hop hfind

/-- An operation that R298 lists acts on the buoy that this package binds to the name. -/
theorem exec_buoyOp_acts (hlo : op ≠ 0) (hhi : op ≤ 3) : exec (.buoyOp f) s = .next (State.answerOp f (u.opDoes f ctx name n op)) := by
  subst hu hname hn hctx hop
  have hlisted : ¬ (leNat ((f.payload.drop 10).take 2) = 0 ∨ 3 < leNat ((f.payload.drop 10).take 2)) := not_or.mpr ⟨hlo, Nat.not_lt.mpr hhi⟩
  show execBuoyOp f s = _
  rw [execBuoyOp, State.message_taken h]
  simp only [hlisted, hfind, if_false]
  unfold State.opDoes
  split
  case h_1 he => rw [he, State.answerOp]
  case h_2 he => rw [he, State.answerOp, Nat.zero_mul, Nat.add_zero]

variable (hlost : b.lost = false)
include hlost

theorem exec_buoyOp_signals (hone : op = 1) (hunits : n ≠ 0) (hkind : b.kind = Bk.semaphore) (hle : b.count + n ≤ b.limit) :
    exec (.buoyOp f) s = .next (((((u.translates.setBuoy k { b with count := b.count + n }).noteSignal k).serve k).send (frameSrc f) Mk.buoyReply (frameArg f % 2 ^ 32) []).recheckSlips) := by
  rw [exec_buoyOp_acts hu h hname hn hctx hop hfind (by omega) (by omega), State.opDoes, if_pos hone, State.signal_within rfl hunits hfind hlost hkind hle,
    State.answerOp, St.success, Nat.zero_mul, Nat.add_zero]

/-- Units that are not there, or that others wait for, are waited for in the name of the issuer. -/
theorem exec_buoyOp_waits (htwo : op = 2) (hunits : n ≠ 0) (hkind : b.kind = Bk.semaphore) (hle : n ≤ b.limit) (hbusy : b.waiters ≠ [] ∨ b.count < n) :
    exec (.buoyOp f) s = .next (u.translates.setBuoy k { b with waiters := b.waiters ++ [⟨.remote (frameSrc f) (frameArg f % 2 ^ 32), n⟩] }).recheckSlips := by
  have hnow : ¬ (b.waiters.isEmpty = true ∧ n ≤ b.count) := by
    rw [List.isEmpty_iff, not_and_or, Nat.not_le]
    exact hbusy
  rw [exec_buoyOp_acts hu h hname hn hctx hop hfind (by omega) (by omega), State.opDoes, if_neg (by omega), if_pos htwo,
    State.waitOn_within rfl hunits hfind hlost hkind _ hle, if_neg hnow, State.answerOp]

theorem exec_buoyOp_enters (hthree : op = 3) (hkind : b.kind = Bk.barrier) (hround : n = b.round) (hlt : n < 2 ^ 32) (hroom : b.entries.length < b.participants) :
    exec (.buoyOp f) s = .next (State.roundComplete 3 (u.translates.setBuoy k { b with entries := b.entries ++ [⟨.remote (frameSrc f) (frameArg f % 2 ^ 32), 1⟩] }) k).recheckSlips := by
  rw [exec_buoyOp_acts hu h hname hn hctx hop hfind (by omega) (by omega), State.opDoes, if_neg (by omega), if_neg (by omega),
    State.enterBarrier_current _ rfl hfind hlost hkind (by rw [Nat.mod_eq_of_lt hlt, hround]) hroom, State.answerOp]

end

/-! ### BUOY_REPLY (R299) -/

/-- The state in which the operation numbered `id` is pending no more. -/
def State.dropOp (s : State) (id : Nat) : State := { s with cascade := { s.cascade with ops := s.cascade.ops.filter (fun p => p.id != id) } }

/-- A reply of SUCCESS ends a command's SIGNAL, and grants what a command waited for. -/
theorem exec_buoyReply_succeeds {s u : State} {f : Frame} {o : RemoteOp} {d : Dispatched} (hu : u = s.afterFrame f) (h : MessageTaken s Mk.buoyReply f)
    (hst : frameArg f / 2 ^ 32 % 256 = St.success) (ho : u.cascade.ops.find? (fun o => o.id == frameArg f % 2 ^ 32 && o.pkg == frameSrc f) = some o)
    (hwho : o.who = .cmd d.tag) (hd : u.dispatched.find? (fun e => e.tag == d.tag) = some d) :
    exec (.buoyReply f) s = .next (if o.kind = 1 then (u.dropOp (frameArg f % 2 ^ 32)).endCmd d St.success 0 else (u.dropOp (frameArg f % 2 ^ 32)).setStage d.tag .granted 0) := by
  subst hu
  have hloss : ¬ (St.success = St.ownerLost ∧ o.kind ≠ 1) := fun hl => absurd hl.1 (by decide)
  show execBuoyReply f s = _
  rw [execBuoyReply, State.message_taken h]
  simp only [ho, hst, hloss, hwho, hd, if_false, if_true]
  rfl

/-- Settles O31: a HEARTBEAT by its sender's claim, a BUOY_OP by what its buoy answers, a BUOY_REPLY by the operation it ends. -/
theorem groupMessagesAct : Obligations.GroupMessagesAct := by
  rintro s u _ f hu rfl
  refine ⟨fun p ok v => exec_heartbeat_settles hu, fun name n ctx op k b h hname hn hctx hop hfind hlost => ⟨exec_buoyOp_signals hu h hname hn hctx hop hfind hlost,
    exec_buoyOp_waits hu h hname hn hctx hop hfind hlost, exec_buoyOp_enters hu h hname hn hctx hop hfind hlost⟩, fun o d h hst ho hwho hd => ?_⟩
  exact ⟨u.dropOp (frameArg f % 2 ^ 32), rfl, rfl, rfl, exec_buoyReply_succeeds hu h hst ho hwho hd⟩

end Sys2Proof.Machine
end

section
/-! PROOFS. The timers of the cascade (O34). -/

namespace Sys2Proof.Machine

/-! ### MESSAGE_RESEND (R394) -/

section
variable {s : State} {p : Nat} (hun : (s.peer p).unacked ≠ [])
include hun

/-- Unanswered messages go out again, up to seven times. -/
theorem exec_messageResend_sends (h : (s.peer p).resends < 7) :
    exec (.messageResend p) s = .next ((s.peer p).unacked.foldl (fun (s : State) f => s.transmit p f)
      ((s.setPeer p { s.peer p with resends := (s.peer p).resends + 1 }).countSticky Ch.msgResends (s.peer p).unacked.length)) := by
  show execMessageResend p s = _
  simp only [execMessageResend, List.isEmpty_iff, hun, h, if_false, if_true]

/-- After seven resends the package is lost. -/
theorem exec_messageResend_loses (h : 7 ≤ (s.peer p).resends) :
    exec (.messageResend p) s = .next ((s.raise ⟨0x0B09, p, s.ch Ch.msgResends, 0, none, []⟩).packageGone p s.nextEvent) := by
  show execMessageResend p s = _
  simp only [execMessageResend, List.isEmpty_iff, hun, Nat.not_lt.mpr h, if_false]

end

section
variable {s : State} (hgroup : s.ch Ch.groupId ≠ 0)
include hgroup

/-! ### HEARTBEAT_SEND (R396) -/

theorem exec_heartbeatSend_sends : exec .heartbeatSend s = .next ((s.otherMembers.filterMap s.pkgAt).foldl
    (fun (s : State) q => s.send q Mk.heartbeat (s.masterPosition + s.ch Ch.members * 256) []) s) := if_neg hgroup

/-! ### MEMBER_TIMEOUT (R398, R399) -/

/-- On the master a silent member is lost: the barriers of log entry 51 lose their owner, and every member still up is told. -/
theorem exec_memberTimeout_loses {p : Nat} {t b : State} {a : State × List TaskRef} (hmaster : s.isMaster = true) (hother : p ≠ strapPos) (hup : bit (s.ch Ch.membersUp) p = true)
    (ht : t = s.setCh Ch.membersUp (s.ch Ch.membersUp - 2 ^ p))
    (ha : a = (t.raise ⟨0x0B0B, t.ch Ch.groupId, p, t.ch Ch.membersUp, none, []⟩).ownersLost (fun b => b.kind == Bk.barrier && b.owner != Bo.plan) 5 true false)
    (hb : b = a.1.abortGroups a.2 St.ownerLost) :
    exec (.memberTimeout p) s = .next (((((b.otherMembers.filter (fun q => q != p && bit (b.ch Ch.membersUp) q)).filterMap b.pkgAt).foldl
      (fun (s : State) q => s.send q Mk.memberNotice p []) b).memberLost p t.nextEvent).recheckSlips) := by
  subst hb ha ht
  have hlive : ¬ (s.ch Ch.groupId = 0 ∨ (!s.isMaster) = true ∨ p = strapPos ∨ (!bit (s.ch Ch.membersUp) p) = true) := by
    simp [hgroup, hmaster, hother, hup]
  exact if_neg hlive

/-! ### MASTER_TIMEOUT (R400) -/

variable (hmember : s.isMaster = false) (hstate : s.ch Ch.groupState ≠ 3)
include hmember hstate

/-- A member whose master is silent is HEADLESS; with no package known at the master's position that is all. -/
theorem exec_masterTimeout_alone {t : State} (ht : t = (s.setCh Ch.groupState 3).raise ⟨0x0B0C, s.ch Ch.groupId, s.masterPosition, 0, none, []⟩)
    (hnone : t.pkgAt t.masterPosition = none) : exec .masterTimeout s = .next t := by
  subst ht
  have hlive : ¬ (s.ch Ch.groupId = 0 ∨ s.isMaster = true ∨ s.ch Ch.groupState = 3) := by simp [hgroup, hmember, hstate]
  refine (if_neg hlive).trans ?_
  simp only [hnone]

/-- What waits for an entry on the master's package ends with OWNER_LOST, and so do the digests that its trees hold back. -/
theorem exec_masterTimeout_ends {t v w : State} {q : Nat} {ops : List RemoteOp}
    (ht : t = (s.setCh Ch.groupState 3).raise ⟨0x0B0C, s.ch Ch.groupId, s.masterPosition, 0, none, []⟩) (hq : t.pkgAt t.masterPosition = some q)
    (hops : ops = t.cascade.ops.filter (fun o => o.pkg == q && o.kind == 3))
    (hv : v = { t with cascade := { t.cascade with ops := t.cascade.ops.filter (fun o => !(o.pkg == q && o.kind == 3)), trees := [] } })
    (hw : w = ops.foldl (fun (u : State) o => u.releaseWho o.who St.ownerLost s.nextEvent) (if ops.isEmpty then v else v.countSticky Ch.ownerLostReleases ops.length)) :
    exec .masterTimeout s = .next ((w.abortGroups (ops.filterMap (fun o => match o.who with | .task x => some x | _ => none)
      ++ w.inOrder.filter (fun x => w.tf x.task TaskRec.taskKind == Tk.digest && w.taskState x == Ts.pending && w.atHead x
        && t.cascade.trees.contains (w.shf (w.tf x.task TaskRec.shard) ShardRec.shardId))) St.ownerLost).recheckSlips) := by
  subst hw hv hops ht
  have hlive : ¬ (s.ch Ch.groupId = 0 ∨ s.isMaster = true ∨ s.ch Ch.groupState = 3) := by simp [hgroup, hmember, hstate]
  refine (if_neg hlive).trans ?_
  split
  case h_1 hnone => exact absurd (hq.symm.trans hnone) nofun
  case h_2 hsome =>
    cases hq.symm.trans hsome
    rfl

end

/-- Settles O34: resends by how many went before, the loss of the master by whether its package is known. -/
theorem cascadeTimersAct : Obligations.CascadeTimersAct := by
  intro s p
  exact ⟨exec_messageResend_sends, exec_messageResend_loses, exec_heartbeatSend_sends, fun t a b hgroup => exec_memberTimeout_loses hgroup,
    fun t hgroup hmember hstate => exec_masterTimeout_alone hgroup hmember hstate, fun t v w q ops hgroup hmember hstate => exec_masterTimeout_ends hgroup hmember hstate⟩

end Sys2Proof.Machine
end

section
/-! PROOFS. The Causeways: training, exchange, straps, spans and the loss of a die (O25). -/

namespace Sys2Proof.Machine

/-! ### TRAIN, RESUME and RELEASE (R414, R417, R419) -/

/-- A Causeway whose words are to be discarded: their sequence numbers are kept, and nothing of the exchange before is. -/
def Causeway.discardWords (c : Causeway) : Causeway :=
  ⟨c.wordBase, c.wordDie, if c.wordBase = 0 then c.seqKept else CwWord.trainSeq.get c.wordBase, if c.wordDie = 0 then c.dieSeqKept else CwWord.trainSeq.get c.wordDie,
    c.failed, [], [], [], false, c.gone⟩

section
variable {s : State} {d : Nat} {r : Req} (hd : d < 2) (hc : ChecksPass s (0xC010 + d) 2 r) (hbits : onlyBits r.value [actF] = true)
include hd hc hbits

theorem exec_train_begins (ha : actionIs r actF 1 = true) (hstate : s.cwState d = Cw.idle ∨ s.cwState d = Cw.hold ∨ s.cwState d = Cw.trainFault) :
    exec (.train d r) s = .next ((((((s.modCauseway d Causeway.discardWords).setWords d 0 0).count (Ch.trainCount + 256 * d) 32).setCw d Cw.training).wake).okReply (0xC010 + d) 2 r) := by
  have hacts : ¬ ((!actionIs r actF 1) = true ∨ 2 ≤ d) := by simp [ha, hd]
  show execTrain d r s = _
  rw [execTrain, if_neg hacts]
  exact congrArg _ (State.chartDo_ok hc hbits (by rcases hstate with h | h | h <;> rw [h] <;> rfl) rfl)

theorem exec_cwResume_exchanges (ha : actionIs r actF 2 = true) (hstate : s.cwState d = Cw.idle ∨ s.cwState d = Cw.hold) :
    exec (.cwResume d r) s = .next (((s.modCauseway d (fun c => { c with resuming := true, sent := [] })).sendWord d).wake.okReply (0xC010 + d) 2 r) := by
  have hacts : ¬ ((!actionIs r actF 2) = true ∨ 2 ≤ d) := by simp [ha, hd]
  show execCwResume d r s = _
  rw [execCwResume, if_neg hacts]
  exact congrArg _ (State.chartDo_ok hc hbits (by rcases hstate with h | h <;> rw [h] <;> rfl) rfl)

theorem exec_cwRelease_idles (ha : actionIs r actF 3 = true) (hup : s.cwState d = Cw.up) (hrings : s.rings d = []) (hfree : s.dieNamed d = false) :
    exec (.cwRelease d r) s = .next ((s.setCw d Cw.idle).okReply (0xC010 + d) 2 r) := by
  have hacts : ¬ ((!actionIs r actF 3) = true ∨ 2 ≤ d) := by simp [ha, hd]
  show execCwRelease d r s = _
  rw [execCwRelease, if_neg hacts]
  exact congrArg _ (State.chartDo_ok hc hbits (by simp [hup, hrings, hfree]) rfl)

end

/-! ### The end of a training (R415) -/

/-- The state in which the wires that a training found failing are noted. -/
def State.noteFailed (s : State) (d failed : Nat) : State :=
  if (s.causeway d).failed = failed then s else (s.modCauseway d (fun c => { c with failed := failed })).blobChanged (Ch.failedWires + 256 * d)

@[simp] theorem State.noteFailed_ch (s : State) (d failed k : Nat) : (s.noteFailed d failed).ch k = s.ch k := by
  unfold State.noteFailed
  split <;> rfl

section
variable {s : State} {d : Nat} {res : TrainResult} {ws : List Nat} {w : Nat} (hd : d < 2) (htraining : s.cwState d = Cw.training) (hws : ws = failingWires res (s.ch Ch.eyeMin))
  (hw : w = trainedWord ws ((max (s.causeway d).seqKept (s.causeway d).dieSeqKept + 1) % 2 ^ 32))
include hd htraining hws hw

/-- A training that ends is judged by the widths of its word, once its failed wires are noted. -/
theorem exec_trainingComplete_judges : exec (.trainingComplete d res) s =
    if res.timedOut = true ∨ CwWord.widthDown.get w < s.ch Ch.cwMinWidth ∨ CwWord.widthUp.get w < s.ch Ch.cwMinWidth
      then .next ((s.noteFailed d (ws.foldl (fun v i => v + 2 ^ i) 0)).setCw d Cw.trainFault)
      else .next ((((s.noteFailed d (ws.foldl (fun v i => v + 2 ^ i) 0)).setWords d w 0).setCw d Cw.exchange).sendWord d) := by
  have hends : ¬ (2 ≤ d ∨ s.cwState d ≠ Cw.training) := by simp [hd, htraining]
  show execTrainingComplete d res s = _
  rw [execTrainingComplete, if_neg hends, ← State.noteFailed_ch s d (ws.foldl (fun v i => v + 2 ^ i) 0) Ch.cwMinWidth, hw, hws]
  rfl

theorem exec_trainingComplete_faults (h : res.timedOut = true ∨ CwWord.widthDown.get w < s.ch Ch.cwMinWidth ∨ CwWord.widthUp.get w < s.ch Ch.cwMinWidth) :
    exec (.trainingComplete d res) s = .next ((s.noteFailed d (ws.foldl (fun v i => v + 2 ^ i) 0)).setCw d Cw.trainFault) := by
  rw [exec_trainingComplete_judges hd htraining hws hw, if_pos h]

theorem exec_trainingComplete_exchanges (hin : res.timedOut = false) (hdown : s.ch Ch.cwMinWidth ≤ CwWord.widthDown.get w) (hup : s.ch Ch.cwMinWidth ≤ CwWord.widthUp.get w) :
    exec (.trainingComplete d res) s = .next ((((s.noteFailed d (ws.foldl (fun v i => v + 2 ^ i) 0)).setWords d w 0).setCw d Cw.exchange).sendWord d) := by
  rw [exec_trainingComplete_judges hd htraining hws hw, if_neg (by simp [hin, hdown, hup])]

end

/-! ### Straps (R412, R413) -/

section
variable {s : State} {d : Nat} (hd : d < 2) (hreset : s.cwState d = 0 ∨ s.cwState d = Cw.down)
include hd hreset

/-- The guard that STRAP_WORD and STRAP_TIMEOUT share lets them act. -/
theorem strap_awaited : ¬ (2 ≤ d ∨ (!(s.cwState d == 0 || s.cwState d == Cw.down)) = true) := by
  rcases hreset with h | h <;> simp [hd, h]

theorem exec_strapWord_accepts {w : BitVec 64} (hok : strapOk w.toNat = true) :
    exec (.strapWord d w) s = .next ((s.setCh (Ch.strapUp + 256 * d) w.toNat).setCw d Cw.idle) :=
  (if_neg (strap_awaited hd hreset)).trans (if_pos hok)

theorem exec_strapWord_faults {w : BitVec 64} (hbad : strapOk w.toNat = false) : exec (.strapWord d w) s = .next (s.setCw d Cw.strapFault) :=
  (if_neg (strap_awaited hd hreset)).trans (if_neg (Bool.not_eq_true _ ▸ hbad))

theorem exec_strapTimeout_faults : exec (.strapTimeout d) s = .next (s.setCw d Cw.strapFault) := if_neg (strap_awaited hd hreset)

end

/-! ### DIE_LOST (R420; log entry 35) -/

/-- The code under which the loss of a die is reported. -/
def lossCode : LossCause → Nat
  | .clocksAbsent => 1
  | .linkFailure => 2

section
variable {s : State} {d : Nat} (hd : d < 2) (h0 : s.cwState d ≠ 0) (hdown : s.cwState d ≠ Cw.down) (cause : LossCause)
include hd h0 hdown

/-- The loss of a die acts by the state of its Causeway: found at wake in SLEEP, without a report in a fault, and as R420 says elsewhere. -/
theorem exec_dieLost_acts : exec (.dieLost d cause) s =
    if s.cwState d = Cw.sleep then .next (s.modCauseway d (fun c => { c with gone := lossCode cause }))
    else if s.cwState d = Cw.strapFault ∨ s.cwState d = Cw.trainFault then .next (((s.setCw d 0).dieStruck d).1.recheckSlips)
    else .next (s.dieGone d (lossCode cause)) := by
  have hlive : ¬ (2 ≤ d ∨ s.cwState d = 0 ∨ s.cwState d = Cw.down) := by simp [hd, h0, hdown]
  exact if_neg hlive

theorem exec_dieLost_inFault (h : s.cwState d = Cw.strapFault ∨ s.cwState d = Cw.trainFault) :
    exec (.dieLost d cause) s = .next (((s.setCw d 0).dieStruck d).1.recheckSlips) := by
  have hawake : s.cwState d ≠ Cw.sleep := by rcases h with h | h <;> rw [h] <;> decide
  rw [exec_dieLost_acts hd h0 hdown, if_neg hawake, if_pos h]

theorem exec_dieLost_asleep (h : s.cwState d = Cw.sleep) : exec (.dieLost d cause) s = .next (s.modCauseway d (fun c => { c with gone := lossCode cause })) := by
  rw [exec_dieLost_acts hd h0 hdown, if_pos h]

theorem exec_dieLost_reported (hstrap : s.cwState d ≠ Cw.strapFault) (htrain : s.cwState d ≠ Cw.trainFault) (hsleep : s.cwState d ≠ Cw.sleep) :
    exec (.dieLost d cause) s = .next (s.dieGone d (lossCode cause)) := by
  rw [exec_dieLost_acts hd h0 hdown, if_neg hsleep, if_neg (not_or.mpr ⟨hstrap, htrain⟩)]

end

/-! ### Spans and replays (R408 to R411, R418) -/

section
variable {s : State} {d bay : Nat} {sp : Span} (hd : d < 2) (hbay : bay < 16)
include hd hbay

/-- A DATA span on a trained bay of a Causeway that is UP passes or fails by its check. -/
theorem exec_dataSpan_checks (hup : s.cwState d = Cw.up) (htrained : bit (CwWord.baysUp.get (s.causeway d).wordBase) bay = true) :
    (spanSound sp = false → exec (.dataSpan d bay sp) s = .next (s.spanFails d bay))
    ∧ (spanSound sp = true → sp.kind = 1 → exec (.dataSpan d bay sp) s = .next (s.spanPasses d bay)) := by
  have hmeant : ¬ (2 ≤ d ∨ s.cwState d ≠ Cw.up ∨ (!bit (CwWord.baysUp.get (s.causeway d).wordBase) bay) = true ∨ 16 ≤ bay) := by simp [hd, hup, htrained, hbay]
  refine ⟨fun hbad => (if_neg hmeant).trans (if_pos (by rw [hbad]; rfl)), fun hok hkind => (if_neg hmeant).trans ((if_neg (by rw [hok]; decide)).trans (if_pos hkind))⟩

/-- A CONTROL span, while a word is awaited, has its word compared with the base die's. -/
theorem exec_controlSpan_checks (hawaited : s.cwState d = Cw.exchange ∨ (s.causeway d).resuming = true) :
    (spanSound sp = false → exec (.controlSpan d bay sp) s = .next (s.spanFails d bay))
    ∧ (spanSound sp = true → sp.kind = 2 → exec (.controlSpan d bay sp) s =
        .next (((s.spanPasses d bay).setWords d ((s.spanPasses d bay).causeway d).wordBase (leNat (sp.data.take 32))).compareWords d)) := by
  have hmeant : ¬ (2 ≤ d ∨ 16 ≤ bay ∨ (!(s.cwState d == Cw.exchange || (s.causeway d).resuming)) = true) := by
    rcases hawaited with h | h <;> simp [hd, hbay, h]
  exact ⟨fun hbad => (if_neg hmeant).trans (if_pos (by rw [hbad]; rfl)), fun hok hkind => (if_neg hmeant).trans ((if_neg (by rw [hok]; decide)).trans (if_neg (not_not.mpr hkind)))⟩

/-- A retry pulse sends the spans kept for its bay again. -/
theorem exec_retryPulse_replays (hlive : s.cwState d = Cw.up ∨ s.cwState d = Cw.exchange ∨ (s.causeway d).resuming = true) :
    exec (.retryPulse d bay) s = .next (((s.causeway d).sent.getD bay []).foldl (fun (s : State) x => s.out (.span d bay x)) (s.countSticky (Ch.replays + 256 * d))) := by
  have hmeant : ¬ (2 ≤ d ∨ 16 ≤ bay ∨ (!(s.cwState d == Cw.up || s.cwState d == Cw.exchange || (s.causeway d).resuming)) = true) := by
    rcases hlive with h | h | h <;> simp [hd, hbay, h]
  exact if_neg hmeant

end

/-- Settles O25: each row under the states of the interface that it is for; a training by its widths, the loss of a die by the state it meets. -/
theorem causewayCommandsComplete : Obligations.CausewayCommandsComplete := by
  intro s d hd
  refine ⟨fun r hc hbits => ⟨fun ha hstate => ?_, exec_cwResume_exchanges hd hc hbits, exec_cwRelease_idles hd hc hbits⟩, ?_, fun w hreset => ?_, fun cause h0 hdown => ?_,
    fun bay sp hbay => ⟨exec_dataSpan_checks hd hbay, exec_controlSpan_checks hd hbay, exec_retryPulse_replays hd hbay⟩⟩
  · exact ⟨s.modCauseway d Causeway.discardWords, rfl, rfl, rfl, exec_train_begins hd hc hbits ha hstate⟩
  · rintro res ws _ _ w htraining hws rfl rfl hw
    exact ⟨exec_trainingComplete_faults hd htraining hws hw, exec_trainingComplete_exchanges hd htraining hws hw⟩
  · exact ⟨exec_strapWord_accepts hd hreset, exec_strapWord_faults hd hreset, exec_strapTimeout_faults hd hreset⟩
  · exact ⟨exec_dieLost_inFault hd h0 hdown cause, exec_dieLost_asleep hd h0 hdown cause, exec_dieLost_reported hd h0 hdown cause⟩

end Sys2Proof.Machine
end

section
/-! PROOFS. Resets, the microcode image, sleep and wake, and supply warnings (O26). -/

namespace Sys2Proof.Machine

/-! ### Resets (R433, R434) -/

section
variable {s : State} {r : Req} (hc : ChecksPass s 0xB010 1 r) (hbits : onlyBits r.value [actF] = true)
include hc hbits

/-- A write of RESET_CONTROL that passes the checks is accepted. -/
theorem State.resetAccepted_ok : s.resetAccepted r = true := by
  obtain ⟨hfree, hstatus⟩ := hc
  have hok : s.writeStatus 0xB010 1 r (resetAct r) = Cs.ok := by rw [resetAct, hbits]; exact hstatus
  rw [State.resetAccepted, hfree, hok]
  rfl

/-- It is answered before the reset begins. -/
theorem State.chartDo_reset : s.chartDo 0xB010 1 r (resetAct r) = s.okReply 0xB010 1 r := State.chartDo_ok hc hbits rfl rfl

theorem exec_fastReset_control (ha : actionIs r actF 1 = true) : exec (.fastReset (.control r)) s = .next ((s.okReply 0xB010 1 r).fastReset 1) := by
  show execFastReset (.control r) s = _
  simp only [execFastReset, ha, Bool.not_true, Bool.false_eq_true, if_false, State.resetAccepted_ok hc hbits, State.chartDo_reset hc hbits, if_true]

theorem exec_fullReset_control (ha : actionIs r actF 2 = true) : exec (.fullReset (.control r)) s = .next ((s.okReply 0xB010 1 r).fullReset 2) := by
  show execFullReset (.control r) s = _
  simp only [execFullReset, ha, Bool.not_true, Bool.false_eq_true, if_false, State.resetAccepted_ok hc hbits, State.chartDo_reset hc hbits, if_true]

end

theorem exec_fastReset_rail {s : State} {n : Nat} (hfast : 2 ≤ n) (hmon : s.monitored n = true) : exec (.fastReset (.rail n)) s = .next ((s.railEnds n).fastReset 3) :=
  if_neg (not_or.mpr ⟨Nat.not_lt.mpr hfast, by simp [hmon]⟩)

theorem exec_fastReset_pllUnlock {s : State} (hawake : s.asleep = false) : exec (.fastReset .pllUnlock) s = .next (s.fastReset 5) :=
  if_neg (by simp [hawake])

theorem exec_fullReset_rail (s : State) {n : Nat} (h : n < 2) : exec (.fullReset (.rail n)) s = .next (s.fullReset 4) := if_neg (Nat.not_le.mpr h)

/-! ### The microcode image (R435 to R438) -/

section
variable {s : State} {r : Req} (hc : ChecksPass s 0xB020 4 r) (ha : actionIs r actF 1 = true) (hbits : onlyBits r.value [actF] = true)
include hc ha hbits

/-- A LOAD of the image that runs passes at once, whatever its address and size (log entry 33). -/
theorem exec_mcLoad_running (hsame : s.ch Ch.mcDigest = s.ch Ch.mcRunningDigest) (hruns : s.ch Ch.mcState = 2) :
    exec (.mcLoad r) s = .next (s.wake.okReply 0xB020 4 r) := by
  show execMcLoad r s = _
  rw [execMcLoad, if_neg (not_not_actionIs ha)]
  refine congrArg _ ((State.chartDo_ok hc hbits (by simp [hsame, hruns]) (by simp [hsame, hruns])).trans ?_)
  simp only [hsame, hruns, BEq.rfl, Bool.and_self, if_true]

/-- A LOAD of another image, by a block that is not busy, begins to read it. -/
theorem exec_mcLoad_begins (hidle : s.ch Ch.mcState ≠ 1) (hother : s.ch Ch.mcDigest ≠ s.ch Ch.mcRunningDigest) (hfree : s.busy437 = false) (hsrc : s.ch Ch.mcSrc % 64 = 0) (hlo : 64 ≤ s.ch Ch.mcBytes)
    (hhi : s.ch Ch.mcBytes ≤ 1048576) (hsize : s.ch Ch.mcBytes % 64 = 0) :
    exec (.mcLoad r) s = .next (((State.setCh { s with microcode := { s.microcode with loading := some (s.ch Ch.mcSrc, s.ch Ch.mcBytes, s.ch Ch.mcDigest) } } Ch.mcState 1).wake).okReply
      0xB020 4 r) := by
  have hdiffers : (s.ch Ch.mcDigest == s.ch Ch.mcRunningDigest) = false := beq_eq_false_iff_ne.mpr hother
  show execMcLoad r s = _
  rw [execMcLoad, if_neg (not_not_actionIs ha)]
  refine congrArg _ ((State.chartDo_ok hc hbits (by simp [hidle, hfree]) (by simp [hsrc, hlo, hhi, hsize])).trans ?_)
  simp only [hdiffers, Bool.false_and, Bool.false_eq_true, if_false]

end

/-- The records of the commands that a reset left without one are written once the Pilot runs (R438). -/
def State.endReset (s : State) : State :=
  (s.dispatched.filter (fun d => d.stage == .resetEnded)).foldl (fun (s : State) d => (s.drew 2).complete d St.groupAborted s.freeDetail) s

/-- The state in which an image has replaced the retained one. -/
def State.takeImage (s : State) (image : List Byte) (want : Nat) : State :=
  (State.setBlob { s with microcode := ⟨image, sha256 image, none⟩ } Ch.mcRunningDigest want).setCh Ch.mcState 2

/-- An image that was read without a fault and passes its two checks runs. -/
theorem exec_mcLoadComplete_runs {s : State} {src n want : Nat} (hload : s.microcode.loading = some (src, n, want)) (hawake : s.asleep = false) (hsound : s.failing src n = none)
    (hdigest : leNat (sha256 (s.rd src n)) = want) (hheader : s.imageHeaderOk (leNat ((s.rd src n).take 64)) n = true) :
    exec (.mcLoadComplete .ok) s = .next ((s.takeImage (s.rd src n) want).endReset).startPilot := by
  have hpasses : (leNat (sha256 (s.rd src n)) != want || !s.imageHeaderOk (leNat ((s.rd src n).take 64)) n) = false := by
    rw [hdigest, hheader, bne_self_eq_false, Bool.not_true, Bool.or_self]
  show execMcLoadComplete .ok s = _
  simp only [execMcLoadComplete, hload, hawake, hsound, hpasses, Option.isSome_none, Bool.false_eq_true, ne_eq, not_true_eq_false, if_false]
  rfl

/-! ### Sleep and wake (R427 to R431) -/

theorem exec_holdAwake_holds {s : State} {r : Req} (hc : ChecksPass s 0xB000 3 r) (hv : r.value < 8) :
    exec (.holdAwake r) s = .next ((if (List.range 3).any (fun d => bit r.value d && !(s.setCh Ch.holdAwake r.value).awake d) then (s.setCh Ch.holdAwake r.value).wake
      else s.setCh Ch.holdAwake r.value).okReply 0xB000 3 r) :=
  congrArg Host.Outcome.next (State.chartDo_ok hc (decide_eq_true hv) rfl rfl)

/-- What a domain does before it sleeps (R427): the first saves the window and the band records and orders the modules to sleep, the second drops the programs its engines hold, the third takes its Causeways to SLEEP. -/
def State.beforeSleep (s : State) (dom : Nat) : State :=
  if dom = 0 then ((List.range 16).filter (fun p => s.flushWindow.writeBandRecords.modState p == Ms.admitted)).foldl State.orderSleep s.flushWindow.writeBandRecords
  else if dom = 1 then { s with engines := s.engines.map (fun e => (e.1, { e.2 with held := [] })) }
  else (List.range 2).foldl (fun (s : State) d => if s.cwState d = Cw.up then s.setCw d Cw.sleep else s) s

theorem exec_sleepEntry_sleeps {s : State} {dom : Nat} (hdom : dom < 3) (hawake : s.awake dom = true) (hidle : s.domainBusy dom = false) (hquiet : s.wakePending = false) :
    exec (.sleepEntry dom) s = .next ((s.beforeSleep dom).setCh Ch.powerState ((s.beforeSleep dom).ch Ch.powerState - 2 ^ dom)) := by
  have hsleeps : ¬ (3 ≤ dom ∨ (!s.awake dom) = true ∨ s.domainBusy dom = true ∨ s.wakePending = true) := by simp [hdom, hawake, hidle, hquiet]
  exact if_neg hsleeps

/-- The state in which the three domains are awake again, the wake counted and its time noted. -/
def State.woken (s : State) : State :=
  (((State.drew { s with wakePending := false } 1).setCh Ch.powerState 7).count Ch.wakeCount 32).setCh Ch.lastWakeNs (Config.freeWord s.freeCount).toNat

theorem State.woken_powerState (s : State) : s.woken.ch Ch.powerState = 7 := by
  rw [State.woken, State.ch_setCh, if_neg (by decide), State.count, State.ch_setCh, if_neg (by decide), State.ch_setCh, if_pos rfl]

theorem State.woken_wakeCount (s : State) : s.woken.ch Ch.wakeCount = (s.ch Ch.wakeCount + 1) % 2 ^ 32 := by
  rw [State.woken, State.ch_setCh, if_neg (by decide), State.count, State.ch_setCh, if_pos rfl, State.ch_setCh, if_neg (by decide)]
  rfl

/-- A Causeway that slept runs its exchange, or finds its die gone. -/
def State.wakeCauseway (s : State) (d : Nat) : State :=
  if s.cwState d = Cw.sleep then (if (s.causeway d).gone = 0 then (s.setCw d Cw.exchange).sendWord d else s.dieGone d (s.causeway d).gone) else s

/-- A wake source wakes the three domains together: the held events go to the ring first. -/
theorem exec_fastDomainWake_wakes {s : State} (hsource : s.wakePending = true) (hasleep : s.ch Ch.powerState ≠ 7) :
    exec .fastDomainWake s = .next ((List.range 2).foldl State.wakeCauseway s.woken.flushHeld).wakeModules.serveHeld := by
  have hwakes : ¬ ((!s.wakePending) = true ∨ s.ch Ch.powerState = 7) := by simp [hsource, hasleep]
  have hstep : (fun (s : State) d => if s.cwState d ≠ Cw.sleep then s
      else if (s.causeway d).gone = 0 then (s.setCw d Cw.exchange).sendWord d else s.dieGone d (s.causeway d).gone) = State.wakeCauseway := by
    funext s d
    exact ite_not ..
  show execFastDomainWake s = _
  rw [execFastDomainWake, if_neg hwakes, hstep]
  rfl

/-! ### Supply warnings (R440, R441) -/

/-- The first sample below WARN_MV puts the rail in warning; with SAVE the window and the band records are written. -/
theorem exec_supplyWarning_warns {s t : State} {rail mv : Nat} (hrail : rail < 5) (hmon : s.monitored rail = true) (hcalm : (s.rails.getD rail Rail.reset).active = false)
    (hlow : mv < s.ch (Ch.warnMv + 256 * rail))
    (ht : t = (((State.setCh (State.sampled { s with rails := updateAt s.rails rail (fun _ => ⟨true, mv, s.clock.cycles⟩) } rail mv) (Ch.warnActive + 256 * rail) 1).countSticky
      (Ch.warnCount + 256 * rail)).raise ⟨0x0901, rail, mv, s.ch (Ch.warnAction + 256 * rail), none, []⟩).bandInterrupt) :
    exec (.supplyWarning rail mv) s = .next (if s.ch (Ch.warnAction + 256 * rail) = 3 then (if t.awake 0 then t.flushWindow else t).writeBandRecords else t) := by
  subst ht
  have hwarns : ¬ (5 ≤ rail ∨ (!s.monitored rail) = true ∨ (s.rails.getD rail Rail.reset).active = true ∨ s.ch (Ch.warnMv + 256 * rail) ≤ mv) := by
    simp only [hmon, hcalm, Nat.not_le.mpr hrail, Nat.not_le.mpr hlow, Bool.not_true, Bool.false_eq_true, or_self, not_false_eq_true]
  exact if_neg hwarns

/-- Enough samples in a row at the clearing level end the warning. -/
theorem exec_warningCleared_clears {s u : State} {rail : Nat} {l : List Nat} (hrail : rail < 5) (hactive : (s.rails.getD rail Rail.reset).active = true)
    (hclear : clearsAt (s.ch (Ch.warnMv + 256 * rail) + 10) 0 l = true) (hu : u = l.foldl (fun (s : State) v => s.sampled rail v) s) :
    exec (.warningCleared rail l) s = .next ((State.setCh { u with rails := updateAt u.rails rail (fun _ => Rail.reset) } (Ch.warnActive + 256 * rail) 0).raise
      ⟨0x0902, rail, lastBelow (s.ch (Ch.warnMv + 256 * rail)) l, l.foldl min (s.rails.getD rail Rail.reset).low, none, []⟩).bandInterrupt := by
  subst hu
  have hclears : ¬ (5 ≤ rail ∨ (!(s.rails.getD rail Rail.reset).active) = true ∨ (!clearsAt (s.ch (Ch.warnMv + 256 * rail) + 10) 0 l) = true) := by
    simp only [hactive, hclear, Nat.not_le.mpr hrail, Bool.not_true, Bool.false_eq_true, or_self, not_false_eq_true]
  exact if_neg hclears

/-- Settles O26: resets by their causes, the image by its digest and header, SLEEP_ENTRY by its domain, the warnings of a rail by its samples. -/
theorem powerCommandsComplete : Obligations.PowerCommandsComplete := by
  intro s
  refine ⟨fun r hc hbits => ⟨exec_fastReset_control hc hbits, exec_fullReset_control hc hbits⟩, fun n => exec_fastReset_rail, exec_fastReset_pllUnlock, rfl,
    fun n => exec_fullReset_rail s, rfl, fun r hc ha hbits hidle => ⟨exec_mcLoad_running hc ha hbits, exec_mcLoad_begins hc ha hbits hidle⟩, ?_,
    fun r => exec_holdAwake_holds, ?_, ?_, ?_, fun rail l u => exec_warningCleared_clears⟩
  · rintro src n want _ hload hawake hsound hdigest hheader rfl
    exact exec_mcLoadComplete_runs hload hawake hsound hdigest hheader
  · intro dom hdom hawake hidle hquiet
    refine ⟨s.beforeSleep dom, exec_sleepEntry_sleeps hdom hawake hidle hquiet, ?_, ?_, ?_⟩ <;> rintro rfl
    · exact ⟨rfl, rfl⟩
    · rfl
    · rfl
  · intro hsource hasleep
    exact ⟨s.woken, rfl, s.woken_powerState, s.woken_wakeCount, rfl, exec_fastDomainWake_wakes hsource hasleep⟩
  · intro rail mv t hrail hmon hcalm hlow ht
    have hexec := exec_supplyWarning_warns hrail hmon hcalm hlow ht
    exact ⟨fun h => hexec.trans (congrArg _ (if_neg h)), fun h => hexec.trans (congrArg _ (if_pos h))⟩

end Sys2Proof.Machine
end

section
/-! PROOFS. What a full reset leaves, and the resets that a lost clock makes (O44, O45). -/

namespace Sys2Proof.Machine

/-! ### The full reset (R433, R449) -/

/-- The block after a full reset, before its mailbox is cleared: as after reset, but for what R433 keeps. -/
def State.resetKept (s : State) (code : Nat) : State :=
  { State.reset with
    pending := s.pending, mem := s.mem, checkWords := s.checkWords, outbox := s.outbox, freeCount := s.freeCount
    ports := s.ports.map (fun e => (e.1, ({ Port.fresh with
      ownerTag := e.2.ownerTag, setRecord := e.2.setRecord, metaBands := e.2.metaBands, media := e.2.media, counts := e.2.counts, badSectors := e.2.badSectors,
      poisoned := e.2.poisoned, factory := e.2.factory } : Port)))
    clock := ⟨if code = 0 then 0 else s.clock.cycles, 0, 0⟩
    events := ⟨2, [[resetRecord code 0 (if code = 0 then 0 else s.clock.cycles)]]⟩
    chart := SMap.put State.reset.chart Ch.lastReset code }

/-- A full reset changes bytes of memory in the mailbox alone. -/
theorem State.fullReset_eq (s : State) (code : Nat) :
    ∃ m c, s.fullReset code = { s.resetKept code with mem := m, checkWords := c } ∧ (Memory.wf s.mem = true → Memory.wf m = true)
      ∧ ∀ x, ¬ (mailboxBase ≤ x ∧ x < mailboxBase + 4096) → Memory.read m x = Memory.read s.mem x := by
  obtain ⟨m, c, heq, hwf, hread⟩ := State.store_eq (s.resetKept code) mailboxBase (List.replicate 4096 0)
  rw [List.length_replicate] at hread
  exact ⟨m, c, heq, hwf, hread⟩

theorem State.resetKept_ch (s : State) (code k : Nat) : (s.resetKept code).ch k = if k = Ch.lastReset then code else State.reset.ch k := by
  simp only [eq_comm (a := k)]
  exact State.ch_setCh State.reset Ch.lastReset code k

theorem State.fullReset_ch (s : State) (code k : Nat) : (s.fullReset code).ch k = if k = Ch.lastReset then code else State.reset.ch k := by
  obtain ⟨m, c, heq, -, -⟩ := s.fullReset_eq code
  rw [heq]
  exact s.resetKept_ch code k

/-- Each cause of a full reset that is no write of the Chart, with its LAST_RESET code. -/
theorem exec_fullReset_cause (s : State) : ∀ p ∈ [(FullCause.standbyRising, 0), (FullCause.rail 0, 4), (FullCause.rail 1, 4), (FullCause.refclkLost, 6)],
    exec (.fullReset p.1) s = .next (s.fullReset p.2) := by
  simp only [List.forall_mem_cons, List.not_mem_nil, false_imp_iff, implies_true, and_true]
  exact ⟨rfl, exec_fullReset_rail s (by decide), exec_fullReset_rail s (by decide), rfl⟩

/-- Settles O44: the state after a full reset is that of `State.resetKept`, but for the bytes of the mailbox. -/
theorem fullResetLeaves : Obligations.FullResetLeaves := by
  intro s p hp
  obtain ⟨m, c, heq, hwf, hread⟩ := s.fullReset_eq p.2
  refine ⟨s.fullReset p.2, exec_fullReset_cause s p hp, ?_, s.fullReset_ch p.2, ?_⟩
  · rw [heq]; rfl
  · rw [heq]
    exact ⟨rfl, rfl, rfl, rfl, rfl, rfl, rfl, rfl, hread, hwf⟩

/-! ### LAST_RESET after a fast reset (R434) -/

/-- An entry is read from the Chart alone. -/
theorem State.ch_of_chart {s t : State} (h : t.chart = s.chart) (k : Nat) : t.ch k = s.ch k := by
  rw [State.ch, h, State.ch]

/-- Raising an event changes only the entries of the Chart that count events and the ring's tail: none has the subindex of LAST_RESET in its page. -/
theorem State.ringWrite_lastReset (s : State) (r : Nat) : (s.ringWrite r).ch Ch.lastReset = s.ch Ch.lastReset := by
  have htail : Ch.evringTail ≠ Ch.lastReset := by decide
  have hlost : Ch.eventsLost ≠ Ch.lastReset := by decide
  have hdetect : ∀ g, Ch.detectCount + 256 * g ≠ Ch.lastReset := by intro g; unfold Ch.detectCount Ch.lastReset; omega
  unfold State.ringWrite
  dsimp only
  rw [State.ch_setCh, if_neg htail]
  split
  · split <;> simp only [State.countSticky, State.ch_setCh, hlost, hdetect, if_false]
  · obtain ⟨m, c, heq, -, -⟩ := State.store_eq s (s.ch Ch.evringBase + 32 * (s.ch Ch.evringTail % 2 ^ s.ch Ch.evringLog2))
      (leBytes 32 (EventRec.phase.set r (if s.ch Ch.evringTail / 2 ^ s.ch Ch.evringLog2 % 2 = 0 then 1 else 0)))
    rw [heq]
    rfl

theorem State.ringChain_lastReset (s : State) (chain : List Nat) : (s.ringChain chain).ch Ch.lastReset = s.ch Ch.lastReset := by
  have hlost : Ch.eventsLost ≠ Ch.lastReset := by decide
  unfold State.ringChain
  dsimp only
  split
  · exact foldl_keeps (fun s : State => s.ch Ch.lastReset) State.ringWrite_lastReset chain s
  · rw [State.countSticky, State.ch_setCh, if_neg hlost]

theorem State.holdChain_lastReset (s : State) (chain : List Nat) : (s.holdChain chain).ch Ch.lastReset = s.ch Ch.lastReset := by
  have hlost : Ch.heldLost ≠ Ch.lastReset := by decide
  unfold State.holdChain
  dsimp only
  split
  · refine State.ch_of_chart ?_ _
    simp only [apply_ite State.chart, State.wake_chart, State.out_chart, State.blobChanged_chart, ite_self]
  · rw [State.countSticky, State.ch_setCh, if_neg hlost]

theorem State.raise_lastReset (s : State) (e : Ev) : (s.raise e).ch Ch.lastReset = s.ch Ch.lastReset := by
  unfold State.raise
  dsimp only
  split
  · exact State.holdChain_lastReset ..
  · exact State.ringChain_lastReset ..

/-- A fast reset ends with its cause in LAST_RESET: only the count of resets and the RESET event come after. -/
theorem State.fastReset_lastReset (s : State) (code : Nat) : (s.fastReset code).ch Ch.lastReset = code := by
  have hcount : Ch.fastResets ≠ Ch.lastReset := by decide
  unfold State.fastReset
  dsimp only
  rw [State.raise_lastReset, State.countSticky, State.ch_setCh, if_neg hcount, State.ch_setCh, if_pos rfl]

/-- Settles O45: the reset of each cause, and the code that it leaves in LAST_RESET. -/
theorem clockLossResets : Obligations.ClockLossResets := by
  intro s
  refine ⟨fun hawake => ⟨exec_fastReset_pllUnlock hawake, s.fastReset_lastReset 5⟩, rfl, ?_⟩
  rw [State.fullReset_ch, if_pos rfl]

end Sys2Proof.Machine
end

section
/-! PROOFS. Writes of the Chart that a common check refuses (O51). -/

namespace Sys2Proof.Machine

/-! ### The checks common to all entries (R483) -/

/-- A check that answers another status than OK lets through what it does not stop. -/
theorem ite_eq_ok_iff {c : Prop} [Decidable c] {st x : Nat} (hst : st ≠ Cs.ok) : (if c then st else x) = Cs.ok ↔ ¬ c ∧ x = Cs.ok := by
  split <;> simp_all

/-- The checks of the entry `e` that every entry shares let the write through. -/
def State.EntryTakes (s : State) (index sub : Nat) (r : Req) (e : ChEntry) : Prop :=
  ¬ (e.acc = .ro ∨ e.acc = .const) ∧ s.pathMay r.path index sub = true ∧ r.offset = 0 ∧ r.data.length = e.type.size
    ∧ (e.type == .bool && decide (1 < leNat r.data)) = false ∧ (e.acc == .rws && !(s.inSetup || s.asleep)) = false

/-- A WRITE is OK where its path has an endpoint, its length is one of a request, and its entry takes it, by the common checks and by its own. -/
theorem State.writeStatus_eq_ok_iff {s : State} {index sub : Nat} {r : Req} {act : ChAct} : s.writeStatus index sub r act = Cs.ok ↔
    ¬ (r.path.isMctp && s.ch Ch.mctpEid == 0) = true ∧ ¬ 256 < r.data.length
      ∧ ∃ e, (if chartClosed index then none else chartEntry index sub) = some e ∧ s.EntryTakes index sub r e ∧ act.range = true ∧ act.state = true ∧ act.params = true := by
  have hno : Cs.noEntry ≠ Cs.ok := by decide
  unfold State.writeStatus
  rw [ite_eq_ok_iff (by decide), ite_eq_ok_iff (by decide)]
  refine and_congr_right fun _ => and_congr_right fun _ => ?_
  split
  case h_1 he => simp [he, hno]
  case h_2 e he =>
    iterate 7 rw [ite_eq_ok_iff (by decide)]
    simp only [he, State.EntryTakes, Option.some.injEq, exists_eq_left', Bool.not_eq_true', Bool.not_eq_true, Bool.or_eq_false_iff, Bool.not_eq_false', Bool.not_eq_false, ne_eq, not_not]
    tauto

/-- What the common checks refuse is refused whatever the entry's own say. -/
theorem State.writeStatus_refused {s : State} {index sub : Nat} {r : Req} (h : s.writeStatus index sub r ⟨true, true, true, id⟩ ≠ Cs.ok) (act : ChAct) :
    s.writeStatus index sub r act ≠ Cs.ok := by
  intro hok
  obtain ⟨heid, hlen, e, he, htakes, -⟩ := State.writeStatus_eq_ok_iff.mp hok
  exact h (State.writeStatus_eq_ok_iff.mpr ⟨heid, hlen, e, he, htakes, rfl, rfl, rfl⟩)

/-- A refused write that came by MCTP leaves its reply, and at most a count in PATH_REFUSALS. -/
theorem State.chartDo_mctp_refused {s : State} {index sub : Nat} {r : Req} (hpath : r.path = .mctp) {act : ChAct} (h : s.writeStatus index sub r act ≠ Cs.ok) :
    ∃ t : State, s.chartDo index sub r act = t ∧ t = { s with chart := t.chart, outbox := t.outbox } ∧ ∀ k, k ≠ Ch.pathRefusals → t.ch k = s.ch k := by
  have hfree : s.slotBusy r.path = false := by rw [hpath]; rfl
  have hreply : ∀ (t : State) (rep : ChReply), t.reply 2 index sub r rep = t.out (.chartReply r.path r.seq rep.status rep.total rep.gen rep.data) := fun t rep => by
    simp only [State.reply, hpath, reduceCtorEq, false_and, if_false]
  obtain ⟨rep, -, heq⟩ := State.chartDo_refused hfree h
  refine ⟨_, heq, ?_⟩
  rw [hreply]
  split
  · refine ⟨rfl, fun k hk => ?_⟩
    show (s.countSticky Ch.pathRefusals).ch k = s.ch k
    rw [State.countSticky, State.ch_setCh, if_neg hk.symm]
  · exact ⟨rfl, fun _ _ => rfl⟩

/-! ### The rows of writes -/

/-- Writes of the Chart: the entry, the number of the action where it is an action entry, and the command. -/
def writeRows (r : Req) : List (Nat × Nat × Nat × Instr) :=
  [(0x1200, 2, 1, .create r), (0x1200, 2, 2, .teardown r), (0x1200, 2, 3, .preempt r), (0x1200, 2, 4, .contextResume r), (0x1201, 2, 0, .xtsKey r), (0x1201, 3, 0, .philoxKey r),
    (0x2000, 1, 1, .assign r), (0x2000, 1, 2, .regionRelease r), (0x1001, 2, 0, .genSelect r), (0xB000, 3, 0, .holdAwake r), (0x6001, 0, 0, .buoyBind r),
    (0x5001, 0, 1, .channelEnable r), (0x5001, 0, 2, .channelDisable r), (0x5001, 0, 3, .channelStop r), (0x5001, 0, 4, .channelResume r), (0x5001, 0, 5, .channelReset r),
    (0x5001, 0, 6, .clearFlags r), (0x5002, 2, 0, .arm r), (0x7400, 3, 2, .retire r), (0x1130, 2, 0, .windowOffset r), (0x1130, 3, 1, .windowFlush r),
    (0x9181, 4, 0, .correlatedOverride r), (0x8000, 5, 1, .drop r)]

/-- An action of CHANNEL_CONTROL is a write of its entry. -/
theorem channelDo_writes {a : Nat} {r : Req} (ha : actionIs r actF a = true) {states params : State → Nat → Bool} {effect : Nat → State → State} (s : State) :
    ∃ act, (.next (channelDo a states params effect r s) : Host.Outcome State Fault Refusal) = .next (s.chartDo 0x5001 0 r act) :=
  ⟨_, congrArg _ (if_neg (not_not_actionIs ha))⟩

/-- Each of these commands is a write of its entry with an act of its own. -/
theorem exec_writeRow (s : State) (r : Req) : ∀ p ∈ writeRows r, (p.2.2.1 ≠ 0 → actionIs r actF p.2.2.1 = true) → ∃ act, exec p.2.2.2 s = .next (s.chartDo p.1 p.2.1 r act) := by
  have acts {a : Nat} (h : a + 1 ≠ 0 → actionIs r actF (a + 1) = true) : ¬ (!actionIs r actF (a + 1)) = true := not_not_actionIs (h a.succ_ne_zero)
  have channel {a : Nat} {states params : State → Nat → Bool} {effect : Nat → State → State} (h : a + 1 ≠ 0 → actionIs r actF (a + 1) = true) :=
    channelDo_writes (states := states) (params := params) (effect := effect) (h a.succ_ne_zero) s
  simp only [writeRows, List.forall_mem_cons, List.not_mem_nil, false_imp_iff, implies_true, and_true]
  exact ⟨fun h => ⟨_, if_neg (acts h)⟩, fun h => ⟨_, if_neg (acts h)⟩, fun h => ⟨_, if_neg (acts h)⟩, fun h => ⟨_, if_neg (acts h)⟩, fun _ => ⟨_, rfl⟩, fun _ => ⟨_, rfl⟩,
    fun h => ⟨_, if_neg (acts h)⟩, fun h => ⟨_, if_neg (acts h)⟩, fun _ => ⟨_, rfl⟩, fun _ => ⟨_, rfl⟩, fun _ => ⟨_, rfl⟩,
    fun h => channel h, fun h => channel h, fun h => channel h, fun h => channel h, fun h => channel h, fun h => channel h,
    fun _ => ⟨_, rfl⟩, fun h => ⟨_, if_neg (acts h)⟩, fun _ => ⟨_, rfl⟩, fun h => ⟨_, if_neg (acts h)⟩, fun _ => ⟨_, rfl⟩, fun h => ⟨_, if_neg (acts h)⟩⟩

/-- Settles O51: each row is a write of its entry, which the common checks refuse. -/
theorem refusedWritesChangeNothing : Obligations.RefusedWritesChangeNothing := by
  intro s r p hp hpath ha hrefused
  obtain ⟨act, hexec⟩ := exec_writeRow s r p hp ha
  obtain ⟨t, ht, hframe⟩ := State.chartDo_mctp_refused hpath (State.writeStatus_refused hrefused act)
  exact ⟨t, hexec.trans (congrArg _ ht), hframe⟩

end Sys2Proof.Machine
end

section
/-! PROOFS. Contexts and their keys (O27). -/

namespace Sys2Proof.Machine

/-! ### CTX_CONTROL (R466) -/

section
variable {s : State} {r : Req} {c : Nat} (hctx : c = CtxCtl.context.get r.value) (hc : ChecksPass s 0x1200 2 r) (hbits : onlyBits r.value [CtxCtl.context, ⟨3, 0⟩] = true)
include hctx hc hbits

/-- An action of CTX_CONTROL that the state of its context permits has its effect. -/
theorem ctxDo_acts {a : Nat} (ha : actionIs r actF a = true) {state : State → Nat → Bool} (hstate : state s c = true) (effect : Nat → State → State) :
    ctxDo a state effect r s = (effect c s).okReply 0x1200 2 r := by
  subst hctx
  exact State.chartDo_ok hc (by simp [hbits, ha]) hstate rfl

theorem exec_create_activates (ha : actionIs r actF 1 = true) (hfree : s.contextState c = 0) :
    exec (.create r) s = .next ((s.modContext c (fun _ => ⟨1, 0, 0, 0⟩)).okReply 0x1200 2 r) := by
  show execCreate r s = _
  rw [execCreate, if_neg (not_not_actionIs ha), ctxDo_acts hctx hc hbits ha (by simp [hfree])]

theorem exec_teardown_tears (ha : actionIs r actF 2 = true) (hexists : s.contextExists c = true) (hplan : s.ch Ch.planOwner = c → s.planLoaded = false) :
    exec (.teardown r) s = .next ((s.teardown c).recheckSlips.okReply 0x1200 2 r) := by
  have hmay : (s.contextExists c && !(s.ch Ch.planOwner == c && s.planLoaded)) = true := by
    rw [hexists, Bool.true_and, Bool.not_eq_true', Bool.and_eq_false_imp]
    exact fun h => hplan (eq_of_beq h)
  show execTeardown r s = _
  rw [execTeardown, if_neg (not_not_actionIs ha), ctxDo_acts hctx hc hbits ha hmay]

/-- PREEMPT takes the owner of the context's buoys, and aborts the groups that wait on them. -/
theorem exec_preempt_preempts (ha : actionIs r actF 3 = true) (hactive : s.contextState c = 1) (howner : s.ch Ch.planOwner ≠ c) (hnamed : s.planNamesContext c = false)
    {p : State × List TaskRef} (hp : p = (s.modContext c (fun x => { x with state := 2 })).ownersLost (fun b => b.context == c) 2 true false) :
    exec (.preempt r) s = .next ((p.1.abortGroups p.2 St.ownerLost).recheckSlips.okReply 0x1200 2 r) := by
  subst hp
  show execPreempt r s = _
  rw [execPreempt, if_neg (not_not_actionIs ha), ctxDo_acts hctx hc hbits ha (by simp [hactive, howner, hnamed])]

theorem exec_contextResume_activates (ha : actionIs r actF 4 = true) (hstate : s.contextState c = 2) :
    exec (.contextResume r) s = .next ((s.modContext c (fun x => { x with state := 1 })).okReply 0x1200 2 r) := by
  show execContextResume r s = _
  rw [execContextResume, if_neg (not_not_actionIs ha), ctxDo_acts hctx hc hbits ha (by simp [hstate])]

end

/-! ### Keys (R211, R467) -/

section
variable {s : State} {r : Req} {c : Nat} (hctx : c = s.selected r.path Ch.ctxSelect) (hactive : s.contextState c = 1) (hfree : s.keyFree c = true)
include hctx hactive hfree

theorem exec_xtsKey_takes (hc : ChecksPass s 0x1201 2 r) (hhalves : r.value % 2 ^ 256 ≠ r.value / 2 ^ 256) :
    exec (.xtsKey r) s = .next (((if (s.contexts.getD c ⟨0, 0, 0, 0⟩).xts = r.value then s else s.blobChanged Ch.xtsKey).modContext c
      (fun x => { x with xts := r.value, keysSet := x.keysSet ||| 1 })).okReply 0x1201 2 r) := by
  subst hctx
  exact congrArg Host.Outcome.next (State.chartDo_ok hc (bne_iff_ne.mpr hhalves) (by simp [hactive, hfree]) rfl)

theorem exec_philoxKey_takes (hc : ChecksPass s 0x1201 3 r) :
    exec (.philoxKey r) s = .next ((s.modContext c (fun x => { x with philox := r.value, keysSet := x.keysSet ||| 2 })).okReply 0x1201 3 r) := by
  subst hctx
  exact congrArg Host.Outcome.next (State.chartDo_ok hc rfl (by simp [hactive, hfree]) rfl)

end

/-! ### CONTEXT_FREED (R466) -/

/-- A program slot is EMPTY again, and no engine holds its program. -/
def State.emptyProgram (s : State) (p : Nat) : State :=
  let t : State := { s with engines := s.engines.map (fun e => (e.1, { e.2 with held := e.2.held.filter (· != p) })) }
  t.setFld (t.progAddr p) ProgRec.state 0

theorem State.setFld_contexts (s : State) (a : Nat) (f : Fld) (v : Nat) : (s.setFld a f v).contexts = s.contexts := by
  obtain ⟨m, w, heq, -, -⟩ := State.setFld_eq s a f v
  rw [heq]

theorem State.emptyProgram_contexts (s : State) (p : Nat) : (s.emptyProgram p).contexts = s.contexts := State.setFld_contexts ..

/-- A torn context with nothing left is FREE: its programs are gone, and no other context is touched. -/
theorem exec_contextFreed_frees {s : State} {c : Nat} (htorn : s.contextState c = 3) (hempty : (s.tearRegions c).contextEmpty c = true) :
    ∃ t : State, exec (.contextFreed c) s = .next t ∧ t.contexts = (s.tearRegions c).contexts.erase c := by
  have hends : ¬ (!(s.tearRegions c).contextEmpty c) = true := by simp [hempty]
  refine ⟨_, (if_neg (not_not.mpr htorn)).trans (if_neg hends), ?_⟩
  exact congrArg (SMap.erase · c) (foldl_keeps State.contexts State.emptyProgram_contexts _ _)

/-- Settles O27: each action by the state of its context, the keys by the context that is selected. -/
theorem contextCommandsComplete : Obligations.ContextCommandsComplete := by
  intro s r c
  refine ⟨fun hctx hc hbits => ⟨exec_create_activates hctx hc hbits, exec_teardown_tears hctx hc hbits, fun ha hactive howner hnamed => ?_, exec_contextResume_activates hctx hc hbits⟩,
    fun hctx hactive hfree => ⟨exec_xtsKey_takes hctx hactive hfree, exec_philoxKey_takes hctx hactive hfree⟩, exec_contextFreed_frees⟩
  exact ⟨_, rfl, exec_preempt_preempts hctx hc hbits ha hactive howner hnamed rfl⟩

end Sys2Proof.Machine
end

section
/-! PROOFS. ASSIGN and RELEASE of a Harbour region (O28). -/

namespace Sys2Proof.Machine

section
variable {s : State} {r : Req} {g : Nat} (hg : g = RgnCtl.region.get r.value) (hc : ChecksPass s 0x2000 1 r) (hbits : onlyBits r.value [RgnCtl.region, actF] = true)
include hg hc hbits

/-- ASSIGN begins to fill a free region; its zeros stand in place at once (log entry 9). -/
theorem exec_assign_fills (ha : actionIs r actF 1 = true) (hfree : s.regionState g = 0) (hok : s.assignOk g = true) :
    exec (.assign r) s = .next (((s.fillRegion g).setCh (Ch.regionState + 256 * g) 1).wake.okReply 0x2000 1 r) := by
  subst hg
  show execAssign r s = _
  rw [execAssign, if_neg (not_not_actionIs ha)]
  exact congrArg _ (State.chartDo_ok hc hbits (beq_iff_eq.mpr hfree) hok)

/-- RELEASE frees a region that no loaded plan and no address entry of the Chart needs (log entry 36). -/
theorem exec_regionRelease_frees (ha : actionIs r actF 2 = true) (hstate : s.regionState g ≠ 0) (hplan : s.planNamesRegion g = false)
    (hentries : ∀ k ∈ addressEntries, s.ch k = 0 ∨ s.regionByte g (s.ch k) = false) :
    exec (.regionRelease r) s = .next ((s.setCh (Ch.regionState + 256 * g) 0).serveFilled.okReply 0x2000 1 r) := by
  subst hg
  have hunused : addressEntries.all (fun k => s.ch k == 0 || !s.regionByte (RgnCtl.region.get r.value) (s.ch k)) = true := by
    rw [List.all_eq_true]
    exact fun k hk => by simpa using hentries k hk
  show execRegionRelease r s = _
  rw [execRegionRelease, if_neg (not_not_actionIs ha)]
  exact congrArg _ (State.chartDo_ok hc hbits (by simp [hstate, hplan, hunused]) rfl)

end

theorem exec_regionFillComplete_assigns {s : State} {g : Nat} (hlt : g < 256) (hfilling : s.regionState g = 1) :
    exec (.regionFillComplete g) s = .next (s.setCh (Ch.regionState + 256 * g) 2).serveFilled :=
  if_neg (not_or.mpr ⟨Nat.not_le.mpr hlt, not_not.mpr hfilling⟩)

/-- Settles O28: each row by the state of its region. -/
theorem regionCommandsComplete : Obligations.RegionCommandsComplete := by
  intro s r g
  exact ⟨fun hg hc hbits => ⟨exec_assign_fills hg hc hbits, exec_regionRelease_frees hg hc hbits⟩, exec_regionFillComplete_assigns⟩

end Sys2Proof.Machine
end

section
/-! PROOFS. GEN_SELECT, writes and INFO of any entry, and the control messages of MCTP (O29). -/

namespace Sys2Proof.Machine

/-! ### A write of any entry completes (R451, R483) -/

/-- A command completes: it is neither refused nor stopped by a fault. -/
def Completes (o : Host.Outcome State Fault Refusal) : Prop := ∃ t, o = .next t

theorem completes_next (t : State) : Completes (.next t) := ⟨t, rfl⟩

theorem completes_ite {c : Prop} [Decidable c] {x y : Host.Outcome State Fault Refusal} (hx : Completes x) (hy : Completes y) : Completes (if c then x else y) := by
  split
  · exact hx
  · exact hy

/-- A command that acts under a condition of its own, and otherwise leaves the state as it is. -/
theorem completes_guarded {c : Prop} [Decidable c] {s t : State} : Completes (if c then .next s else .next t) := completes_ite (completes_next s) (completes_next t)

theorem completes_setAdopt (r : Req) (m : MemResult) (s : State) : Completes (execSetAdopt r m s) := by
  refine completes_ite (completes_next _) (completes_ite ?_ completes_guarded)
  split <;> exact completes_next _

theorem completes_copyPartner (r : Req) (s : State) : Completes (execCopyPartner r s) := completes_ite (completes_next _) completes_guarded

/-- Every row that a WRITE is led to completes: an entry with one row is written at once, an action under its guard, and SET_ADOPT and COPY_PARTNER may hold their write. -/
theorem State.routePage_completes (s : State) (index sub : Nat) (r : Req) : Completes (s.routePage index sub r) := by
  unfold State.routePage
  dsimp only
  split
  case h_1 | h_5 | h_11 | h_12 | h_17 | h_18 | h_19 | h_20 | h_21 | h_22 | h_23 | h_26 | h_35 | h_36 | h_46 => exact completes_next _
  case h_30 => exact completes_setAdopt r .ok s
  case h_34 => exact completes_copyPartner r s
  case h_2 =>
    split
    case h_4 => exact completes_next _
    all_goals exact completes_guarded
  case h_27 =>
    split
    case h_3 => exact completes_next _
    all_goals exact completes_guarded
  all_goals exact completes_guarded

theorem State.chartRoute_completes (s : State) (index sub : Nat) (r : Req) : Completes (s.chartRoute index sub r) := by
  refine completes_ite (completes_next _) (completes_ite ?_ (s.routePage_completes index sub r))
  dsimp only
  split
  case h_5 => exact completes_next _
  all_goals exact completes_guarded

/-! ### The locked test range (R464; log entry 85) -/

section
variable {s : State} {index sub : Nat} {r : Req}

theorem exec_chartInfo_served (h : lockedOpen index = false) : exec (.chartInfo index sub r) s = .next (s.chartInfo index sub r) :=
  congrArg _ (if_neg (Bool.not_eq_true _ ▸ h))

theorem exec_chartInfo_locked (h : lockedOpen index = true) : exec (.chartInfo index sub r) s = .next (s.chartLocked 3 index sub r.data.length r) :=
  congrArg _ (if_pos h)

theorem exec_chartWrite_locked (h : lockedOpen index = true) : exec (.chartWrite index sub r) s = .next (s.chartLocked 2 index sub r.data.length r) := if_pos h

/-! ### GEN_SELECT and MCTP control (R457, R462) -/

theorem exec_genSelect_selects (hc : ChecksPass s 0x1001 2 r) (hlt : r.value < 64) (hgen : bit (s.ch Ch.genSupported) r.value = true) :
    exec (.genSelect r) s = .next (((s.setCh Ch.genSelect r.value).setCh Ch.genActive r.value).okReply 0x1001 2 r) :=
  congrArg Host.Outcome.next (State.chartDo_ok hc (by simp [hlt, hgen]) rfl rfl)

end

/-- An endpoint ID from 8 to 254 is taken (log entry 73). -/
theorem exec_setEndpointId_takes (s : State) (eid : Nat) (hlo : 8 ≤ eid) (hhi : eid ≤ 254) :
    exec (.setEndpointId eid) s = .next ((s.setCh Ch.mctpEid eid).out (.mctpReply [0x01, 0x00, 0x00, BitVec.ofNat 8 eid, 0x00])) := if_pos ⟨hlo, hhi⟩

theorem exec_dynamicAddressAssignment_takes (s : State) (a : Nat) (h : a < 128) : exec (.dynamicAddressAssignment a) s = .next (s.setCh Ch.i3cAddress a) :=
  if_neg (Nat.not_le.mpr h)

/-- Settles O29: a write of any entry through the row it is led to, an INFO by whether the locked range is open. -/
theorem chartCommandsComplete : Obligations.ChartCommandsComplete := by
  intro s r index sub
  exact ⟨exec_genSelect_selects, fun h => ⟨s.chartRoute_completes index sub r, exec_chartInfo_served h⟩, fun h => ⟨exec_chartWrite_locked h, exec_chartInfo_locked h⟩,
    exec_setEndpointId_takes s, rfl, rfl, rfl, rfl, exec_dynamicAddressAssignment_takes s⟩

end Sys2Proof.Machine
end
